-- ==== Sys2Proof/Word.lean ====
section
/-!
DEFINITION. The fixed-width words of the device: plain synonyms of bit vectors, and nothing else.
-/
namespace Sys2Proof

/-- A byte. -/
abbrev Byte := BitVec 8
/-- A 16-bit word. -/
abbrev Word16 := BitVec 16
/-- A 32-bit word. -/
abbrev Word32 := BitVec 32
/-- A 64-bit word: a register, a descriptor word, a time stamp. -/
abbrev Word64 := BitVec 64
/-- A 24-bit packet or message sequence number, or a connection number (R113, R118). -/
abbrev Psn := BitVec 24
/-- A 26-bit fabric endpoint address (R20): coordinate [25:10], host port [9:8], function [7:0]. -/
abbrev Ep := BitVec 26
/-- A 16-bit tenant domain (R50). -/
abbrev Dom := BitVec 16

end Sys2Proof
end

