-- ==== Sys2Proof/Formats.lean ====
section
/-!
DEFINITION. The data the outside world and the fabric hand the device, as structured terms: functions, statuses,
event codes, descriptors, register writes, packets, Nib messages, flits, service frames. Types only; every
function over them stands under Machine.
-/
namespace Sys2Proof

/-- A function, by host port and function number (R46): number 0 is the physical function. -/
structure FnId where
  port : Fin 4 := 0
  num  : Fin 256 := 0
deriving DecidableEq, Repr

/-- Completion status codes (R84). -/
inductive Status where
  | success | busy | invalidOpcode | invalidParam | numberInUse | notFound | noResources | ownership
  | notPermitted | domainUnset | modeRefused | meterRefused
  | sqSeqMismatch | ringReadError | flushed
  | keyInvalid | accessDenied | bounds | walkError | walkTargetDevice | hostDmaError
  | remoteAccess | remoteFuncReset | retryExceeded | rnrExceeded | destDown | connError | policed | truncated
  | matchCtxInvalid | engineLost | treeFault | treeTimeout | treeInvalid
deriving DecidableEq, Repr

/-- Event codes (R85). -/
inductive EvCode where
  | dbOverrun | sqHalted | cqStalled | cqResumed | eqOverflowed
  | translationMark | walkTargetDevice | connBroken | remoteFuncReset
  | engineGrafted | engineLost | portDown | portUp | portWidth
  | paceLow | paceRestored | hbmThrottle | hbmThrottleEnd | modeChanged | faultRecorded
  | meterHold | meterReleased
deriving DecidableEq, Repr

/-- A 64-byte ring entry as eight little-endian words: an admin entry (R59) or a work descriptor (R72). -/
structure Desc where
  w0 : Word64 := 0
  w1 : Word64 := 0
  w2 : Word64 := 0
  w3 : Word64 := 0
  w4 : Word64 := 0
  w5 : Word64 := 0
  w6 : Word64 := 0
  w7 : Word64 := 0
deriving DecidableEq, Repr

/-- One host write to an 8-byte register or doorbell: all 64 bits, or one 32-bit half (R14, R64). -/
inductive Wr where
  | full (v : Word64)
  | low  (v : Word32)
  | high (v : Word32)
deriving DecidableEq, Repr

/-- The bits of a register that a read returns: all 64, or one half (R13). -/
inductive Part where
  | full | low | high
deriving DecidableEq, Repr

/-- A 32-byte completion entry (R74) before its phase bit is set. -/
structure Cqe where
  userCtx : Word64 := 0
  tag     : Word64 := 0
  len     : Word32 := 0
  source  : Ep := 0
  status  : Status := .success
  opcode  : Byte := 0
  queue   : Word16 := 0
  conn    : Psn := 0
  relaxed : Bool := false
deriving DecidableEq, Repr

/-- A 32-byte event entry (R75) before its phase bit is set. -/
structure Eqe where
  code   : EvCode := .dbOverrun
  object : Word32 := 0
  infoA  : Word64 := 0
  infoB  : Word64 := 0
  time   : Word64 := 0
deriving DecidableEq, Repr

/-- The routing header of a data or tree packet (R119); LEN is the packet's own length. `rsv` is its reserved bits, lowest
first: nothing reads them but the CRC (R12, R122). -/
structure RHdr where
  dest   : Ep := 0
  src    : Ep := 0
  hop    : BitVec 3 := 0
  detour : BitVec 4 := 0
  epoch  : Bool := false
  resp   : Bool := false
  det    : Bool := false
  domain : Dom := 0
  age    : Byte := 0
  tc     : BitVec 3 := 0
  rsv    : BitVec 26 := 0
deriving DecidableEq, Repr

/-- A data packet (R119 to R122), with the CRC-32C it carries. -/
structure Packet where
  rh      : RHdr := {}
  ptype   : Byte := 0
  conn    : Psn := 0
  psn     : Psn := 0
  first   : Bool := false
  last    : Bool := false
  retx    : Bool := false
  void    : Bool := false
  msn     : Psn := 0
  offset  : Word32 := 0
  va      : Word64 := 0
  key     : Word32 := 0
  aux     : Word32 := 0
  /-- reserved bits of the transport header, lowest first -/
  rsv     : BitVec 12 := 0
  payload : List Byte := []
  crc     : Word32 := 0
deriving DecidableEq, Repr

/-- A routed Nib message of the transport (R135). -/
structure Nib where
  dest   : Ep := 0
  hop    : BitVec 3 := 0
  epoch  : Bool := false
  detour : BitVec 4 := 0
  age    : Byte := 0
  domain : Dom := 0
  ntype  : Byte := 0
  conn   : Psn := 0
  psn    : Psn := 0
  reason : Byte := 0
  value  : Word64 := 0
  /-- reserved bits -/
  rsv    : BitVec 6 := 0
  crc    : Word32 := 0
  info   : Word32 := 0
deriving DecidableEq, Repr

/-- A tree packet (R208, R209), with the CRC-32C it carries. -/
structure TreePkt where
  rh       : RHdr := {}
  ptype    : Byte := 0
  tree     : BitVec 14 := 0
  null     : Bool := false
  flags    : Byte := 0
  chunk    : Word32 := 0
  opn      : Word16 := 0
  cop      : Byte := 0
  elem     : Byte := 0
  count    : Word32 := 0
  scale    : Word16 := 0
  raw256   : Bool := false
  mismatch : Bool := false
  /-- reserved bits of the transport header, lowest first -/
  rsv      : BitVec 111 := 0
  payload  : List Byte := []
  crc      : Word32 := 0
deriving DecidableEq, Repr

/-- What travels on a fabric link's routed and tree channels (R241). -/
inductive Item where
  | data (p : Packet)
  | nib  (n : Nib)
  | tree (t : TreePkt)
deriving DecidableEq, Repr

/-- A flit (R287): FTYPE is 0 for IDLE and 1 for DATA; the payload holds VALID bytes. -/
structure Flit where
  ftype   : BitVec 4 := 0
  fseq    : BitVec 12 := 0
  ack     : BitVec 12 := 0
  vc      : BitVec 5 := 0
  valid   : Byte := 0
  pool    : Bool := false
  crSel   : BitVec 5 := 31
  crCount : Word16 := 0
  retry   : Bool := false
  payload : List Byte := []
  crc     : Word64 := 0
deriving DecidableEq, Repr

/-- A symbol of the RS(544,514) code (R278, R281). -/
abbrev Sym := BitVec 10

/-- What the trailer of a link frame says (R283). -/
structure Trailer where
  /-- width of its frame: 1 or 2 lanes -/
  width     : Nat := 2
  /-- width of the next frame -/
  nextWidth : Nat := 2
  /-- active lane at one-lane width -/
  lane      : Nat := 0
  /-- active lane of the next frame -/
  nextLane  : Nat := 0
  /-- BIP-8 of lane 0 (R284) -/
  bip0      : Byte := 0
  /-- BIP-8 of lane 1 -/
  bip1      : Byte := 0
deriving DecidableEq, Repr

/-- What reaches a port's receiver (R281, R285, R296). -/
inductive Arrival
  /-- a flit as the frame decoder gives it, and with the last of its frame what the trailer says -/
  | flit (f : Flit) (t : Option Trailer)
  /-- a whole link frame, symbol by symbol, as receive lanes 0 and 1 brought it, before any correction -/
  | frame (a b : List Sym)
deriving DecidableEq, Repr

/-- What a receive lane finds where the markers of a frame stand (R285): the pattern, and in frames of one-lane format the
pattern that follows it. -/
structure Mark where
  first  : BitVec 20
  second : Option (BitVec 20) := none
deriving DecidableEq, Repr

/-- What is found on a port that loses frame lock: the port, and the markers of the last frames, newest last (R285). -/
structure LockLoss where
  p    : Fin 64
  seen : List Mark
deriving DecidableEq, Repr

/-- Code or running-disparity errors on service port n, at these received symbols since the last such report (R349, R377). -/
structure CodeErrs where
  n    : Fin 4
  errs : List Nat
deriving DecidableEq, Repr

/-- How a recording leaves the segment in progress: full, or because the recording lags (R476, R477). -/
structure SegEnd where
  lag : Bool := false
deriving DecidableEq, Repr

/-- A link-local Nib message (R301). -/
structure LinkMsg where
  unitId : Word64 := 0
  ntype  : Byte := 0
  token  : Byte := 0
  kind   : BitVec 4 := 0
  lane   : Bool := false
  rate   : BitVec 2 := 0
  switch : BitVec 12 := 0
  value  : Word64 := 0
  /-- bits the layout gives as 0, lowest first -/
  rsv    : BitVec 29 := 0
  crc    : Word32 := 0
  info   : Word32 := 0
deriving DecidableEq, Repr

/-- A service frame (R351, R352); COORD is TTL in UP frames. -/
structure Frame where
  ftype   : BitVec 4 := 0
  seq     : BitVec 4 := 0
  ack     : BitVec 4 := 0
  freed   : BitVec 4 := 0
  up      : Bool := false
  via     : Bool := false
  flood   : Bool := false
  len     : BitVec 11 := 0
  pathLen : BitVec 3 := 0
  path    : BitVec 14 := 0
  coord   : Word16 := 0
  /-- the reserved bit -/
  rsv     : Bool := false
  payload : List Byte := []
  crc     : Word32 := 0
deriving DecidableEq, Repr

/-- The quotas SET_FUNC_QUOTA sets (R52): none caps nothing. Their places in the entry are not stated. -/
structure QuotaArg where
  sq     : Option Nat := none
  cq     : Option Nat := none
  eq     : Option Nat := none
  conn   : Option Nat := none
  mctx   : Option Nat := none
  region : Option Nat := none
  hbm    : Option Nat := none
deriving DecidableEq, Repr

/-- What the host writes in the PCI Express capabilities of a function (R44). -/
inductive PciWr where
  /-- the power state: D3hot, or D0 -/
  | power (d3 : Bool)
  /-- maximum payload size: 128, 256 or 512 bytes -/
  | payload (n : Fin 3)
  /-- maximum read request size: 128 to 4,096 bytes -/
  | readReq (n : Fin 6)
  /-- ones clear bits of the Uncorrectable Error Status register -/
  | aerStatus (ones : Word32)
  /-- the Uncorrectable Error Mask register -/
  | aerMask (v : Word32)
deriving DecidableEq, Repr

/-- What the host writes in the configuration space of a function (R44, R45, R520). -/
inductive CfgWr where
  | busMaster (on : Bool)
  | bar (n : Fin 3) (addr : Word64)
  | vfBar (n : Fin 3) (addr : Word64)
  | numVfs (n : Fin 256)
  | vfEnable (on : Bool)
  | pci (w : PciWr)
  /-- MSI-X Enable and Function Mask -/
  | msixControl (enable mask : Bool)
  /-- bus mastering of the link companion HPn.1 of a bifurcated port (R45) -/
  | companionBusMaster (on : Bool)
  | companion (w : PciWr)
deriving DecidableEq, Repr

/-- What one slot of a descriptor fetch brought back (R67): 64 bytes, or nothing because the read failed with an
Advanced Error Reporting status bit (R83). -/
inductive FetchRes where
  | entry (d : Desc)
  | failed (aer : Fin 32)
deriving DecidableEq, Repr

/-- A submission ring: the admin ring, or a submission queue by number. -/
inductive RingRef where
  | admin
  | sq (n : Fin 65536)
deriving DecidableEq, Repr

/-- The kinds of queue of QUERY_QUEUE (R62). -/
inductive QKind where
  | sq | cq | eq
deriving DecidableEq, Repr

/-- Who makes a register access: a function through its register window, or the fabric manager (R268, R361). -/
inductive Master where
  | fn (f : FnId)
  | fabricManager
deriving DecidableEq, Repr

/-- Classes of error (R409). -/
inductive FClass where
  | corrected | contained | fatal
deriving DecidableEq, Repr

/-- What a fault source's report carries (R411): source, cause, detail, object, and errors since the last one. Its class is that
of R414's table. -/
structure FltIn where
  src    : Fin 512 := 0
  cause  : Byte := 0
  detail : Byte := 0
  object : BitVec 24 := 0
  n      : Nat := 1
deriving DecidableEq, Repr

/-- What the replaying unit has produced (R479), in the order of the recording: the address of each memory read it made and the
output hash of each operation it retired; past the end of the list it produced what was recorded. -/
structure InkEnd where
  made : List Word64 := []
deriving DecidableEq, Repr

/-- Whose hold-off of 1,024 ticks ends (R39, R516): PACE_LOW, PACE_RESTORED, HBM_THROTTLE or HBM_THROTTLE_END of a stack. -/
inductive Holdoff where
  | paceLow | paceRestored
  | throttle (stack : Fin 2)
  | throttleEnd (stack : Fin 2)
deriving DecidableEq, Repr

/-- A BAR of a function (R53). -/
inductive Bar where
  | bar0 | bar2 | bar4
deriving DecidableEq, Repr

/-- The eight operating modes (R5). -/
inductive Mode where
  | recovery | configure | worker | manager | transit | drain | replay | quarantine
deriving DecidableEq, Repr

end Sys2Proof
end

