-- ==== Sys2Proof/Syntax.lean ====
section
/-!
DEFINITION. The commands the block takes: one constructor for each row of the opcode table, with what the outside world, the host,
the fabric or the passing of time brings with it.
-/
namespace Sys2Proof

/-- A command. -/
inductive Instr where
  /-- CREATE_SQ (R62). Admin command that creates a submission queue bound to a completion queue, class and link. -/
  | createSq (f : FnId) (e : Desc)
  /-- DESTROY_SQ (R80). Admin command that removes an idle submission queue, or completes with BUSY. -/
  | destroySq (f : FnId) (e : Desc)
  /-- CREATE_CQ (R62). Admin command that creates a completion queue with its interrupt, coalescing and stall settings. -/
  | createCq (f : FnId) (e : Desc)
  /-- DESTROY_CQ (R80). Admin command that removes a completion queue that nothing is bound to. -/
  | destroyCq (f : FnId) (e : Desc)
  /-- CREATE_EQ (R62). Admin command that creates an event queue. -/
  | createEq (f : FnId) (e : Desc)
  /-- DESTROY_EQ (R80). Admin command that removes an event queue that no class is subscribed to. -/
  | destroyEq (f : FnId) (e : Desc)
  /-- SUBSCRIBE_EVENTS (R62). Admin command that directs event classes to an event queue, or to no queue. -/
  | subscribeEvents (f : FnId) (e : Desc)
  /-- QUERY_QUEUE (R62). Admin command that returns a queue's counts, state and halt reason. -/
  | queryQueue (f : FnId) (e : Desc)
  /-- CREATE_CONN (R114). Admin command that creates a connection to a peer and returns its number. -/
  | createConn (f : FnId) (e : Desc)
  /-- DESTROY_CONN (R116). Admin command that destroys a connection in Error or an idle Active connection. -/
  | destroyConn (f : FnId) (e : Desc)
  /-- MODIFY_CONN (R117). Admin command that changes masked connection fields and returns the connection state. -/
  | modifyConn (f : FnId) (e : Desc)
  /-- CREATE_MATCH_CTX (R163). Admin command that creates a match context and returns its number. -/
  | createMatchCtx (f : FnId) (e : Desc)
  /-- DESTROY_MATCH_CTX (R165). Admin command that completes posted entries, finishes rendezvous requests and frees a match context. -/
  | destroyMatchCtx (f : FnId) (e : Desc)
  /-- REGISTER_REGION (R87). Admin command that registers a memory region and returns its key. -/
  | registerRegion (f : FnId) (e : Desc)
  /-- DEREGISTER_REGION (R91). Admin command that invalidates a region key and starts waiting for accesses in progress. -/
  | deregisterRegion (f : FnId) (e : Desc)
  /-- DEREGISTER_REGION_DONE (R91). The last access past the key check finishes and DEREGISTER_REGION writes its completion. -/
  | deregisterRegionDone (f : FnId)
  /-- SET_TRANSLATION_ROOT (R95). Admin command that replaces the root of an address space and starts its invalidation. -/
  | setTranslationRoot (f : FnId) (e : Desc)
  /-- SET_TRANSLATION_ROOT_DONE (R95). The invalidation of the replaced address space ends and the command completes. -/
  | setTranslationRootDone (f : FnId)
  /-- INVALIDATE (R108). Admin command that removes in-scope translations from the caches. -/
  | invalidate (f : FnId) (e : Desc)
  /-- INVALIDATE_DONE (R110). Every access that used a removed entry has finished and INVALIDATE writes its completion. -/
  | invalidateDone (f : FnId)
  /-- RESUME_MARK (R107). Admin command that releases a trap slot, resuming or aborting the trapped accesses. -/
  | resumeMark (f : FnId) (e : Desc)
  /-- JOIN_TREE (R200). Admin command that makes the function a member of a collective tree. -/
  | joinTree (f : FnId) (e : Desc)
  /-- LEAVE_TREE (R201). Admin command that ends the function's membership of a tree. -/
  | leaveTree (f : FnId) (e : Desc)
  /-- SET_SHAPER (R333). Admin command that sets or disables a shaped class in one sequencer step. -/
  | setShaper (f : FnId) (e : Desc)
  /-- SET_POLICER (R336). Admin command that sets NOTE policers and returns the drop counts. -/
  | setPolicer (f : FnId) (e : Desc)
  /-- PARK_FUNCTION (R155). Admin command that starts writing a function's contexts to a host backing area. -/
  | parkFunction (f : FnId) (e : Desc)
  /-- PARK_FUNCTION_DONE (R156). Write-out ends, HBM is freed, connections become Parked and PARK_FUNCTION completes. -/
  | parkFunctionDone (f : FnId)
  /-- UNPARK_FUNCTION (R158). Admin command that starts reading a parked function's backing area back into HBM. -/
  | unparkFunction (f : FnId) (e : Desc)
  /-- UNPARK_FUNCTION_DONE (R158). The read-back ends and the function is restored, or its connections fail on a CRC error. -/
  | unparkFunctionDone (f : FnId) (crcOk : Bool)
  /-- SET_FUNC_DOMAIN (R50). Admin command that sets a function's tenant domain. -/
  | setFuncDomain (f : FnId) (e : Desc)
  /-- SET_FUNC_QUOTA (R52). Admin command that sets a virtual function's resource quotas. -/
  | setFuncQuota (f : FnId) (e : Desc) (q : QuotaArg)
  /-- QUERY_FUNC (R61). Admin command that returns a function's domain, quotas, usage and drop counts. -/
  | queryFunc (f : FnId) (e : Desc)
  /-- SET_MODE (R450). Admin command that requests an operating mode and enters the tick's arbitration. -/
  | setMode (f : FnId) (e : Desc)
  /-- SET_MODE_DEVICE_RESET (R450). SET_MODE with DEVICE_RESET = 1, which requests a device reset. -/
  | setModeDeviceReset (f : FnId) (e : Desc)
  /-- FABRIC_MGMT_SEND (R363). FABRIC_MGMT operation SEND, which transmits one service frame from the host. -/
  | fabricMgmtSend (f : FnId) (e : Desc) (buf : List Byte)
  /-- FABRIC_MGMT_RECV (R363). FABRIC_MGMT operation RECV, which returns the oldest frame consumed by the manager role. -/
  | fabricMgmtRecv (f : FnId) (e : Desc)
  /-- FABRIC_MGMT_LOCAL (R363). FABRIC_MGMT operation LOCAL, which executes a COMMAND payload on this device. -/
  | fabricMgmtLocal (f : FnId) (e : Desc) (buf : List Byte)
  /-- FAULT_CLEAR (R426). Admin command that clears one or all fault records and optionally the corrected counts. -/
  | faultClear (f : FnId) (e : Desc)
  /-- IDENTIFY (R61). Admin command that returns capacities, stepping and unit identifier. -/
  | identify (f : FnId) (e : Desc)
  /-- DESCRIPTOR_FETCH (R67). Descriptor data from a submission or admin ring arrives, is checked and is started, or the fetch fails. -/
  | descriptorFetch (f : FnId) (r : RingRef) (res : List FetchRes)
  /-- NOP (R71). Work descriptor that completes at once. -/
  | nop (f : FnId) (sq : Fin 65536) (e : Desc)
  /-- PUT (R124). Work descriptor that starts a remote write. -/
  | put (f : FnId) (sq : Fin 65536) (e : Desc)
  /-- PUT_FLAG (R124). Work descriptor that starts a remote write whose last packet notifies the target. -/
  | putFlag (f : FnId) (sq : Fin 65536) (e : Desc)
  /-- GET (R125). Work descriptor that sends a remote read request. -/
  | get (f : FnId) (sq : Fin 65536) (e : Desc)
  /-- ATOMIC (R126). Work descriptor that sends a remote 64-bit atomic. -/
  | atomic (f : FnId) (sq : Fin 65536) (e : Desc)
  /-- SEND_TAGGED (R167). Work descriptor that sends a tagged message, eager or by rendezvous. -/
  | sendTagged (f : FnId) (sq : Fin 65536) (e : Desc)
  /-- POST_RECV (R170). Work descriptor that posts a receive, searching the unexpected messages first. -/
  | postRecv (f : FnId) (sq : Fin 65536) (e : Desc)
  /-- NOTE (R127). Work descriptor that sends an unreliable datagram through the outbound policer. -/
  | note (f : FnId) (sq : Fin 65536) (e : Desc)
  /-- COLL (R204). Work descriptor that starts a collective operation on a tree. -/
  | coll (f : FnId) (sq : Fin 65536) (e : Desc)
  /-- FENCE (R73). Work descriptor that waits until earlier descriptors of its queue have completed. -/
  | fence (f : FnId) (sq : Fin 65536) (e : Desc)
  /-- SQ_DOORBELL (R65). A submission queue doorbell advances the producer count or is rejected as an overrun. -/
  | sqDoorbell (f : FnId) (n : Fin 65536) (w : Wr)
  /-- AQ_DB (R65). Admin submission doorbell that advances the admin producer count. -/
  | aqDb (f : FnId) (w : Wr)
  /-- ACQ_DB (R58). Admin completion doorbell that returns room and releases a held admin completion. -/
  | acqDb (f : FnId) (w : Wr)
  /-- CQ_DOORBELL (R68). A completion queue doorbell returns room, arms an interrupt and resumes a full queue. -/
  | cqDoorbell (f : FnId) (n : Fin 65536) (w : Wr)
  /-- EQ_DOORBELL (R68). An event queue doorbell returns room and arms an interrupt. -/
  | eqDoorbell (f : FnId) (n : Fin 4096) (w : Wr)
  /-- AQ_CFG_WRITE (R57). Write of AQ_CFG that enables the admin queue under its start-up rules. -/
  | aqCfgWrite (f : FnId) (w : Wr)
  /-- ACQ_CFG_WRITE (R57). Write of ACQ_CFG that enables or disables the admin completion queue. -/
  | acqCfgWrite (f : FnId) (w : Wr)
  /-- OWNER_CTL_WRITE (R48). Write of OWNER_PORT that changes the owner function at the next tick. -/
  | ownerCtlWrite (m : Master) (w : Wr)
  /-- CQ_STALL_TIMEOUT (R78). A completion queue stays full for STALL_TIMEOUT and CQ_STALLED is posted or merged. -/
  | cqStallTimeout (f : FnId) (n : Fin 65536)
  /-- COAL_TIME_EXPIRY (R69). COAL_TIME elapses since the oldest pending completion and the queue's vector fires. -/
  | coalTimeExpiry (f : FnId) (n : Fin 65536)
  /-- FUNCTION_LEVEL_RESET (R81). The host initiates a function-level reset, which stops and tears down the function. -/
  | functionLevelReset (f : FnId)
  /-- FLR_COMPLETE (R81). The tear-down of a function-level reset ends and the function may be used again. -/
  | flrComplete (f : FnId)
  /-- VF_DISABLE (R520). The host lowers NumVFs or clears VF Enable and the vanished virtual functions are taken down. -/
  | vfDisable (p : Fin 4) (num : Fin 256) (en : Bool)
  /-- VF_TEARDOWN_DONE (R520). The tear-down of a vanished virtual function ends. -/
  | vfTeardownDone (f : FnId)
  /-- HOST_LINK_DOWN (R83). A host port link goes down and every function of the port is reset. -/
  | hostLinkDown (p : Fin 4)
  /-- HOST_PORT_RESET (R436). HPn_PERST_N asserts a fundamental reset of a host port. -/
  | hostPortReset (p : Fin 4)
  /-- TLP_DISCARD (R83). A malformed, ECRC-failing, unexpected or overflowing TLP is received and discarded. -/
  | tlpDiscard (p : Fin 4) (aer : Fin 32)
  /-- HOST_READ_FAILURE (R83). A device-issued host read returns an error or poisoned data and its purpose fails. -/
  | hostReadFailure (id : Nat) (aer : Fin 32)
  /-- PCIE_COMPLETION_TIMEOUT (R83). A device-issued host read reaches the port's completion timeout and fails. -/
  | pcieCompletionTimeout (id : Nat)
  /-- PAYLOAD_READ_DONE (R146). Payload read from host memory arrives and the packet is formed, or sent VOID on failure. -/
  | payloadReadDone (id : Nat) (data : List Byte)
  /-- WALK_READ_RESPONSE (R94). A translation walk read returns and the walk goes on, ends or fills the caches. -/
  | walkReadResponse (id : Nat) (e : Word64)
  /-- MARK_REREAD_RESPONSE (R103). A re-read leaf entry returns and refreshes the caches, fails the access or traps it. -/
  | markRereadResponse (id : Nat) (e : Word64)
  /-- GET_TARGET_READ_DONE (R125). The target's host read for a GET returns and GET_RESP packets are sent. -/
  | getTargetReadDone (id : Nat) (data : List Byte)
  /-- ATOMIC_TARGET_READ_DONE (R126). The target's host read for an atomic returns, the new value is written and ATOMIC_RESP sent. -/
  | atomicTargetReadDone (id : Nat) (w : Word64)
  /-- PUT_PACKET (R132). A PUT data packet arrives and is accepted, executed, refused or answered as a duplicate. -/
  | putPacket (p : Packet)
  /-- PUT_FLAG_PACKET (R133). A flagged PUT_FLAG packet arrives and is placed with notification or held. -/
  | putFlagPacket (p : Packet)
  /-- GET_REQ (R125). A GET_REQ packet arrives and is checked and its host read issued. -/
  | getReq (p : Packet)
  /-- GET_RESP (R125). A GET_RESP packet arrives at the initiator and is placed or ends the GET. -/
  | getResp (p : Packet)
  /-- ATOMIC_REQ (R126). An ATOMIC_REQ packet arrives and its read is issued or a cached result returned. -/
  | atomicReq (p : Packet)
  /-- SEND_PACKET (R175). A SEND packet of an eager message or rendezvous request arrives and is staged, handed to matching or placed. -/
  | sendPacket (p : Packet)
  /-- RENDEZVOUS_FINISH (R179). A SEND packet of SKIND 2 arrives and completes the named rendezvous send. -/
  | rendezvousFinish (p : Packet)
  /-- NOTE_PACKET (R181). A NOTE arrives and is policed, matched, made unexpected or dropped. -/
  | notePacket (p : Packet)
  /-- STAGED_COPY_DONE (R177). The copy of staged bytes into a receive buffer ends and the POST_RECV completes. -/
  | stagedCopyDone (id : Nat)
  /-- ACK (R138). An ACK arrives, advancing UNA and completing operations. -/
  | ack (m : Nib)
  /-- NAK (R139). A NAK arrives and the sender declares loss and resends. -/
  | nak (m : Nib)
  /-- RNR_NAK (R144). An RNR_NAK arrives and the sender backs off or fails the connection. -/
  | rnrNak (m : Nib)
  /-- ACCESS_NAK (R146). An ACCESS_NAK arrives and the operation fails with REMOTE_ACCESS and is resent VOID. -/
  | accessNak (m : Nib)
  /-- ATOMIC_RESP (R126). An ATOMIC_RESP arrives and the prior value is written to RESULT_VA. -/
  | atomicResp (m : Nib)
  /-- CONN_RESET (R147). A CONN_RESET arrives and the connection's operations complete with CONN_ERROR. -/
  | connReset (m : Nib)
  /-- FUNC_RESET (R147). A FUNC_RESET arrives and the connection's operations complete with REMOTE_FUNC_RESET. -/
  | funcReset (m : Nib)
  /-- DEST_DOWN (R147). A DEST_DOWN message arrives and the connection fails with DEST_DOWN. -/
  | destDown (m : Nib)
  /-- RETRANSMIT_TIMEOUT (R140). The retransmit timer expires and loss is declared. -/
  | retransmitTimeout (n : Psn)
  /-- RNR_WAIT_END (R144). An RNR back-off wait ends and the sender resends from UNA. -/
  | rnrWaitEnd (n : Psn)
  /-- ACK_TIMER (R137). 2 µs pass since an uncovered acceptance and the receiver sends an ACK. -/
  | ackTimer (n : Psn)
  /-- CONTEXT_FETCH_DONE (R153). A connection context arrives from HBM and waiting packets proceed. -/
  | contextFetchDone (n : Psn)
  /-- CONTEXT_WRITEOUT_DONE (R154). A context write-out completes and waiting packets are answered RNR_NAK. -/
  | contextWriteoutDone (n : Psn)
  /-- MISS_WAIT_TIMEOUT (R154). A packet waits 20 µs during a write-out and is answered RNR_NAK. -/
  | missWaitTimeout (n : Psn)
  /-- HANDSHAKE_STALL (R419). A monitored handshake stays pending beyond 100 µs and STALL is reported. -/
  | handshakeStall (src : Fin 512)
  /-- FAULT_REPORT (R413). A source's report is taken by the collector and recorded, merged or counted. -/
  | faultReport (x : FltIn)
  /-- GRAFT_DONE (R190). Held requests are resent to the spare and the slot's fence lifts. -/
  | graftDone (slot : Fin 32)
  /-- NOTIFY_HOLDOFF_END (R364). The 100 µs NOTIFY spacing ends and the latest state is sent. -/
  | notifyHoldoffEnd
  /-- REPORT_PATH_FAILURE (R412). A reporting pair reads broken or stuck and the source is masked. -/
  | reportPathFailure (src : Fin 512)
  /-- FAULT_RECORD_CLEAR (R425). A write of 1 to FLT_STAT_n.VALID clears a fault record. -/
  | faultRecordClear (m : Master) (src : Fin 512)
  /-- CORR_CLR (R432). A write of CORR_CLR clears a source's corrected count. -/
  | corrClr (m : Master) (src : Fin 512)
  /-- FLT_FORCE (R422). A write of FORCE injects one report of the chosen class. -/
  | fltForce (m : Master) (src : Fin 512) (fc : Fin 4)
  /-- FLT_BREAK (R422). A write of BREAK drives a source's reporting pair illegal. -/
  | fltBreak (m : Master) (src : Fin 512)
  /-- ECC_UNCORRECTABLE (R416). An uncorrectable stored word is found and acted on by its holder. -/
  | eccUncorrectable (src : Fin 512) (detail : Byte) (object : BitVec 24)
  /-- ECC_CORRECTED (R416). A single-bit error is corrected, written back and counted. -/
  | eccCorrected (src : Fin 512)
  /-- QUILL_WATCHDOG (R444). The Quill watchdog expires, recording a fatal fault or ending a boot attempt. -/
  | quillWatchdog
  /-- HBM_STACK_FAILURE (R420). An HBM stack or channel fails and a fatal fault is reported. -/
  | hbmStackFailure (n : Fin 2)
  /-- TREE_UP (R213). A contribution chunk arrives from a child and is combined when all are present. -/
  | treeUp (port : Fin 64) (p : TreePkt)
  /-- TREE_DOWN (R214). A result chunk arrives from the parent and is forwarded and placed. -/
  | treeDown (port : Fin 64) (p : TreePkt)
  /-- UP_CREDIT (R212). An UP_CREDIT arrives and frees up-slots of the child. -/
  | upCredit (port : Fin 64) (p : TreePkt)
  /-- DOWN_CREDIT (R212). A DOWN_CREDIT arrives and frees down-slots. -/
  | downCredit (port : Fin 64) (p : TreePkt)
  /-- TREE_ACK (R215). A combined placement acknowledgement arrives from a child. -/
  | treeAck (port : Fin 64) (p : TreePkt)
  /-- TREE_DONE (R215). A completion wave arrives, ending the operation with SUCCESS. -/
  | treeDone (port : Fin 64) (p : TreePkt)
  /-- TREE_ABORT (R228). A TREE_ABORT arrives and the node ends the operation with its status. -/
  | treeAbort (port : Fin 64) (p : TreePkt)
  /-- TREE_TIMEOUT (R227). A node's tree timer expires and the operation ends with TREE_TIMEOUT. -/
  | treeTimeout (tree : BitVec 14)
  /-- TREE_CONTRIB_READ_DONE (R213). A member's send-buffer chunk arrives from host memory at its node. -/
  | treeContribReadDone (id : Nat) (data : List Byte)
  /-- ROUTE_PACKET (R248). A data packet or routed Nib message at a router is delivered, forwarded or discarded. -/
  | routePacket (ing : Fin 65) (it : Item) (resid : Nat)
  /-- PACKET_AGE_EXPIRY (R251). A waiting packet's age reaches 250 and it is discarded. -/
  | packetAgeExpiry (it : Item)
  /-- NIB_STALL_DISCARD (R245). A routed Nib message waits 10 µs at the head of its queue and is discarded. -/
  | nibStallDiscard (p : Fin 64)
  /-- ARM_A (R259). EPOCH_CTL command that arms bank A after the arm check. -/
  | armA (m : Master) (w : Wr)
  /-- ARM_B (R259). EPOCH_CTL command that arms bank B after the arm check. -/
  | armB (m : Master) (w : Wr)
  /-- RETIRE_A (R259). EPOCH_CTL command that retires bank A. -/
  | retireA (m : Master) (w : Wr)
  /-- RETIRE_B (R259). EPOCH_CTL command that retires bank B. -/
  | retireB (m : Master) (w : Wr)
  /-- STAMP_WRITE (R257). Write of EPOCH_CTL.STAMP that changes the stamped epoch. -/
  | stampWrite (m : Master) (w : Wr)
  /-- TABLE_READ (R271). Table window access that reads an entry into the data registers. -/
  | tableRead (m : Master) (w : Wr)
  /-- TABLE_WRITE (R271). Table window access that writes an entry from the data registers. -/
  | tableWrite (m : Master) (w : Wr)
  /-- FORCED_WRITE (R260). Table window write with FORCE = 1 that replaces an armed entry in one step. -/
  | forcedWrite (m : Master) (w : Wr)
  /-- RT_COORD_WRITE (R240). Write of RT_COORD, ignored while a bank is armed or retiring. -/
  | rtCoordWrite (m : Master) (w : Wr)
  /-- RT_HP_DRAIN_WRITE (R265). Write of RT_HP_DRAIN that starts or ends the drain of a host domain. -/
  | rtHpDrainWrite (m : Master) (w : Wr)
  /-- DRAIN_LIMIT_EXPIRY (R265). The drain limit passes and outstanding operations complete with DEST_DOWN. -/
  | drainLimitExpiry (p : Fin 4)
  /-- FLIT_RECEIVE (R296). A flit arrives and is checked, acknowledged, credited and taken or discarded. -/
  | flitReceive (p : Fin 64) (a : Arrival) (slots : Fin 3)
  /-- REPLAY_TIMEOUT (R297). The oldest flit stays unacknowledged for REPLAY_TO and a replay starts. -/
  | replayTimeout (p : Fin 64)
  /-- LINK_HELLO (R303). A link-local HELLO arrives and the partner identity is stored. -/
  | linkHello (p : Fin 64) (m : LinkMsg)
  /-- LINK_HELLO_TIMER (R303). The 1 ms HELLO period expires and HELLO is sent. -/
  | linkHelloTimer (p : Fin 64)
  /-- CHANGE_REQ (R313). A CHANGE_REQ arrives and is accepted, merged, ignored or refused busy. -/
  | changeReq (p : Fin 64) (m : LinkMsg)
  /-- CHANGE_ACK (R311). A CHANGE_ACK arrives and the requester sends CHANGE_GO. -/
  | changeAck (p : Fin 64) (m : LinkMsg)
  /-- CHANGE_GO (R311). A CHANGE_GO arrives naming the requester's switch point. -/
  | changeGo (p : Fin 64) (m : LinkMsg)
  /-- CHANGE_BUSY (R313). A CHANGE_BUSY arrives and the requester waits before retrying. -/
  | changeBusy (p : Fin 64) (m : LinkMsg)
  /-- CHANGE_BUSY_WAIT_END (R313). The 50 µs wait after CHANGE_BUSY ends and a new request may be sent. -/
  | changeBusyWaitEnd (p : Fin 64)
  /-- CHANGE_DONE (R316). A CHANGE_DONE arrives and a retrain proceeds to widen or resume. -/
  | changeDone (p : Fin 64) (m : LinkMsg)
  /-- CHANGE_REQ_TIMEOUT (R311). A CHANGE_REQ gets no answer in 20 µs and is resent or the port goes down. -/
  | changeReqTimeout (p : Fin 64)
  /-- LINK_MODE (R305). A LINK_MODE announcement arrives and the port enters UP or NIB_ONLY. -/
  | linkMode (p : Fin 64) (m : LinkMsg)
  /-- TIME_REQ (R368). A TIME_REQ arrives at the parent and a TIME_RESP is returned. -/
  | timeReq (p : Fin 64) (m : LinkMsg)
  /-- TIME_RESP (R368). A TIME_RESP arrives and the child corrects its counter and rate. -/
  | timeResp (p : Fin 64) (m : LinkMsg)
  /-- TIME_EXCHANGE_TIMER (R368). The exchange period expires and a TIME_REQ is sent, or holdover is set. -/
  | timeExchangeTimer
  /-- LANE_HEALTH_WINDOW (R310). A lane counting window ends and a failing lane is narrowed out. -/
  | laneHealthWindow (p : Fin 64) (j : Fin 2) (sym unc bip : Nat)
  /-- LANE_SIGNAL_LOSS (R314). Loss of signal or lock on a lane narrows the port without negotiation. -/
  | laneSignalLoss (p : Fin 64) (j : Fin 2) (lol : Bool)
  /-- FRAME_LOCK_GAINED (R285). Three good frames give frame lock, with swap and inversion corrected. -/
  | frameLockGained (p : Fin 64) (j : Fin 2) (before : List Mark) (last : Mark)
  /-- FRAME_LOCK_LOST (R285). Four frames without markers lose frame lock. -/
  | frameLockLost (x : LockLoss)
  /-- FRAME_LOCK_TIMEOUT (R319). Frame lock is not regained in 8 µs and the port goes DOWN. -/
  | frameLockTimeout (p : Fin 64)
  /-- TRAIN_LOCK_TIMEOUT (R306). A lane fails to lock in 1 ms at rung 1 and is left out, or the port goes DOWN. -/
  | trainLockTimeout (p : Fin 64) (j : Fin 2)
  /-- RATE_LOCK_TIMEOUT (R307). A new rung fails to lock in 1 ms and both ends return to the previous rung. -/
  | rateLockTimeout (p : Fin 64)
  /-- PORT_DOWN_DWELL_END (R304). The DOWN dwell ends and the port trains again. -/
  | portDownDwellEnd (p : Fin 64)
  /-- LANE_RESTORE_TIMER (R315). A taken-out lane's retry time comes and its retrain is requested. -/
  | laneRestoreTimer (p : Fin 64) (j : Fin 2)
  /-- LANE_SOAK_END (R315). A restored lane's 10 ms soak ends and WIDEN is requested if healthy. -/
  | laneSoakEnd (p : Fin 64) (j : Fin 2)
  /-- PORT_ENABLE (R304). Setting PORT_n_CTL.ENABLE starts training of a disabled port. -/
  | portEnable (m : Master) (p : Fin 64)
  /-- PORT_DISABLE (R304). Clearing PORT_n_CTL.ENABLE takes the port DISABLED. -/
  | portDisable (m : Master) (p : Fin 64)
  /-- NARROW_LANE0 (R323). Port command that requests NARROW to lane 0. -/
  | narrowLane0 (m : Master) (p : Fin 64)
  /-- NARROW_LANE1 (R323). Port command that requests NARROW to lane 1. -/
  | narrowLane1 (m : Master) (p : Fin 64)
  /-- WIDEN (R323). Port command that requests WIDEN. -/
  | widen (m : Master) (p : Fin 64)
  /-- RETRAIN_LANE0 (R323). Port command that requests RETRAIN of lane 0. -/
  | retrainLane0 (m : Master) (p : Fin 64)
  /-- RETRAIN_LANE1 (R323). Port command that requests RETRAIN of lane 1. -/
  | retrainLane1 (m : Master) (p : Fin 64)
  /-- PORT_RESTART (R323). Port command that takes the port down with cause DISABLED and trains it. -/
  | portRestart (m : Master) (p : Fin 64)
  /-- PACE_MEASUREMENT (R30). Each tick's pace monitor counts close and PACE_STAT is updated. -/
  | paceMeasurement (counts : List Nat) (slots : List Int)
  /-- PACE_EVENT_HOLDOFF_END (R39). The 1,024-tick hold-off ends and a changed pace state is posted. -/
  | paceEventHoldoffEnd (k : Holdoff)
  /-- GOVERNOR_EVALUATION (R37). Every 16 ticks the governor evaluates pace and may request a new core voltage. -/
  | governorEvaluation
  /-- AVS_REQUEST_COMPLETE (R37). The regulator acknowledges an AVSBus request as complete. -/
  | avsRequestComplete
  /-- AVS_TIMEOUT (R38). The regulator fails to acknowledge in 1 ms and an AVSBus fault is recorded. -/
  | avsTimeout (status : Word16)
  /-- AVS_FAULT (R38). The regulator reports a fault or a frame fails its CRC and a fault is recorded. -/
  | avsFault (status : Word16)
  /-- AVS_RETRY (R38). 100 ms after an AVSBus fault the governor retries. -/
  | avsRetry
  /-- THERMAL_SAMPLE (R516). Each tick the temperature sensors are read and thermal actions taken. -/
  | thermalSample (raw : List Int) (hbm0 hbm1 : Int)
  /-- THERMTRIP (R515). A sensor comparator reaches the trip level, latching THERMTRIP_N and causing Quarantine. -/
  | thermtrip
  /-- SHAPER_REFILL (R331). Each tick the shaper and policer buckets gain tokens and waiting packets are admitted. -/
  | shaperRefill
  /-- GATE_ENTRY_CHANGE (R340). A gate control list entry's duration ends and the next entry comes into force. -/
  | gateEntryChange (p : Fin 64) (starts : Bool)
  /-- GCL_READ (R345). Gate list window access that reads a staged entry. -/
  | gclRead (m : Master) (w : Wr)
  /-- GCL_WRITE (R345). Gate list window access that writes a staged entry. -/
  | gclWrite (m : Master) (w : Wr)
  /-- SVC_LINK_ACK (R354). A service LINK_ACK frame arrives carrying ACK and FREED. -/
  | svcLinkAck (n : Fin 4) (f : Frame)
  /-- SVC_HELLO (R358). A service HELLO frame arrives and the partner and roles are updated. -/
  | svcHello (n : Fin 4) (f : Frame)
  /-- SVC_HELLO_TIMER (R358). The 10 ms service HELLO period expires and HELLO is sent. -/
  | svcHelloTimer (n : Fin 4)
  /-- SPEED (R350). A SPEED frame arrives naming a new service link speed. -/
  | speed (n : Fin 4) (f : Frame) (speed : Fin 3)
  /-- SPEED_SWITCH (R350). 10 µs after the SPEED frame is acknowledged both transmitters switch speed. -/
  | speedSwitch (n : Fin 4)
  /-- SPEED_LOCK_TIMEOUT (R350). Lock is not regained in 1 ms and the link returns to 1.25 Gb/s. -/
  | speedLockTimeout (n : Fin 4)
  /-- DISCOVER (R359). A DISCOVER arrives and a DISCOVER_REPLY is sent upward. -/
  | discover (n : Fin 4) (f : Frame)
  /-- DISCOVER_REPLY (R359). A DISCOVER_REPLY arrives at the active manager or is forwarded. -/
  | discoverReply (n : Fin 4) (f : Frame)
  /-- COMMAND (R361). A COMMAND frame is executed as one sequencer step of register accesses. -/
  | command (n : Fin 4) (f : Frame)
  /-- RESPONSE (R362). A RESPONSE frame arrives at the manager or is forwarded. -/
  | response (n : Fin 4) (f : Frame)
  /-- HEARTBEAT (R355). A HEARTBEAT arrives, renewing the lease and forming the service tree. -/
  | heartbeat (n : Fin 4) (f : Frame)
  /-- NOTIFY (R364). A NOTIFY frame arrives at the active manager or is forwarded. -/
  | notify (n : Fin 4) (f : Frame)
  /-- IMAGE (R374). An IMAGE chunk arrives and is written to the inactive slot. -/
  | image (n : Fin 4) (f : Frame)
  /-- SVC_LOCK_GAINED (R349). A service receiver gains symbol lock. -/
  | svcLockGained (n : Fin 4)
  /-- SVC_LOCK_LOST (R349). A service receiver loses lock and the link goes down. -/
  | svcLockLost (x : CodeErrs)
  /-- SVC_ACK_TIMEOUT (R354). The oldest unacknowledged frame waits ACK_TO and every unacknowledged frame is resent. -/
  | svcAckTimeout (n : Fin 4)
  /-- SVC_LINK_ACK_TIMER (R354). No frame carries ACK and FREED for 2 µs and a LINK_ACK is sent. -/
  | svcLinkAckTimer (n : Fin 4)
  /-- SVC_RESTART (R376). A write of SVC_n_CTL.RESTART takes the service link down and retrains it. -/
  | svcRestart (m : Master) (n : Fin 4) (w : Wr)
  /-- SVC_RT_READ (R379). Service route table access that reads a word. -/
  | svcRtRead (m : Master) (w : Wr)
  /-- SVC_RT_WRITE (R379). Service route table access that writes a word. -/
  | svcRtWrite (m : Master) (w : Wr)
  /-- FT_SET (R369). A 64-bit write of FT_SET sets the time root's counter. -/
  | ftSet (m : Master) (w : Wr)
  /-- MODE_ARBITRATION (R372). At tick end the mode requests of the tick are ranked and one is carried out. -/
  | modeArbitration
  /-- MODE_CTL_REQ (R450). A COMMAND write of MODE_CTL.REQ requests a mode. -/
  | modeCtlReq (m : Master) (w : Wr)
  /-- MODE_CTL_DEVICE_RESET (R450). A COMMAND write of MODE_CTL.DEVICE_RESET requests a device reset. -/
  | modeCtlDeviceReset (m : Master) (w : Wr)
  /-- MTR_TIME_SET (R385). A 64-bit write of MTR_TIME_SET sets island time once and opens a block. -/
  | mtrTimeSet (m : Master) (w : Wr)
  /-- MTR_TIME_ADJ (R386). A write of MTR_TIME_ADJ is accepted and slewed or refused. -/
  | mtrTimeAdj (m : Master) (w : Wr)
  /-- MTR_ACK (R396). A 64-bit write of MTR_ACK releases exported blocks. -/
  | mtrAck (m : Master) (w : Wr)
  /-- MTR_RD_SEL (R395). A write of a reader select chooses the object and page a reader shows. -/
  | mtrRdSel (k : Fin 2) (m : Master) (w : Wr)
  /-- MTR_WINDOW_READ (R395). A read of a reader window word counts toward the page being read. -/
  | mtrWindowRead (k : Fin 2) (m : Master) (n : Fin 512) (lo hi : Bool)
  /-- TRIM_SET (R387). A write of CAL_USR_MTR_TRIM with the seal open sets the user trim. -/
  | trimSet (m : Master) (w : Wr)
  /-- OPERATOR_SET (R404). A write of MTR_OPERATOR with the seal open sets the operator identifier. -/
  | operatorSet (m : Master) (w : Wr)
  /-- MTR_FW_BEGIN (R405). MTR_FW_CTL command BEGIN clears the island firmware staging slot. -/
  | mtrFwBegin (m : Master) (w : Wr)
  /-- MTR_FW_DATA (R405). A write of MTR_FW_DATA stores one image word and advances OFFSET. -/
  | mtrFwData (m : Master) (w : Wr)
  /-- MTR_FW_ACTIVATE (R405). MTR_FW_CTL command ACTIVATE verifies the staged island image. -/
  | mtrFwActivate (m : Master) (w : Wr)
  /-- METER_XO_LOSS (R508). METER_XO is missing for 1 ms and the island sets TIME_UNSET. -/
  | meterXoLoss
  /-- VDD_MTR_LOSS (R507). VDD_MTR fails, the island resets and the device holds with cause ABSENT. -/
  | vddMtrLoss
  /-- POWER_ON_RESET (R436). Supplies rise with SYS_RST_N low and the whole device except the island resets and boots. -/
  | powerOnReset (role bootSrc : BitVec 2) (recovery : Bool)
  /-- DEVICE_RESET (R438). A device reset stops ports, flushes tally accumulators and boots. -/
  | deviceReset (recovery : Bool)
  /-- BOOT_COMPLETE (R443). Firmware finishes HBM training and loading and enters Configure. -/
  | bootComplete
  /-- FW_ACTIVATE (R452). FW_CTL command ACTIVATE verifies the inactive slot and checks generations. -/
  | fwActivate (m : Master) (w : Wr)
  /-- FW_ACTIVATE_DONE (R452). ACTIVATE completes, making the image preferred and resetting if set. -/
  | fwActivateDone
  /-- FW_COMMIT (R452). FW_CTL command COMMIT raises the fuse count to the running SVN. -/
  | fwCommit (m : Master) (w : Wr)
  /-- PMU_SEL_WRITE (R461). A write of PMU_SEL_k changes a counter's selection and zeroes it at the next tick. -/
  | pmuSelWrite (m : Master) (k : Fin 1024) (w : Wr)
  /-- PMU_CLEAR (R461). A write of PMU_CTL.CLEAR zeroes every counter at the next tick. -/
  | pmuClear (m : Master) (w : Wr)
  /-- BW_WINDOW_END (R465). A bandwidth window ends and the port byte counts are latched. -/
  | bwWindowEnd
  /-- DUMP_ENABLE (R469). A write of PMU_DUMP_CTL.EN starts or stops periodic dumps. -/
  | dumpEnable (m : Master) (w : Wr)
  /-- DUMP_BOUNDARY (R467). A dump period boundary passes and a consistent dump block is written or skipped. -/
  | dumpBoundary
  /-- INK_START (R475). Inkwell command START allocates a region and sets a checkpoint. -/
  | inkStart (m : Master) (w : Wr)
  /-- INK_STOP (R476). Inkwell command STOP ends the recording with cause MANUAL. -/
  | inkStop (m : Master) (w : Wr)
  /-- INK_DISCARD (R478). Inkwell command DISCARD drops the held recording. -/
  | inkDiscard (m : Master) (w : Wr)
  /-- INK_TRANSFER (R478). Inkwell command TRANSFER starts an export or import of recording pages. -/
  | inkTransfer (m : Master) (w : Wr)
  /-- INK_REPLAY (R479). Inkwell command REPLAY starts re-execution of a recording on a unit. -/
  | inkReplay (m : Master) (w : Wr)
  /-- CFG_COMMIT (R498). A write of CFG_COMMIT.COMMIT names blocks to commit and sets BUSY. -/
  | cfgCommit (m : Master) (w : Wr)
  /-- COMMIT_EVALUATION (R498). At the next tick the named blocks are checked and committed together or refused. -/
  | commitEvaluation
  /-- CRC_SWEEP_COMPLETE (R494). A configuration checksum sweep completes and is compared with the reference. -/
  | crcSweepComplete
  /-- CRC_CAPTURE (R496). A write of CAPTURE loads the reference from the next completed sweep. -/
  | crcCapture (m : Master) (w : Wr)
  /-- CFG_LOCK (R496). A write of CFG_LOCK.LOCK locks CRC_EN and GRACE until device reset. -/
  | cfgLock (m : Master) (w : Wr)
  /-- REG_PARITY_MISMATCH (R490). The tick's parity check finds an in-force register mismatch and fences its unit. -/
  | regParityMismatch (f : FnId) (off : Fin 0x80000)
  /-- STAGED_PARITY_MISMATCH (R492). The tick's parity check finds a staged copy mismatch and blocks the next commit. -/
  | stagedParityMismatch (off : Fin 0x80000)
  /-- CLEAR_ON_READ (R488). A read that returns a clear-on-read field reduces its count by the value returned. -/
  | clearOnRead (m : Master) (b : Bar) (off : Fin 0x200000) (a : Option Part)
  /-- REGISTER_WRITE (R15). A write to a register with no row of its own acts by its field access types. -/
  | registerWrite (m : Master) (b : Bar) (off : Fin 0x200000) (w : Option Wr)
  /-- HOST_LINK_UP (R48). A host port link finishes training and comes up, so the port's physical function can again be the owner function. -/
  | hostLinkUp (p : Fin 4)
  /-- PCIE_CONFIG_WRITE (R520). The host writes configuration space of a function, such as bus master enable, BAR addresses, NumVFs raised or VF Enable set. -/
  | pcieConfigWrite (f : FnId) (c : CfgWr)
  /-- FLIT_SEND (R337). At each flit time a fabric port's transmitter chooses a replayed, Nib, continuing, new or IDLE flit, charges credits and frames it. -/
  | flitSend (p : Fin 64)
  /-- SLOT_VERIFY_DONE (R443). The read-only memory finishes verifying a board-flash slot and starts the firmware, tries the other slot, or writes BOOT_FAILS and resets. -/
  | slotVerifyDone
  /-- INTERNAL_RESET_RELEASE (R507). After a brown-out or loss of MGMT_XO, the supplies or the clock have been back for 1 ms and the internally held power-on reset is released and boot begins. -/
  | internalResetRelease (role bootSrc : BitVec 2) (recovery : Bool)
  /-- MTR_FW_VERIFY_DONE (R405). The island finishes checking a staged firmware image's signature and version and stages it for activation or rejects it with FW_REJECTED. -/
  | mtrFwVerifyDone (sig : List Byte) (version : Word32)
  /-- UPSTREAM_TIMEOUT (R355). The upstream delivers no heartbeat for 3 ms and is dropped. -/
  | upstreamTimeout
  /-- HEARTBEAT_TIMER (R365). Every 1 ms the active manager floods a HEARTBEAT. -/
  | heartbeatTimer
  /-- MANAGER_LISTEN_END (R365). The 5 ms listen after entering Manager mode ends and the device becomes active or standby. -/
  | managerListenEnd
  /-- TAKEOVER (R367). A standby misses heartbeats for its timeout and becomes active with a new term. -/
  | takeover
  /-- LEASE_TIMEOUT (R371). No heartbeat arrives for LEASE_TO and the mode lease lapses. -/
  | leaseTimeout
  /-- PPS_IN_EDGE (R369). A PPS_IN rising edge captures the counter and the root corrects its time. -/
  | ppsInEdge
  /-- TALLY_TAP_DELIVERY (R382). A tally tap delivers increments and a state beat to the island. -/
  | tallyTapDelivery (tap : Fin 8)
  /-- TAP_SILENCE (R397). A tap delivers nothing for 10 ms and the island holds with cause TAP. -/
  | tapSilence (tap : Fin 8)
  /-- METER_SAMPLE (R388). At each island millisecond the sampled quantities are taken. -/
  | meterSample
  /-- MINUTE_BOUNDARY (R391). At an island minute boundary the open block closes or is extended under FULL. -/
  | minuteBoundary
  /-- BLOCK_SIGNED (R392). The island finishes signing a closed block, which becomes readable. -/
  | blockSigned
  /-- FLASH_WRITE_DONE (R393). A block write to the sealed flash ends, or fails and holds the island. -/
  | flashWriteDone (ok : Bool)
  /-- SEAL_SAMPLE (R402). The seal pin sample completes 20 stable samples and the seal state changes. -/
  | sealSample (opened : Bool)
  /-- ISLAND_POWER_UP (R385). The island powers up with time unset and restores its parameters. -/
  | islandPowerUp (sealOpen : Bool)
  /-- GET_VERSION (R455). SPDM request answered with the supported version. -/
  | getVersion (p : Fin 4)
  /-- GET_CAPABILITIES (R455). SPDM request answered with the responder capabilities. -/
  | getCapabilities (p : Fin 4)
  /-- NEGOTIATE_ALGORITHMS (R455). SPDM request answered with the algorithms in use. -/
  | negotiateAlgorithms (p : Fin 4)
  /-- GET_DIGESTS (R455). SPDM request answered with certificate chain digests. -/
  | getDigests (p : Fin 4)
  /-- GET_CERTIFICATE (R455). SPDM request answered with the identity certificate chain. -/
  | getCertificate (p : Fin 4) (slot : Fin 8) (off len : Word16)
  /-- CHALLENGE (R455). SPDM request answered with a signed CHALLENGE_AUTH. -/
  | challenge (p : Fin 4) (req : List Byte)
  /-- GET_MEASUREMENTS (R455). SPDM request answered with signed measurement blocks. -/
  | getMeasurements (p : Fin 4) (req : List Byte)
  /-- SPDM_UNSUPPORTED_REQUEST (R455). Any other SPDM request is answered with ERROR UnsupportedRequest. -/
  | spdmUnsupportedRequest (p : Fin 4)
  /-- SUPPLY_BROWNOUT (R507). A supply stays below its trip level for 5 µs and power-on reset is held. -/
  | supplyBrownout
  /-- MGMT_XO_LOSS (R508). MGMT_XO is missing for 10 µs and power-on reset is asserted. -/
  | mgmtXoLoss
  /-- REFCLK_FAB_LOSS (R508). A fabric reference clock is lost and its sixteen ports go down. -/
  | refclkFabLoss (q : Fin 4)
  /-- BYPASS (R511). JTAG instruction BYPASS. -/
  | bypass
  /-- IDCODE (R511). JTAG instruction IDCODE, which returns the identification code. -/
  | idcode
  /-- SAMPLE_PRELOAD (R511). JTAG instruction SAMPLE/PRELOAD. -/
  | samplePreload
  /-- EXTEST (R511). JTAG instruction EXTEST, effective only while SYS_RST_N is low. -/
  | extest (rstLow : Bool)
  /-- EXTEST_PULSE (R511). JTAG instruction EXTEST_PULSE over the AC-coupled lanes. -/
  | extestPulse (rstLow : Bool)
  /-- EXTEST_TRAIN (R511). JTAG instruction EXTEST_TRAIN over the AC-coupled lanes. -/
  | extestTrain (rstLow : Bool)
  /-- CLAMP (R511). JTAG instruction CLAMP. -/
  | clamp (rstLow : Bool)
  /-- HIGHZ (R511). JTAG instruction HIGHZ. -/
  | highz (rstLow : Bool)
  /-- SMB_READ_TJ_MAX (R512). SMBus command 0x01 returns the hottest junction temperature. -/
  | smbReadTjMax
  /-- SMB_READ_HBM0_TEMP (R512). SMBus command 0x02 returns the HBM0 case temperature. -/
  | smbReadHbm0Temp
  /-- SMB_READ_HBM1_TEMP (R512). SMBus command 0x03 returns the HBM1 case temperature. -/
  | smbReadHbm1Temp
  /-- SMB_READ_STATUS (R512). SMBus command 0x04 returns mode, fault, thermal, throttle and meter status. -/
  | smbReadStatus
  /-- SMB_READ_VDD_REQ (R512). SMBus command 0x05 returns the requested core voltage. -/
  | smbReadVddReq
  /-- SMB_READ_PACE (R512). SMBus command 0x06 returns the current pace. -/
  | smbReadPace
  /-- SMB_READ_UNIT_ID (R512). SMBus command 0x10 returns UNIT_ID. -/
  | smbReadUnitId
  /-- SMB_WRITE (R512). An SMBus write is refused with a NACK. -/
  | smbWrite
  /-- INK_CHECKPOINT_DONE (R475). A checkpoint ends and the segment header is written and recording starts. -/
  | inkCheckpointDone
  /-- INK_SEGMENT_FULL (R476). A segment fills and the next begins with a checkpoint, or recording stops. -/
  | inkSegmentFull (x : SegEnd)
  /-- INK_POST_TRIGGER_END (R476). POST_MIB MiB have been recorded after the trigger and recording stops. -/
  | inkPostTriggerEnd
  /-- INK_TRANSFER_DONE (R478). A recording transfer finishes. -/
  | inkTransferDone (segs : List (List Byte))
  /-- INK_REPLAY_DONE (R479). Replay ends with MATCH, DIVERGED or DAMAGED. -/
  | inkReplayDone (r : InkEnd)
deriving DecidableEq, Repr

end Sys2Proof
end

