-- ==== Sys2Proof/Decode.lean ====
section
/-!
DEFINITION. Reading a command from a table word. The opcode table of this device gives no row any bits: its commands are
register accesses, packets, frames and events, not words. So no word spells one.
-/
namespace Sys2Proof

/-- The command a table word spells: none, since the table gives no row bits. (DESIGN CHOICE, log entry 18) -/
def decodeTableWord (_nbits _w : Nat) : Option Instr := none

end Sys2Proof
end

