-- ==== Sys2Proof/Config.lean ====
section
/-!
DEFINITION. The free values: what the specification leaves open and the device still produces. Opaque constants,
so that no proof can rest on a value of them (log entry 3).
-/
namespace Sys2Proof.Config

/-- The n-th free 64-bit value: a result the specification does not state. -/
opaque freeWord : Nat → Word64

/-- The n-th free list of bytes: a response body the specification does not lay out. -/
opaque freeBytes : Nat → List Byte

/-- The 8 k bits of a word as k bytes, lowest first. -/
def octets (k : Nat) (v : Nat) : List Byte := (List.range k).map fun i => BitVec.ofNat 8 (v / 256 ^ i)

/-- SHA-512 of a message (R404, R441), as the 512 bits of its digest: the function is outside the specification's text.
(DESIGN CHOICE, log entry 16) -/
opaque sha512Bits : List Byte → BitVec 512

/-- The 64 bytes of a SHA-512 digest. -/
def sha512 (m : List Byte) : List Byte := octets 64 (sha512Bits m).toNat

/-- RSASSA-PSS verification with RSA-4096 and SHA-512 (R441): key, message, signature. -/
opaque rsaVerify : List Byte → List Byte → List Byte → Bool

/-- RSASSA-PSS signature with RSA-4096 under a key the device holds (R392, R455): key number, message. -/
opaque rsaSignBits : Nat → List Byte → BitVec 4096

/-- The 512 bytes of a signature. -/
def rsaSign (key : Nat) (m : List Byte) : List Byte := octets 512 (rsaSignBits key m).toNat

/-- HBM bytes of the function partition that a function's connections, match contexts, regions and queues take
(R52, R486): the specification gives no sizes. (DESIGN CHOICE, log entry 17) -/
opaque hbmBytes : Nat → Nat → Nat → Nat → BitVec 36

/-- Bytes of backing area that a function's connections and held flagged packets take (R155), beside those of its match
contexts (R186): their layout is no part of the interface (R118). -/
opaque backingBytes : Nat → Nat → Word64

end Sys2Proof.Config
end

