-- ==== Sys2Proof/Machine/State.lean ====
section
/-!
DEFINITION. The state of the device as plain data: everything the specification gives it, the same again as the
mirrors last sampled it, and the queue of waiting commands. Beside each field stand its width, the rule that names
it and, in INVENTORY.md, its reset value.
-/
namespace Sys2Proof.Machine

open Sys2Proof

/-- A sparse table: pairs of a key and a value, keys strictly rising. -/
abbrev Tbl (α : Type) := List (Nat × α)

/-- A counter that a read clears (R488): what the last tick sampled, and what has been counted since. -/
structure CorCnt where
  sampled : Nat := 0
  since   : Nat := 0
deriving DecidableEq, Repr

/-- The rights an access may need (R88). -/
inductive Right where
  | localRead | localWrite | remoteRead | remoteWrite | remoteAtomic
deriving DecidableEq, Repr

/-- What an operation of a connection is (R124 to R127, R167, R179). -/
inductive OpKind where
  | put | putFlag | get | atomic | sendEager | sendRts | finish
deriving DecidableEq, Repr

/-- Connection states (R115). -/
inductive ConnSt where
  | active | error | parked
deriving DecidableEq, Repr

/-- Match-context states (R164). -/
inductive MctxSt where
  | active | parked | lost
deriving DecidableEq, Repr

/-- Message-record states (R176). -/
inductive RecSt where
  | pending | matched | unexpected
deriving DecidableEq, Repr

/-- Parking of a function (R156 to R158). -/
inductive ParkSt where
  | no | parking | parked | unparking
deriving DecidableEq, Repr

/-- Routing bank states (R256). -/
inductive BankSt where
  | idle | armed | retiring
deriving DecidableEq, Repr

/-- Fabric port states (R304). -/
inductive PortSt where
  | disabled | training | nibOnly | up | retraining | down
deriving DecidableEq, Repr

/-- Where boot stands (R443): verifying a slot (true: B) with the slots still to try after it; starting the firmware;
running; in Recovery; waiting for an image over a service port (R446); power-on reset held internally (R507). -/
inductive BootPh where
  | verify (slot : Bool) (rest : List Bool)
  | starting | running | recovery | service | held
deriving DecidableEq, Repr

/-- Test access port instructions (R511). -/
inductive JtagIr where
  | bypass | idcode | samplePreload | extest | extestPulse | extestTrain | clamp | highz
deriving DecidableEq, Repr

/-- What an access does once every page of it is translated. -/
inductive Cont where
  /-- read the payload of the packet with this sequence number (R123, R146) -/
  | txPayload (conn : Nat) (psn : Psn)
  /-- read the payload of a NOTE (R127) -/
  | noteRead (sq : Nat) (cnt : Word32) (d : Desc)
  /-- place an arriving PUT, PUT_FLAG or matched SEND packet (R132, R177) -/
  | place (conn : Nat) (p : Packet)
  /-- read a GET's bytes at its target: the whole range is translated first, then each read fetches one GET_RESP's worth from an
  offset (R105, R125) -/
  | getRead (conn : Nat) (p : Packet) (off : Nat)
  /-- translate the range of a duplicate GET_REQ, whose data is read and sent again (R134) -/
  | dupRead (conn : Nat) (p : Packet)
  /-- read the word of an ATOMIC at its target (R126) -/
  | atomRead (conn : Nat) (p : Packet)
  /-- place an arriving GET_RESP (R125) -/
  | getPlace (conn : Nat) (msn : Psn) (off : Nat) (data : List Byte) (det : Bool)
  /-- write an ATOMIC's prior value to RESULT_VA (R126) -/
  | atomResult (conn : Nat) (msn : Psn) (val : Word64)
  /-- copy staged bytes of a message record into its receive buffer (R177) -/
  | copy (rec : Nat) (off : Nat) (data : List Byte) (det : Bool)
  /-- place a matched NOTE on its arrival (R177) -/
  | notePlace (rec : Nat) (data : List Byte)
  /-- read a member's contribution to one chunk of an operation (R213) -/
  | collRead (tree opn chunk : Nat)
  /-- place one result chunk of an operation at a member (R214) -/
  | collPlace (tree opn chunk : Nat) (data : List Byte) (flags : Byte)
deriving DecidableEq, Repr

/-- An access on its way through translation, page by page (R89, R96). -/
structure Access where
  fn    : FnId := {}
  key   : Word32 := 0
  va    : Nat := 0
  len   : Nat := 0
  right : Right := .localRead
  sq    : Nat := 0
  conn  : Nat := 0
  cont  : Cont := .txPayload 0 0
  /-- the first three checks of R89 are passed, else they are made at its first lookup; ASN and NO_MARKS of the region then -/
  checked : Bool := false
  asn   : Nat := 0
  noMarks : Bool := false
  /-- bytes translated so far -/
  pos   : Nat := 0
  /-- host address ranges found so far, in order -/
  segs  : List (Nat × Nat) := []
  /-- the model's number for the access, from its asking to its end -/
  id    : Nat := 0
deriving DecidableEq, Repr

/-- What a host read is for (R83). -/
inductive Purpose where
  | walk (id : Nat)
  | payload (a : Access)
deriving DecidableEq, Repr

/-- A packet waiting for admission by its shaped class (R332). -/
structure TxItem where
  fn    : FnId := {}
  pkt   : Packet := {}
  /-- the connection it belongs to -/
  conn  : Nat := 0
  /-- bytes still to be charged to the source window when the shaper admits it (R252, R332) -/
  charge : Nat := 0
  /-- a NOTE: its submission queue, ring count and descriptor (R335) -/
  note  : Option (Nat × Word32 × Desc) := none
  /-- a member's contribution: the read made when it is admitted (R330) -/
  coll  : Option Access := none
deriving DecidableEq, Repr

/-- A COLL of a member, from its start to its completion (R205). -/
structure CollReq where
  fn    : FnId := {}
  sq    : Nat := 0
  cnt   : Word32 := 0
  cq    : Nat := 0
  cls   : Nat := 0
  desc  : Desc := {}
  opn   : Nat := 0
  epoch : Bool := false
  flags : Byte := 0
  /-- chunks of the result placed -/
  placed : List Nat := []
  /-- bytes of the result placed -/
  bytes : Nat := 0
  /-- chunks of the send buffer whose read has been asked for -/
  reads : Nat := 0
  allPlaced : Bool := false
deriving DecidableEq, Repr

/-- SPDM requests (R455). -/
inductive SpdmReq where
  | getVersion | getCapabilities | negotiateAlgorithms | getDigests | getCertificate | challenge | getMeasurements
  /-- any other, answered with ERROR UnsupportedRequest -/
  | unsupported
deriving DecidableEq, Repr

/-- What a recorded operation is known by (R474): a started descriptor, a packet of a connection, or any other packet. -/
inductive InkKey where
  | work (fn : FnId) (sq : Nat) (cnt : Word32)
  | conn (n : Nat)
  | once
deriving DecidableEq, Repr

/-- A record of a recording (R473): its stream, time-stamp counter bits [33:2] and payload. -/
structure InkRec where
  kind : Nat := 0
  time : Word32 := 0
  data : List Byte := []
deriving DecidableEq, Repr

/-- What the device sends to the world outside it, in the order it sends it. -/
inductive Out where
  /-- a posted write to host memory: port, half (R45), address, bytes, Relaxed Ordering attribute -/
  | hostWrite (port : Fin 4) (half : Bool) (addr : Nat) (data : List Byte) (relaxed : Bool)
  /-- a read of host memory, named by the model's number for it -/
  | hostRead (id : Nat) (port : Fin 4) (half : Bool) (segs : List (Nat × Nat))
  /-- an MSI-X interrupt of a function -/
  | msix (fn : FnId) (vec : Nat)
  /-- an access of the host's completed with Unsupported Request status (R13) -/
  | unsupported (port : Fin 4)
  /-- an Advanced Error Reporting message: the function, and the Uncorrectable Error Status bit (R83) -/
  | aer (fn : FnId) (bit : Nat)
  /-- a flit sent on a fabric port (R287) -/
  | flit (port : Nat) (f : Flit)
  /-- the trailer of a link frame (R281, R283) -/
  | trailer (port : Nat) (t : Trailer)
  /-- what a transmit lane of a port sends for one frame: PAM4 levels, in NRZ 0 and 3 only (R278, R282) -/
  | lane (port lane : Nat) (levels : List (Fin 4))
  /-- a service frame sent on a service port (R351) -/
  | frame (port : Nat) (f : Frame)
  /-- the ten-bit symbols of what a service port sends (R348) -/
  | symbols (port : Nat) (syms : List Nat)
  /-- a service transmitter switches speed (R350) -/
  | svcSpeed (port speed : Nat)
  /-- a register value returned to a reader (R13) -/
  | readData (data : Word64)
  /-- an AVSBus voltage request, in mV (R37) -/
  | avs (mv : Nat)
  /-- PMBus to the core regulator: STATUS_WORD is read, and CLEAR_FAULTS sent where set (R513) -/
  | pmbus (clear : Bool)
  /-- the answer to an SPDM request on a port's mailbox, and its bytes (R455) -/
  | spdm (port : Fin 4) (req : SpdmReq) (body : List Byte)
  /-- SMBus data returned, and the PEC byte for a host that reads one more (R512) -/
  | smbus (data : List Byte) (pec : Byte)
  /-- an SMBus write refused (R512) -/
  | smbusNack
  /-- the test data register shifted out: an identification code (R511) -/
  | jtagId (code : Word32)
  /-- a function-partition block or a recording page moved to a host buffer (R156, R478) -/
  | hostCopy (port : Fin 4) (addr bytes : Nat)
  /-- Inkwell's copy between the owner function's port and a recording (R478): import, first page, host address, bytes; of an
  export, what was recorded there, by its distance from the first page -/
  | inkCopy (port : Fin 4) (imp : Bool) (page addr bytes : Nat) (data : List (Nat × List Byte))
  /-- a parked function's backing area is read back into HBM (R158) -/
  | hostLoad (port : Fin 4) (addr : Nat)
  /-- Quill restarts from read-only memory (R414) -/
  | quillRestart
deriving DecidableEq, Repr

/-- Management time base. -/
structure Clk where
  /-- management-clock time in ns since power-on reset (the model's own measure of elapsed time) (R40). The model's own (log 2). -/
  now : Nat := 0
  /-- management ticks closed so far (R40). The model's own (log 2). -/
  ticks : Nat := 0
  /-- time-stamp counter (R41). -/
  tsc : Word64 := 0
  /-- increments still to be skipped to absorb a backward correction (R41). The model's own (log 2). -/
  debt : Nat := 0
  /-- clock cycles since an increment was last skipped, saturating at 3 (R41). The model's own (log 2). -/
  phase : Nat := 0
deriving DecidableEq, Repr

/-- One-time-programmable fuses. -/
structure Fuse where
  /-- DEV_ID.METER (fuse): true is KZA-6404-M (R485). Reset: DESIGN CHOICE (log 1). -/
  meter : Bool := true
  /-- UNIT_ID (fuse), never 0 (R485). Reset: DESIGN CHOICE (log 1). -/
  unitId : Word64 := 1
  /-- anti-rollback fuse count (SVN_FUSE) (R452). Reset: DESIGN CHOICE (log 1). -/
  svn : Nat := 0
  /-- KEY0_REVOKED (fuse) (R458). Reset: DESIGN CHOICE (log 1). -/
  key0Revoked : Bool := false
  /-- MTR_ID.TYPE_ID (fuse) (R408). Reset: DESIGN CHOICE (log 1). -/
  typeId : Word32 := 0
  /-- CAL_FAC_MTR_TRIM (fuse) (R387). Reset: DESIGN CHOICE (log 1). -/
  mtrTrim : BitVec 20 := 0
  /-- island anti-rollback fuse count (R405). Reset: DESIGN CHOICE (log 1). -/
  mtrSvn : Nat := 0
  /-- CAL_FAC_* by block offset (absent reads 0) (R459). Reset: DESIGN CHOICE (log 1). -/
  calFac : Tbl Word64 := []
deriving DecidableEq, Repr

/-- Sampled straps. -/
structure Strap where
  /-- ROLE_SEL as sampled at power-on reset (R435). Reset: DESIGN CHOICE (log 1). -/
  role : BitVec 2 := 0
  /-- BOOT_SRC as sampled at power-on reset (R435). Reset: DESIGN CHOICE (log 1). -/
  bootSrc : BitVec 2 := 0
  /-- RECOVERY_N was low at the last boot (R435). Reset: DESIGN CHOICE (log 1). -/
  recovery : Bool := false
deriving DecidableEq, Repr

/-- PCI Express configuration registers of a function. -/
structure Pci where
  /-- power state: D3hot (R44). Reset: PRESUMED (log 127). -/
  d3 : Bool := false
  /-- maximum payload size (R44). Reset: PRESUMED (log 127). -/
  mps : Nat := 128
  /-- maximum read request size (R44). Reset: PRESUMED (log 127). -/
  mrrs : Nat := 512
  /-- Uncorrectable Error Status (R83). Reset: PRESUMED (log 127). -/
  aerStatus : Word32 := 0
  /-- Uncorrectable Error Mask (R83). Reset: PRESUMED (log 127). -/
  aerMask : Word32 := 0
deriving DecidableEq, Repr

/-- One host port HPn. -/
structure HostPort where
  /-- the port's link is up (R48). Reset: DESIGN CHOICE (log 1). -/
  linkUp : Bool := false
  /-- bifurcated into HPn.0 and HPn.1 (read from board flash) (R45). -/
  bifurcated : Bool := false
  /-- VF Enable of the SR-IOV capability (R520). -/
  vfEnable : Bool := false
  /-- NumVFs of the SR-IOV capability (R520). -/
  numVfs : Nat := 0
  /-- BAR0, BAR2, BAR4 addresses the host has written (key 0, 2, 4) (R100). -/
  barPf : Tbl Word64 := []
  /-- VF BAR0, BAR2, BAR4 addresses the host has written (R100). -/
  barVf : Tbl Word64 := []
  /-- bus master enable of the link companion HPn.1 (R45). -/
  compBm : Bool := false
  /-- configuration registers of the link companion HPn.1 (R45). -/
  comp : Pci := {}
deriving DecidableEq, Repr

/-- Quotas of a virtual function (none: no cap). -/
structure Quota where
  /-- submission queues (R52). Reset: DESIGN CHOICE (log 1). -/
  sq : Option Nat := none
  /-- completion queues (R52). Reset: DESIGN CHOICE (log 1). -/
  cq : Option Nat := none
  /-- event queues (R52). Reset: DESIGN CHOICE (log 1). -/
  eq : Option Nat := none
  /-- connections (R52). Reset: DESIGN CHOICE (log 1). -/
  conn : Option Nat := none
  /-- match contexts (R52). Reset: DESIGN CHOICE (log 1). -/
  mctx : Option Nat := none
  /-- regions (R52). Reset: DESIGN CHOICE (log 1). -/
  region : Option Nat := none
  /-- HBM bytes (R52). Reset: DESIGN CHOICE (log 1). -/
  hbm : Option Nat := none
deriving DecidableEq, Repr

/-- A descriptor copied from a submission ring and not yet started. -/
structure Fetched where
  /-- its ring count (R66). -/
  cnt : Word32 := 0
  /-- the 64 bytes fetched (R72). -/
  d : Desc := {}
  /-- time-stamp counter at the fetch (R471). -/
  t0 : Word64 := 0
  /-- time-stamp counter when its doorbell was accepted (R471). -/
  tdb : Word64 := 0
deriving DecidableEq, Repr

/-- Submission queue. -/
structure Sq where
  /-- ring address (R62). -/
  ring : Word64 := 0
  /-- write-back address (R62). -/
  wb : Word64 := 0
  /-- LOG2_SIZE (R62). -/
  log2 : Nat := 4
  /-- shaped class (R330). -/
  cls : Nat := 0
  /-- completion queue (R62). -/
  cq : Nat := 0
  /-- LINK (R62). -/
  link : Bool := false
  /-- last accepted producer count P (R65). -/
  p : Word32 := 0
  /-- consumed count C (R65). -/
  c : Word32 := 0
  /-- count last written back (R66). -/
  lastWb : Word32 := 0
  /-- halt reason (R79). -/
  halted : Option Status := none
  /-- fetched, not yet started, in ring order (R66). -/
  fetched : List Fetched := []
  /-- started and not completed, in ring order (R73). -/
  inflight : List Fetched := []
  /-- accepted producer counts beyond C, with the times of their doorbells (R471). -/
  dbT : List (Word32 × Word64) := []
deriving DecidableEq, Repr

/-- Completion queue. -/
structure Cq where
  /-- ring address (R62). -/
  ring : Word64 := 0
  /-- LOG2_SIZE (R62). -/
  log2 : Nat := 4
  /-- MSI-X vector (R62). -/
  vec : Nat := 0
  /-- COAL_COUNT (R69). -/
  coalCount : Nat := 0
  /-- COAL_TIME in ticks (R69). -/
  coalTime : Nat := 0
  /-- STALL_TIMEOUT in ticks (R62). -/
  stallTo : Nat := 1953
  /-- IEN (R69). -/
  ien : Bool := false
  /-- LINK (R62). -/
  link : Bool := false
  /-- written count (R68). -/
  w : Word32 := 0
  /-- count returned by the host (R68). -/
  h : Word32 := 0
  /-- an interrupt is requested for the next entry (R69). -/
  arm : Bool := false
  /-- entries pending an interrupt (R69). -/
  pend : Nat := 0
  /-- completion buffer, in order of completion (true: ends an operation in flight) (R77). -/
  buf : List (Bool × Cqe) := []
  /-- operations in flight towards the queue (R77). -/
  inflight : Nat := 0
  /-- the stall timeout has run out for this filling (R78). -/
  stalled : Bool := false
  /-- CQ_STALLED was posted for this filling (R78). -/
  stallPosted : Bool := false
deriving DecidableEq, Repr

/-- Event queue. -/
structure Eq where
  /-- ring address (R62). -/
  ring : Word64 := 0
  /-- LOG2_SIZE (R62). -/
  log2 : Nat := 4
  /-- MSI-X vector (R62). -/
  vec : Nat := 0
  /-- IEN (R62). -/
  ien : Bool := false
  /-- LINK (R62). -/
  link : Bool := false
  /-- written count (R68). -/
  w : Word32 := 0
  /-- count returned by the host (R68). -/
  h : Word32 := 0
  /-- an interrupt is requested for the next entry (R69). -/
  arm : Bool := false
  /-- an event was merged since the queue filled (R76). -/
  missed : Bool := false
deriving DecidableEq, Repr

/-- A trap slot in use. -/
structure Trap where
  /-- address space (R104). -/
  asn : Nat := 0
  /-- page number (VA / 4 KiB at the page's own size) (R104). -/
  page : Nat := 0
  /-- leaf level: 1 4 KiB, 2 2 MiB, 3 1 GiB (R106). -/
  level : Nat := 1
  /-- the missing mark: false accessed, true dirty (R104). -/
  dirty : Bool := false
  /-- it has refused a remote packet, so later ones for the page are refused (R105). -/
  remote : Bool := false
  /-- suspended local accesses (R105). -/
  waiters : List Access := []
deriving DecidableEq, Repr

/-- A local access that waits for a free trap slot. -/
structure TrapWait where
  /-- the access (R104). -/
  acc : Access := {}
  /-- level of the leaf that lacks the mark (R104). -/
  level : Nat := 1
  /-- its page number (R104). -/
  page : Nat := 0
  /-- the missing mark: false accessed, true dirty (R104). -/
  dirty : Bool := false
deriving DecidableEq, Repr

/-- Token bucket of a shaper or policer. -/
structure Bucket where
  /-- RATE in Mb/s (R331). -/
  rate : Nat := 0
  /-- BURST in KiB (R331). -/
  burst : Nat := 0
  /-- T in 1/1,000 byte (R331). -/
  t : Int := 0
deriving DecidableEq, Repr

/-- A function's membership of a tree. -/
structure Member where
  /-- COLLs started since JOIN_TREE (OPN counter) (R205). -/
  started : Nat := 0
  /-- the operation in progress (R205). -/
  cur : Option CollReq := none
  /-- COLLs waiting for it (R205). -/
  waitQ : List CollReq := []
deriving DecidableEq, Repr

/-- An admin command carried out whose completion comes later. -/
structure AdmWait where
  /-- CMD_ID (R60). -/
  cmdId : Word16 := 0
  /-- admin opcode (R61). -/
  op : Nat := 0
  /-- the function acted on (R59). -/
  target : FnId := {}
  /-- the command's own entry (R59). -/
  arg : Desc := {}
  /-- accesses past their key check, and not ended, when its step ran (R110). -/
  ids : List Nat := []
deriving DecidableEq, Repr

/-- One function. -/
structure Fn where
  /-- tenant domain (R50). -/
  domain : Dom := 0
  /-- quotas set by the physical function (R52). -/
  quota : Quota := {}
  /-- bus master enable (R48). -/
  busMaster : Bool := false
  /-- its PCI Express configuration registers (R44). -/
  pci : Pci := {}
  /-- MSI-X Enable (R44). Reset: PRESUMED (log 127). -/
  msixEn : Bool := false
  /-- MSI-X Function Mask (R44). Reset: PRESUMED (log 127). -/
  msixMask : Bool := false
  /-- AQ_BASE (R56). -/
  aqBase : Word64 := 0
  /-- AQ_CFG.ENABLE (R56). -/
  aqEnable : Bool := false
  /-- AQ_CFG.HALTED and HALT_REASON (R56). -/
  aqHalted : Option Status := none
  /-- AQ_CFG.LOG2_SIZE (R56). -/
  aqLog2 : Nat := 4
  /-- ACQ_BASE (R56). -/
  acqBase : Word64 := 0
  /-- ACQ_CFG.ENABLE (R56). -/
  acqEnable : Bool := false
  /-- ACQ_CFG.IEN (R56). -/
  acqIen : Bool := false
  /-- ACQ_CFG.VEC (R56). -/
  acqVec : Nat := 0
  /-- ACQ_CFG.LOG2_SIZE (R56). -/
  acqLog2 : Nat := 4
  /-- AQ_WB (R56). -/
  aqWb : Word64 := 0
  /-- admin producer count P (R65). -/
  aqP : Word32 := 0
  /-- admin consumed count C (R65). -/
  aqC : Word32 := 0
  /-- admin count last written back (R66). -/
  aqLastWb : Word32 := 0
  /-- admin completion ring written count (R68). -/
  acqW : Word32 := 0
  /-- admin completion ring count returned by the host (R68). -/
  acqH : Word32 := 0
  /-- ARM of the admin completion ring (R64). -/
  acqArm : Bool := false
  /-- admin completion slot (held completions) (R58). -/
  acqSlot : List Cqe := []
  /-- the command whose effect takes time (R60). -/
  admWait : Option AdmWait := none
  /-- admin descriptors fetched and not yet executed (R60). -/
  admFetched : List Desc := []
  /-- FN_STAT.CLASS (R55). -/
  statClass : BitVec 7 := 0
  /-- FN_STAT.MERGED (R55). -/
  statMerged : BitVec 16 := 0
  /-- classes set in the current management tick (R16). The model's own (log 2). -/
  statNew : BitVec 7 := 0
  /-- FN_CTL.ERR_EN (R55). -/
  errEn : Bool := false
  /-- FN_CTL.ERR_VEC (R55). -/
  errVec : Nat := 0
  /-- FN_DB_DROP.COUNT (R55). -/
  dbDrop : BitVec 48 := 0
  /-- FN_DOMAIN_DROP.COUNT (R55). -/
  domDrop : BitVec 48 := 0
  /-- MSI-X table words, by index from BAR4 offset 0 (absent: 0, each vector masked) (R53). Reset: DESIGN CHOICE (log 1). -/
  msix : Tbl Word64 := []
  /-- pending-bit array (R53). -/
  pba : BitVec 2048 := 0
  /-- submission queues (R54). -/
  sqs : Tbl Sq := []
  /-- completion queues (R54). -/
  cqs : Tbl Cq := []
  /-- event queues (R54). -/
  eqs : Tbl Eq := []
  /-- event class to event queue (R76). -/
  subs : Tbl Nat := []
  /-- its block 1 registers are fenced (R490). -/
  fenced : Bool := false
  /-- in a function-level reset (R81). -/
  inFlr : Bool := false
  /-- parking state (R155). -/
  park : ParkSt := .no
  /-- BACKING address (R155). -/
  backing : Word64 := 0
  /-- table roots by ASN (R92). -/
  roots : Tbl Word64 := []
  /-- trap slots in use (R104). -/
  traps : Tbl Trap := []
  /-- local accesses waiting for a free slot, in order of trapping (R104). -/
  trapQ : List TrapWait := []
  /-- (ASN, leaf level, page) whose next retried remote packet is refused (R107). -/
  aborted : List (Nat × Nat × Nat) := []
  /-- enabled shaped classes (R330). -/
  shapers : Tbl Bucket := []
  /-- packets waiting at each class's admission point (R332). -/
  admPt : Tbl (List TxItem) := []
  /-- outbound policer (R335). -/
  polOut : Option Bucket := none
  /-- inbound policer (R335). -/
  polIn : Option Bucket := none
  /-- outbound drop count (R336). -/
  polOutDrop : BitVec 48 := 0
  /-- inbound drop count (R336). -/
  polInDrop : BitVec 48 := 0
  /-- tree memberships (R200). -/
  trees : Tbl Member := []
  /-- peers whose REMOTE_FUNC_RESET has been posted (R160). -/
  resetPeers : List Ep := []
deriving DecidableEq, Repr

/-- A registered region. -/
structure Region where
  /-- owning function (R88). -/
  fn : FnId := {}
  /-- generation of its key (R86). -/
  gen : Nat := 1
  /-- start (R90). -/
  va : Nat := 0
  /-- length (R90). -/
  len : Nat := 0
  /-- address space (R88). -/
  asn : Nat := 0
  /-- LOCAL_WRITE (R88). -/
  lw : Bool := false
  /-- REMOTE_READ (R88). -/
  rr : Bool := false
  /-- REMOTE_WRITE (R88). -/
  rw : Bool := false
  /-- REMOTE_ATOMIC (R88). -/
  ra : Bool := false
  /-- NO_MARKS (R90). -/
  noMarks : Bool := false
deriving DecidableEq, Repr

/-- A cached leaf translation. -/
structure Leaf where
  /-- tag: function (R97). -/
  fn : FnId := {}
  /-- tag: ASN (R97). -/
  asn : Nat := 0
  /-- page size (R92). -/
  level : Nat := 1
  /-- tag: VA / page size (R97). -/
  page : Nat := 0
  /-- page physical address (R93). -/
  addr : Nat := 0
  /-- W of the whole walk (R94). -/
  w : Bool := false
  /-- W of the levels above the leaf (R103). -/
  wUp : Bool := false
  /-- A as read (R93). -/
  a : Bool := false
  /-- D as read (R93). -/
  d : Bool := false
  /-- host address of the leaf entry (R103). -/
  ea : Nat := 0
deriving DecidableEq, Repr

/-- A walk-cache entry (non-leaf). -/
structure Node where
  /-- tag: function (R97). -/
  fn : FnId := {}
  /-- tag: ASN (R97). -/
  asn : Nat := 0
  /-- level of the entry (4, 3 or 2) (R97). -/
  level : Nat := 4
  /-- tag: VA prefix (R97). -/
  pfx : Nat := 0
  /-- next table address (R93). -/
  addr : Nat := 0
  /-- W of itself ANDed with every level above (R94). -/
  w : Bool := false
deriving DecidableEq, Repr

/-- A translation walk or mark re-read in progress. -/
structure Walk where
  /-- names its outstanding host read (R94). -/
  id : Nat := 0
  /-- the access it serves (R96). -/
  acc : Access := {}
  /-- level being read (re-read: level of the leaf) (R94). -/
  level : Nat := 4
  /-- W of the levels read so far (R94). -/
  w : Bool := true
  /-- address of the entry being read (R92). -/
  table : Nat := 0
  /-- non-leaf entries read, cached when the walk ends without error (R99). -/
  nodes : List Node := []
  /-- for a mark re-read: the cached leaf (R103). -/
  reread : Option Leaf := none
  /-- an INVALIDATE or a new root has removed what it started from: its answer caches nothing and the page is looked up afresh (R110). -/
  stale : Bool := false
deriving DecidableEq, Repr

/-- Memory regions and translation. -/
structure Xl where
  /-- registered regions by index (R86). -/
  regions : Tbl Region := []
  /-- generation last issued with each index (R87). -/
  lastGen : Tbl Nat := []
  /-- (tick, index) freed, oldest first (R87). -/
  freed : List (Nat × Nat) := []
  /-- lowest index never issued since device reset (R87). -/
  fresh : Nat := 0
  /-- lookaside buffer of each translation tile (R97). -/
  tlb : Tbl (List Leaf) := []
  /-- walk cache of each translation tile (R97). -/
  wcache : Tbl (List Node) := []
  /-- HBM translation cache, shared (R97). -/
  l2 : List Leaf := []
  /-- walks and re-reads in progress (R94). -/
  walks : List Walk := []
  /-- accesses whose lookup is still to be made (R96). The model's own (log 2). -/
  todo : List Access := []
  /-- accesses for contexts of a fenced slot, held by their senders (R189). -/
  heldAcc : List Access := []
  /-- answers to host reads for contexts of a fenced slot, held by their senders (none: the read failed) (R189). -/
  heldReads : List (Access × Option (List Byte)) := []
deriving DecidableEq, Repr

/-- A host read the device has issued. -/
structure ReadReq where
  /-- the model's name for the read (R83). The model's own (log 2). -/
  id : Nat := 0
  /-- function it is made for (R83). -/
  fn : FnId := {}
  /-- false HPn.0, true HPn.1 (R45). -/
  half : Bool := false
  /-- address (R83). -/
  addr : Nat := 0
  /-- bytes (R83). -/
  len : Nat := 0
  /-- purpose (R83). -/
  why : Purpose := .walk 0
deriving DecidableEq, Repr

/-- An operation of a connection, initiator side. -/
structure Op where
  /-- what it is (R124). -/
  kind : OpKind := .put
  /-- message sequence number (R118). -/
  msn : Psn := 0
  /-- PSN of its first packet (R123). -/
  psn0 : Psn := 0
  /-- packets (PSNs) it takes (R123). -/
  npk : Nat := 1
  /-- packets sent for the first time (R123). -/
  sent : Nat := 0
  /-- function (R112). -/
  fn : FnId := {}
  /-- submission queue (R74). -/
  sq : Nat := 0
  /-- ring count of its descriptor (R73). -/
  cnt : Word32 := 0
  /-- shaped class (R330). -/
  cls : Nat := 0
  /-- completion queue of the connection (R112). -/
  cq : Nat := 0
  /-- its descriptor (R72). -/
  desc : Desc := {}
  /-- LENGTH (R123). -/
  len : Nat := 0
  /-- packets from this index on are VOID (R146). -/
  voidFrom : Option Nat := none
  /-- status it has failed with (R146). -/
  fail : Option Status := none
  /-- its response or rendezvous finish has arrived (R125). -/
  resp : Bool := false
  /-- byte ranges of GET data placed (R125). -/
  got : List (Nat × Nat) := []
  /-- accepted responses whose placement waits for translation (R125). -/
  placing : Nat := 0
  /-- finished with this status, completion not yet written (R128). -/
  finished : Option Status := none
  /-- its completion is written (R128). -/
  written : Bool := false
  /-- internal GET: the message record it serves (R179). -/
  serves : Option Nat := none
  /-- rendezvous finish: MSN of the request (R179). -/
  rtsMsn : Psn := 0
  /-- rendezvous finish: FIN_STATUS (R179). -/
  finStatus : Status := .success
  /-- bytes charged for a GET (R252). -/
  charge : Nat := 0
deriving DecidableEq, Repr

/-- A connection (512-byte context, and the packets held for it). -/
structure Conn where
  /-- owning function (R112). -/
  fn : FnId := {}
  /-- state (R115). -/
  st : ConnSt := .active
  /-- PEER (R118). -/
  peer : Ep := 0
  /-- PEER_CONN (R118). -/
  peerConn : Psn := 0
  /-- completion queue (R114). -/
  cq : Nat := 0
  /-- STRICT (R130). -/
  strict : Bool := false
  /-- TC (R114). -/
  tc : BitVec 3 := 0
  /-- RETRY_LIMIT (R114). -/
  retryLimit : Nat := 7
  /-- RNR_LIMIT (R114). -/
  rnrLimit : Nat := 0
  /-- RTO in 10 us (R114). -/
  rto : Nat := 100
  /-- RNR_MIN in 10 us (R114). -/
  rnrMin : Nat := 0
  /-- UNA (R118). -/
  una : Psn := 0
  /-- NEXT (R118). -/
  next : Psn := 0
  /-- PSN the next operation takes (R123). -/
  assign : Psn := 0
  /-- NEXT_MSN (R118). -/
  nextMsn : Psn := 0
  /-- retry count (R118). -/
  retries : Nat := 0
  /-- RNR count (R118). -/
  rnr : Nat := 0
  /-- last summary (R118). -/
  summary : Word64 := 0
  /-- outstanding operations in MSN order (R128). -/
  ops : List Op := []
  /-- RNR wait in progress, its length (R144). -/
  rnrWait : Option Nat := none
  /-- PSNs of the resend round still to be sent (R141). -/
  resendQ : List Psn := []
  /-- its next packet waits for its source window (R253). -/
  winWait : Bool := false
  /-- PSN whose payload read or translation is under way, and whether it is a resent copy's (R123). -/
  reading : Option (Psn × Bool) := none
  /-- bytes charged for each PSN not yet passed by UNA (R252). -/
  charged : List (Psn × Nat) := []
  /-- a resend round is stopped by a mark trap (R141). -/
  stopped : Bool := false
  /-- MSNs whose trapped responses wait for their slots (R105). -/
  respTraps : List Psn := []
  /-- BASE (R118). -/
  base : Psn := 0
  /-- accepted packets (R118). -/
  bitmap : BitVec 1024 := 0
  /-- executed packets (R132). -/
  exec : BitVec 1024 := 0
  /-- packets accepted and not yet passed by BASE (R132). -/
  acc : List Packet := []
  /-- PSNs of PUT_FLAG packets held until BASE reaches them (R133). -/
  held : List Psn := []
  /-- EXP_MSN (R118). -/
  expMsn : Psn := 0
  /-- BASE for which a NAK was sent (R130). -/
  nakFor : Option Psn := none
  /-- BASE carried by the last ACK (not NAK or RNR_NAK) (R137). -/
  lastAck : Psn := 0
  /-- an acceptance is not covered by an ACK, NAK or RNR_NAK (R137). -/
  ackDue : Bool := false
  /-- time of the last ACK from a duplicate (R134). -/
  dupAckAt : Option Nat := none
  /-- atomic response cache: PSN, prior value, and the value the word holds after it (R188) (R126). -/
  atoms : List (Psn × Word64 × Word64) := []
  /-- time of the last DEST_DOWN sent for it (R265). -/
  destDownAt : Option Nat := none
deriving DecidableEq, Repr

/-- Record of a released connection number. -/
structure Kept where
  /-- function that last held it (R147). -/
  fn : FnId := {}
  /-- PEER (R147). -/
  peer : Ep := 0
  /-- PEER_CONN (R147). -/
  peerConn : Psn := 0
  /-- released by a function-level reset (R147). -/
  byReset : Bool := false
  /-- time of release (R113). -/
  freed : Nat := 0
  /-- time of the last DEST_DOWN sent for it (R265). -/
  destDownAt : Option Nat := none
deriving DecidableEq, Repr

/-- The host write of an executed atomic, recorded with its new value. -/
structure AtomWrite where
  /-- function it is made for (R188). -/
  fn : FnId := {}
  /-- receiving connection (R188). -/
  conn : Nat := 0
  /-- PSN of the atomic (R188). -/
  psn : Psn := 0
  /-- half of the port it goes through (R45). -/
  half : Bool := false
  /-- host addresses of the word (R126). -/
  segs : List (Nat × Nat) := []
  /-- the new value (R188). -/
  val : Word64 := 0
deriving DecidableEq, Repr

/-- Transport. -/
structure Xpt where
  /-- connections by number (R113). -/
  conns : Tbl Conn := []
  /-- released numbers (R147). -/
  kept : Tbl Kept := []
  /-- contexts in the on-die cache, least recently used first (R152). -/
  onDie : List Nat := []
  /-- contexts being fetched from HBM (R153). -/
  fetching : List Nat := []
  /-- contexts being written out (true: to a host backing area) (R154). -/
  writing : List (Nat × Bool) := []
  /-- miss buffer (R153). -/
  miss : List (Nat × Packet) := []
  /-- host reads outstanding (R83). -/
  reads : List ReadReq := []
  /-- next read or record name (R83). The model's own (log 2). -/
  nextId : Nat := 0
  /-- atomics waiting for another atomic on the same word (R126). -/
  atomWait : List Access := []
  /-- writes of atomics issued and not yet acknowledged (R188). -/
  atomWrites : List AtomWrite := []
  /-- XPT_STAT.CRC_FAIL (R525). -/
  crcFail : CorCnt := {}
  /-- XPT_STAT.OUT_WINDOW (R525). -/
  outWindow : CorCnt := {}
  /-- XPT_STAT.SRC_MISMATCH (R525). -/
  srcMismatch : CorCnt := {}
  /-- XPT_STAT.STRAY (R525). -/
  stray : CorCnt := {}
deriving DecidableEq, Repr

/-- Posted-receive entry. -/
structure Posted where
  /-- when it was appended to its bin or list (R170). The model's own (log 2). -/
  app : Nat := 0
  /-- index of its entry (a free value) (R170). -/
  ix : Nat := 0
  /-- POST_SEQ (R170). -/
  seq : Nat := 0
  /-- TAG (R170). -/
  tag : Word64 := 0
  /-- IGNORE (R170). -/
  ignore : Word64 := 0
  /-- BUF_VA (R170). -/
  va : Word64 := 0
  /-- BUF_KEY (R170). -/
  key : Word32 := 0
  /-- LENGTH (R170). -/
  len : Nat := 0
  /-- SOURCE (R170). -/
  source : Ep := 0
  /-- ANY_SOURCE (R170). -/
  anySource : Bool := false
  /-- WILD (R170). -/
  wild : Bool := false
  /-- MCTX (R170). -/
  mctx : Nat := 0
  /-- function (R162). -/
  fn : FnId := {}
  /-- SQ (R170). -/
  sq : Nat := 0
  /-- ring count of its descriptor (R73). -/
  cnt : Word32 := 0
  /-- completion queue of SQ (R177). -/
  cq : Nat := 0
  /-- USER_CTX (R170). -/
  userCtx : Word64 := 0
deriving DecidableEq, Repr

/-- Message record, with its unexpected entry and staged bytes. -/
structure MsgRec where
  /-- the model's name for the record (R176). The model's own (log 2). -/
  id : Nat := 0
  /-- receiving connection (none for a NOTE) (R178). -/
  conn : Option Nat := none
  /-- receiving function (R162). -/
  fn : FnId := {}
  /-- MSN (R178). -/
  msn : Psn := 0
  /-- source endpoint (R178). -/
  src : Ep := 0
  /-- TAG (R178). -/
  tag : Word64 := 0
  /-- MCTX (R178). -/
  mctx : Nat := 0
  /-- rendezvous request (R178). -/
  rts : Bool := false
  /-- LENGTH (R178). -/
  len : Nat := 0
  /-- Pending, Matched or Unexpected (R176). -/
  st : RecSt := .pending
  /-- staged bytes by message offset; true: of a DET packet (R130) (R176). -/
  seg : List (Nat × List Byte × Bool) := []
  /-- bytes that have arrived (R178). -/
  arrived : Nat := 0
  /-- bytes placed in the receive buffer (R177). -/
  placed : Nat := 0
  /-- pool blocks reserved (R176). -/
  blocks : Nat := 0
  /-- ARRIVAL_SEQ (R178). -/
  arrSeq : Nat := 0
  /-- SRC_VA (R167). -/
  srcVa : Word64 := 0
  /-- SRC_KEY (R167). -/
  srcKey : Word32 := 0
  /-- the entry it matched (R172). -/
  recv : Option Posted := none
  /-- an unexpected-message entry is reserved (R176). -/
  entry : Bool := true
  /-- the receive's completion is written; what still arrives is discarded (R177). -/
  closed : Bool := false
  /-- staged segments whose copy is not done (R177). -/
  copying : Nat := 0
  /-- staged segments whose copy has been issued and has not ended (R177). -/
  issued : Nat := 0
  /-- its connection has failed, or been released, with this status (R179). -/
  gone : Option Status := none
  /-- index of its unexpected-message entry (a free value) (R178). -/
  entryIx : Nat := 0
  /-- HBM address of its first staging block (a free value) (R178). -/
  blockAt : Word64 := 0
  /-- status the receive ends with (R177). -/
  fail : Option Status := none
deriving DecidableEq, Repr

/-- Match context. -/
structure Mctx where
  /-- owning function (R162). -/
  fn : FnId := {}
  /-- state (R164). -/
  st : MctxSt := .active
  /-- MAX_POSTED (R163). -/
  maxPosted : Nat := 0
  /-- MAX_UNEXP (R163). -/
  maxUnexp : Nat := 0
  /-- UNEXP_BLOCKS (R163). -/
  maxBlocks : Nat := 0
  /-- next POST_SEQ (R170). -/
  postSeq : Nat := 0
  /-- next ARRIVAL_SEQ (R178). -/
  arrSeq : Nat := 0
  /-- posted entries in POST_SEQ order (R170). -/
  posted : List Posted := []
deriving DecidableEq, Repr

/-- Tagged matching. -/
structure Mtc where
  /-- match contexts (R162). -/
  ctxs : Tbl Mctx := []
  /-- time each number was released (R165). -/
  released : Tbl Nat := []
  /-- message records in order of reservation (R176). -/
  recs : List MsgRec := []
  /-- internal GETs that have ended and whose receive is still to be completed (R179). The model's own (log 2). -/
  ended : List (Nat × Status) := []
  /-- MTC_STAT.NOTE_DROP (R183). -/
  noteDrop : CorCnt := {}
deriving DecidableEq, Repr

/-- Engines and slots. -/
structure Eng where
  /-- spare engine serving a slot (absent: slot s is served by MPEs) (R187). -/
  slotMpe : Tbl Nat := []
  /-- failed engines, bit k for MPEk (R193). -/
  failed : Nat := 0
  /-- lost slots (R193). -/
  lost : Nat := 0
  /-- (slot, failed engine, spare) being grafted (R190). -/
  grafting : List (Nat × Nat × Nat) := []
deriving DecidableEq, Repr

/-- A tree entry as its four words. -/
structure TreeWords where
  /-- ROLE, PARENT_PORT, TU, DEPTH, DOMAIN (R195). -/
  w0 : Word64 := 0
  /-- CHILD_FABRIC (R195). -/
  w1 : Word64 := 0
  /-- CHILD_HOST, HOST_FN0 to HOST_FN3 (R195). -/
  w2 : Word64 := 0
  /-- reserved word (R195). -/
  w3 : Word64 := 0
deriving DecidableEq, Repr

/-- A contribution held at a node. -/
structure Contrib where
  /-- fabric port 0-63, or 64 + host port (R199). -/
  child : Nat := 0
  /-- chunk index (R209). -/
  chunk : Nat := 0
  /-- NULL (R217). -/
  null : Bool := false
  /-- FLAGS (R218). -/
  flags : Byte := 0
  /-- EPOCH it carried (R232). -/
  epoch : Bool := false
  /-- in-tree form (R211). -/
  data : List Byte := []
deriving DecidableEq, Repr

/-- The header of an operation. -/
structure CollHdr where
  /-- COP (R203). -/
  cop : Nat := 0
  /-- ELEM_TYPE (R202). -/
  elem : Nat := 0
  /-- COUNT (R209). -/
  count : Nat := 0
  /-- SCALE (R222). -/
  scale : Int := 0
  /-- RAW256 (R225). -/
  raw : Bool := false
deriving DecidableEq, Repr

/-- The operation in progress on a tree at this node. -/
structure TreeOp where
  /-- header of the first contribution (R206). -/
  hdr : Option CollHdr := none
  /-- bound to bank A (R232). -/
  bindA : Bool := false
  /-- bound to bank B (R232). -/
  bindB : Bool := false
  /-- a contribution with EPOCH 0 has been received (R232). -/
  contA : Bool := false
  /-- a contribution with EPOCH 1 has been received (R232). -/
  contB : Bool := false
  /-- EPOCH of the entry in use (R232). -/
  epoch : Bool := false
  /-- contributions waiting to be combined (R213). -/
  contribs : List Contrib := []
  /-- children whose NULL stands for every chunk (R217). -/
  nulls : List Contrib := []
  /-- next chunk to combine (R212). -/
  upNext : Nat := 0
  /-- chunk limit granted by the parent (R212). -/
  upLimit : Nat := 0
  /-- combined chunks waiting for UP_CREDIT (R212). -/
  upHeld : List Contrib := []
  /-- next result chunk to arrive or be made (R214). -/
  downNext : Nat := 0
  /-- chunk limit granted by each fabric child (R212). -/
  downLimits : Tbl Nat := []
  /-- result chunks waiting for a child's DOWN_CREDIT (R212). -/
  downHeld : List (Nat × Contrib) := []
  /-- highest UP_CREDIT limit sent to the children (R212). -/
  credited : Nat := 0
  /-- highest DOWN_CREDIT limit sent to the parent (R212). -/
  downCredited : Nat := 0
  /-- children that have acknowledged (R215). -/
  acked : List Nat := []
  /-- TREE_ACK sent, or TREE_DONE sent at the root (R215). -/
  ackSent : Bool := false
deriving DecidableEq, Repr

/-- One tree at this node. -/
structure TreeNode where
  /-- current operation number (R205). -/
  opn : Nat := 0
  /-- the operation in progress (R211). -/
  op : Option TreeOp := none
  /-- ending status, and MISMATCH, of operations that have ended (R228). -/
  ended : Tbl (Status × Bool) := []
deriving DecidableEq, Repr

/-- Collectives. -/
structure Tre where
  /-- nodes by tree number (R194). -/
  nodes : Tbl TreeNode := []
  /-- ports that have left UP and whose trees are still to be ended (R229). The model's own (log 2). -/
  downPorts : List Nat := []
  /-- TRE_STAT.DISCARDS (R235). -/
  discards : CorCnt := {}
  /-- TRE_STAT.REFUSED (R235). -/
  refused : CorCnt := {}
  /-- TRE_STAT.TU_FAILED (R235). -/
  failed : Nat := 0
deriving DecidableEq, Repr

/-- An entry of the source window table. -/
structure WinEnt where
  /-- source endpoint (R252). -/
  src : Ep := 0
  /-- destination router (R252). -/
  dest : Nat := 0
  /-- bytes outstanding (R252). -/
  bytes : Nat := 0
  /-- bytes of packets at an admission point, whose charge is still to be made (R332). -/
  held : Nat := 0
deriving DecidableEq, Repr

/-- A packet or Nib message waiting for its routing decision. -/
structure QItem where
  /-- what waits (R248). The model's own (log 2). -/
  item : Item := .nib {}
  /-- ingress port; 64 when formed at this device (R248). -/
  ingress : Nat := 64
  /-- when its residence began (R251). The model's own (log 2). -/
  since : Nat := 0
  /-- DETOUR bits its chosen port sets when it is sent (R248). The model's own (log 2). -/
  dims : Nat := 0
  /-- flits of its ingress buffer it holds, by number, and its bytes in each (R293). The model's own (log 2). -/
  hold : List (Nat × Nat) := []
deriving DecidableEq, Repr

/-- Fabric routing. -/
structure Rt where
  /-- port map, bank A (R239). -/
  pmA : Tbl Word64 := []
  /-- port map, bank B (R239). -/
  pmB : Tbl Word64 := []
  /-- exception table, bank A (R247). -/
  exA : Tbl (Word64 × Word64) := []
  /-- exception table, bank B (R247). -/
  exB : Tbl (Word64 × Word64) := []
  /-- tree table, bank A (R194). -/
  trA : Tbl TreeWords := []
  /-- tree table, bank B (R194). -/
  trB : Tbl TreeWords := []
  /-- reachability bitmap (R254). -/
  reach : Tbl Word64 := []
  /-- state of bank A (R256). -/
  bankA : BankSt := .idle
  /-- state of bank B (R256). -/
  bankB : BankSt := .idle
  /-- epoch in effect for packets formed now (R257). -/
  stamp : Bool := false
  /-- STAMP_TIME (R270). -/
  stampTime : Word32 := 0
  /-- CMD_ERR (R270). -/
  cmdErr : Nat := 0
  /-- time the stamp last changed away from epoch 0 (R259). -/
  last0 : Option Nat := none
  /-- time the stamp last changed away from epoch 1 (R259). -/
  last1 : Option Nat := none
  /-- TBL_WIN_ADDR.STATUS (R271). -/
  tblStatus : Nat := 0
  /-- source window table, least recently used first (R252). -/
  win : List WinEnt := []
  /-- RT_WIN_STAT.FULL_WAITS (R253). -/
  fullWaits : CorCnt := {}
  /-- RT_STAT.NOROUTE (R277). -/
  noroute : CorCnt := {}
  /-- RT_STAT.EPOCH (R277). -/
  badEpoch : CorCnt := {}
  /-- RT_STAT.AGE (R277). -/
  aged : CorCnt := {}
  /-- RT_STAT.HOP (R277). -/
  hop : CorCnt := {}
  /-- RT_STAT1.REACH_REFUSED (R277). -/
  reachRefused : CorCnt := {}
  /-- RT_STAT1.DEST_DOWN_SENT (R277). -/
  destDownSent : CorCnt := {}
  /-- RT_STAT1.NIB_STALL (R277). -/
  nibStall : CorCnt := {}
  /-- host ports whose drain is in force (R265). -/
  drain : Nat := 0
  /-- RT_HP_DRAIN.DRAINED (R276). -/
  drained : Nat := 0
  /-- packets held for their routing decision (R248). -/
  routeQ : List QItem := []
  /-- packets and Nib messages queued for transmission on each port (R246). -/
  egress : Tbl (List QItem) := []
  /-- port last chosen for each ingress port (R248). -/
  leastQ : Tbl Nat := []
  /-- packets delivered to this device and not yet taken by their engine (R248). -/
  localQ : List Item := []
deriving DecidableEq, Repr

/-- One entry of a gate list. -/
structure GateEnt where
  /-- GATES (R345). -/
  gates : Nat := 0
  /-- DURATION in 4 ns (R345). -/
  dur : Nat := 0
deriving DecidableEq, Repr

/-- A gate list in force or pending. -/
structure GateList where
  /-- entries 0 to LIST_LEN - 1 (R340). -/
  ents : List GateEnt := []
  /-- CYCLE in 4 ns (R347). -/
  cycle : Nat := 0
  /-- BASE in ns (R347). -/
  base : Nat := 0
  /-- its first cycle start at or after its commit, in ns (R342). -/
  start : Nat := 0
deriving DecidableEq, Repr

/-- The gate of one egress port. -/
structure Gate where
  /-- list in force (R340). -/
  run : Option GateList := none
  /-- committed list waiting for its first cycle start (R342). -/
  pend : Option GateList := none
  /-- entry now in force (R347). -/
  entry : Nat := 0
deriving DecidableEq, Repr

/-- Traffic control. -/
structure Tc where
  /-- gate entries of the in-force set, by port x 256 + index (R500). -/
  gclIn : Tbl GateEnt := []
  /-- staged gate entries, by port x 256 + index (R345). -/
  gclStg : Tbl GateEnt := []
  /-- gates by port (R340). -/
  gates : Tbl Gate := []
deriving DecidableEq, Repr

/-- A source's capture register: the errors it has met since its last acknowledged report. -/
structure FltNew where
  /-- class (R411). The model's own (log 2). -/
  cls : FClass := .contained
  /-- cause of the first (R411). The model's own (log 2). -/
  cause : Nat := 0
  /-- errors since the last acknowledged report (R411). The model's own (log 2). -/
  count : Nat := 0
  /-- detail of the first (R411). The model's own (log 2). -/
  detail : Byte := 0
  /-- object of the first (R411). The model's own (log 2). -/
  object : BitVec 24 := 0
deriving DecidableEq, Repr

/-- One fault source's record. -/
structure FltRec where
  /-- VALID (R432). -/
  valid : Bool := false
  /-- CLASS while VALID (R432). -/
  cls : FClass := .contained
  /-- MERGED (R432). -/
  merged : Bool := false
  /-- MASKED (R432). -/
  masked : Bool := false
  /-- CAUSE (R432). -/
  cause : Nat := 0
  /-- COUNT (R432). -/
  count : Nat := 0
  /-- CORR_COUNT (R432). -/
  corr : Nat := 0
  /-- time-stamp counter at the tick that took the first error (R430). -/
  time : Word64 := 0
  /-- DETAIL (R433). -/
  detail : Byte := 0
  /-- OBJECT (R433). -/
  object : BitVec 24 := 0
  /-- FLT_FORCE.FCLASS (R434). -/
  fclass : Nat := 0
  /-- the source's capture register: contained and fatal errors not yet taken (R411). -/
  cap : Option FltNew := none
  /-- corrected errors captured and not yet taken (R411). -/
  capCorr : Nat := 0
  /-- ticks for which BREAK still drives the source's pair illegal (R422). -/
  broken : Nat := 0
deriving DecidableEq, Repr

/-- Fault collector. -/
structure Flt where
  /-- records by source number (R414). -/
  recs : Tbl FltRec := []
  /-- CORR_TOTAL (R430). -/
  corrTotal : Nat := 0
  /-- source of the most recent new record (R427). -/
  last : Nat := 0
  /-- its cause (R427). -/
  lastCause : Nat := 0
deriving DecidableEq, Repr

/-- One receive lane of a fabric port. -/
structure LaneSt where
  /-- loss of signal (R324). -/
  los : Bool := false
  /-- loss of lock (R324). -/
  lol : Bool := false
  /-- the lane is taken out (LANE_FAIL) (R315). -/
  fail : Bool := false
  /-- frame lock, polarity and deskew gained (R285). -/
  locked : Bool := false
  /-- the lane carries the other link lane (R285). -/
  swapped : Bool := false
  /-- inverted polarity, corrected (R285). -/
  inverted : Bool := false
  /-- effective termination trim taken at the last training (R457). -/
  term : Int := 0
  /-- TJ_MAX at the last training, in 0.5 degree (R317). -/
  trainTj : Int := 0
  /-- rung of its last training (0: never) (R316). -/
  rung : Nat := 0
  /-- corrected symbols of the last complete window (R325). -/
  symWin : Nat := 0
  /-- UNCORR (R325). -/
  uncorr : CorCnt := {}
  /-- BIP_ERR (R325). -/
  bip : CorCnt := {}
  /-- equalisation settings in use (PORT_n_EQj) (R328). -/
  eq : Word64 := 0
  /-- the lane is in its 10 ms soak (R315). -/
  soak : Bool := false
  /-- the lane has frame lock (R285). -/
  framed : Bool := false
  /-- BIP-8 of what the transmit lane sent in the last frame (R284). The model's own (log 2). -/
  txBip : Byte := 0
  /-- BIP-8 of what the receive lane brought in the last frame (R284). -/
  rxBip : Option Byte := none
  /-- level the precoder sent last (R278). The model's own (log 2). -/
  txLevel : Fin 4 := 0
  /-- symbols corrected in the window in progress (R310). -/
  winSym : Nat := 0
  /-- uncorrectable codewords in the window in progress (R310). -/
  winUnc : Nat := 0
  /-- the last complete window found the lane failing (R310). -/
  failing : Bool := false
deriving DecidableEq, Repr

/-- A change of a port. -/
structure Chg where
  /-- KIND: 1 NARROW, 2 WIDEN, 3 RETRAIN, 4 RATE (R311). -/
  kind : Nat := 0
  /-- LANE (R311). -/
  lane : Nat := 0
  /-- RATE: rung - 1 (R301). -/
  rate : Nat := 0
  /-- TOKEN (R311). -/
  token : Byte := 0
  /-- times it has been resent (R311). -/
  tries : Nat := 0
  /-- reason that PORT_WIDTH gives (R320). -/
  reason : Nat := 6
  /-- asked for by CMD (R323). -/
  cmd : Bool := false
deriving DecidableEq, Repr

/-- A packet of which part has arrived. -/
structure RxPart where
  /-- its bytes so far (R290). -/
  bytes : List Byte := []
  /-- age its first flit adds (R299). -/
  age : Nat := 0
  /-- its first flit was accepted after a loss (R299). -/
  late : Bool := false
  /-- when its first flit arrived (R251). -/
  since : Nat := 0
  /-- flits of the ingress buffer it holds, by number, and its bytes in each (R293). The model's own (log 2). -/
  hold : List (Nat × Nat) := []
deriving DecidableEq, Repr

/-- A packet of which part has been sent. -/
structure TxCur where
  /-- its channel (R291). -/
  vc : Nat := 0
  /-- its bytes still to be sent (R290). -/
  bytes : List Byte := []
  /-- its ingress port; 64 when formed here (R248). -/
  ing : Nat := 64
  /-- its traffic class (R337). -/
  tc : Nat := 0
  /-- flits of its ingress buffer it holds, by number, and its bytes in each (R293). The model's own (log 2). -/
  hold : List (Nat × Nat) := []
  /-- units of the shared pool kept for it (R338). -/
  pool : Nat := 0
deriving DecidableEq, Repr

/-- One fabric port. -/
structure Port where
  /-- STATE (R304). -/
  st : PortSt := .disabled
  /-- state to return to after RETRAINING (R316). -/
  prev : PortSt := .nibOnly
  /-- rung in use, 1 to 3 (0: not trained) (R286). -/
  rung : Nat := 0
  /-- target rung until the next restart (R307). -/
  target : Nat := 3
  /-- lanes in use, 0 when not trained (R324). -/
  width : Nat := 0
  /-- active lane at width 1 (R324). -/
  lane : Nat := 0
  /-- link lane 0 (R310). -/
  l0 : LaneSt := {}
  /-- link lane 1 (R310). -/
  l1 : LaneSt := {}
  /-- frame lock held on the active lanes (R285). -/
  frameLock : Bool := false
  /-- this end last announced all traffic (R305). -/
  annOwn : Bool := false
  /-- what the partner last announced (true: all traffic) (R305). -/
  annPeer : Option Bool := none
  /-- cause of the last entry to DOWN (R319). -/
  cause : Nat := 0
  /-- fenced until device reset: it does not retrain (R414). -/
  noRetrain : Bool := false
  /-- CMD_STATUS (R324). -/
  cmdStatus : Nat := 0
  /-- DOWN_COUNT (R324). -/
  downCount : Nat := 0
  /-- EQ_DEFAULT (R308). -/
  eqDefault : Bool := false
  /-- CRC_FAIL (R326). -/
  crcFail : CorCnt := {}
  /-- REPLAYS (R326). -/
  replays : CorCnt := {}
  /-- TIMER_REPLAYS (R326). -/
  timerReplays : CorCnt := {}
  /-- CHANGES (R326). -/
  changes : CorCnt := {}
  /-- partner's UNIT_ID (PORT_n_PARTNER) (R327). -/
  unitId : Word64 := 0
  /-- PORT_n_PARTNER_INFO (R327). -/
  info : Word64 := 0
  /-- next FSEQ to send (R294). -/
  txNext : BitVec 12 := 0
  /-- unacknowledged DATA flits, oldest first (R295). -/
  replay : List Flit := []
  /-- flits of the replay buffer still to be resent, from its end (R297). -/
  toReplay : Nat := 0
  /-- FSEQ from which the last replay started, and when (R297). -/
  replayAt : Option (BitVec 12 × Nat) := none
  /-- replay rounds without progress (R297). -/
  rounds : Nat := 0
  /-- next FSEQ expected (R296). -/
  expect : BitVec 12 := 0
  /-- flits still to be sent with RETRY (R296). -/
  retryLeft : Nat := 0
  /-- expected FSEQ of the last retry request, and when (R296). -/
  retryAt : Option (BitVec 12 × Nat) := none
  /-- time of the loss not yet made good (R299). -/
  tLoss : Option Nat := none
  /-- credits spent of each counter (absent: none) (R293). -/
  bal : Tbl Nat := []
  /-- cumulative count last received of each counter (R293). -/
  crHeld : Tbl Nat := []
  /-- cumulative units returned on each counter (R293). -/
  crRet : Tbl Nat := []
  /-- cumulative count last sent of each counter (R293). -/
  crSent : Tbl Nat := []
  /-- counter at which the round-robin of returns goes on (R293). -/
  crNext : Nat := 0
  /-- unfinished packet of each channel (R290). -/
  rxPart : Tbl RxPart := []
  /-- data or tree packet in progress (R337). -/
  txCur : Option TxCur := none
  /-- class being visited (R339). -/
  drr : Nat := 0
  /-- the class's visit has not begun (R339). -/
  drrNew : Bool := true
  /-- deficit of each class (R339). -/
  deficit : Tbl Nat := []
  /-- channel last served of each class (R338). -/
  rrVc : Tbl Nat := []
  /-- DATA flits sent since the last IDLE flit (R300). -/
  sinceIdle : Nat := 0
  /-- link-local messages waiting to be sent (R301). -/
  llOut : List LinkMsg := []
  /-- link-local messages received and not yet handled, with the time-stamp counter at their flit (R301). -/
  llIn : List (LinkMsg × Word64) := []
  /-- flits of the link frame being sent, in order (R281). -/
  txFrame : List Flit := []
  /-- the port was at width 2 before the change in progress (R316). -/
  two : Bool := false
  /-- the agreed change in progress has begun (R311). -/
  applied : Bool := false
  /-- width of the frame being sent (R283). -/
  txWidth : Nat := 0
  /-- active lane of the frame being sent (R283). -/
  txLane : Nat := 0
  /-- width of the next frame sent (R283). -/
  nextWidth : Nat := 0
  /-- active lane of the next frame sent (R283). -/
  nextLane : Nat := 0
  /-- width of the frames received (R312). -/
  rxWidth : Nat := 0
  /-- active lane of the frames received (R312). -/
  rxLane : Nat := 0
  /-- own SWITCH of the change in progress (R311). -/
  switchAt : Option (BitVec 12) := none
  /-- the partner's SWITCH of the change in progress (R311). -/
  peerSwitch : Option (BitVec 12) := none
  /-- the transmitter has made the change in progress (R311). -/
  txSwitched : Bool := false
  /-- the receiver has made the change in progress (R312). -/
  rxSwitched : Bool := false
  /-- the elastic buffer, oldest first (R300). -/
  elastic : List Flit := []
  /-- ACK of the last flit sent (R294). -/
  acked : BitVec 12 := 0
  /-- number of the next DATA flit that enters the ingress buffer (R293). The model's own (log 2). -/
  rxSerial : Nat := 0
  /-- flits in the ingress buffer: counter, units, packets that still hold bytes of it (R293). -/
  rxHeld : Tbl (Nat × Nat × Nat) := []
  /-- the partner's numbering from NIB_ONLY on has begun (R294). -/
  rxStart : Bool := false
  /-- a lane that LANE_EN has enabled is still to be trained and taken in (R321). -/
  widenDue : Bool := false
  /-- the partner has asked for rung 2 by its temperature (R318). -/
  peerHot : Bool := false
  /-- FSEQs of replay-buffer flits with an uncorrectable word (R416). -/
  bad : List (BitVec 12) := []
  /-- in DOWN by CMD RESTART: it trains whatever AUTO_RETRAIN is (R323). -/
  restart : Bool := false
  /-- next TOKEN (R311). -/
  nextToken : Byte := 0
  /-- own request outstanding (R311). -/
  own : Option Chg := none
  /-- change in progress, accepted or merged (R313). -/
  prog : Option Chg := none
  /-- the change in progress is a merged one (R313). -/
  merged : Bool := false
  /-- the change in progress is this end's request (R311). -/
  mine : Bool := false
  /-- changes this end still has to request, in order (R313). -/
  plan : List Chg := []
  /-- waiting 50 us after CHANGE_BUSY (R313). -/
  busyWait : Bool := false
  /-- this end has sent CHANGE_DONE (R316). -/
  doneOwn : Bool := false
  /-- the partner has sent CHANGE_DONE (R316). -/
  donePeer : Bool := false
  /-- new DATA flits are stopped ahead of a retrain outage (R316). -/
  outage : Bool := false
  /-- a rung has failed to lock since the last restart (R307). -/
  rateFailed : Bool := false
  /-- held at rung 2 by temperature (R318). -/
  thermal : Bool := false
  /-- PMU_PORT_n_TXB (R464). -/
  txb : Nat := 0
  /-- PMU_PORT_n_TXP (R464). -/
  txp : Nat := 0
  /-- PMU_PORT_n_RXB (R464). -/
  rxb : Nat := 0
  /-- PMU_PORT_n_RXP (R464). -/
  rxp : Nat := 0
  /-- bytes sent in the window in progress (R465). -/
  bwTxNow : Nat := 0
  /-- bytes received in the window in progress (R465). -/
  bwRxNow : Nat := 0
  /-- PMU_BW_n_TX (R465). -/
  bwTx : Nat := 0
  /-- PMU_BW_n_RX (R465). -/
  bwRx : Nat := 0
deriving DecidableEq, Repr

/-- One service port. -/
structure SvcPort where
  /-- LINK: 0 down, 1 locking, 2 up (R377). -/
  link : Nat := 0
  /-- SPEED (R377). -/
  speed : Nat := 0
  /-- DOWN_COUNT (R377). -/
  downCount : Nat := 0
  /-- CRC_FAIL (R377). -/
  crcFail : CorCnt := {}
  /-- RESENDS (R377). -/
  resends : CorCnt := {}
  /-- CODE_ERR (R377). -/
  codeErr : CorCnt := {}
  /-- DROPS (R377). -/
  drops : CorCnt := {}
  /-- SVC_n_PARTNER (R377). -/
  partner : Word64 := 0
  /-- partner's MAX_SPEED (R358). -/
  peerMax : Nat := 0
  /-- the partner names this link as its upstream (R358). -/
  peerUp : Bool := false
  /-- the partner holds an upstream (R358). -/
  peerHas : Bool := false
  /-- a HELLO has come since the link came up (R350). -/
  heard : Bool := false
  /-- SEQ of the next new frame (R354). -/
  txSeq : Nat := 0
  /-- frames sent and not acknowledged (R354). -/
  unacked : List Frame := []
  /-- frames waiting for the window or a buffer, with the port and receive buffer that hold each (R354). -/
  waitQ : List (Frame × Option (Nat × Nat)) := []
  /-- running disparity of the transmitter (true: positive) (R348). The model's own (log 2). -/
  disparity : Bool := false
  /-- symbols of frames sent since the last skip (R348). The model's own (log 2). -/
  sinceSkip : Nat := 0
  /-- next SEQ expected (R354). -/
  expect : Nat := 0
  /-- buffers freed, cumulative modulo 16 (R354). -/
  freed : Nat := 0
  /-- FREED value last applied (R354). -/
  held : Nat := 0
  /-- buffer balance (R354). -/
  bal : Nat := 8
  /-- consecutive resends without progress (R354). -/
  rounds : Nat := 0
  /-- ACK or FREED changed since a frame last carried them (R354). -/
  ackDue : Bool := false
  /-- speed named by a SPEED frame, the switch pending (R350). -/
  target : Option Nat := none
  /-- switched and waiting for lock (R350). -/
  switching : Bool := false
  /-- speeds that have failed since the link came up (R350). -/
  failedSpeeds : List Nat := []
  /-- receive buffers whose frame has been handled and not yet forwarded (R354). -/
  rxBuf : List Nat := []
deriving DecidableEq, Repr

/-- A COMMAND under execution (R361). -/
structure CmdRun where
  /-- another command of the sequencer that waits in its place: an admin command, or an access of the fabric manager (none: a COMMAND) (R60). The model's own (log 2). -/
  row : Option Instr := none
  /-- the COMMAND (R361). -/
  frame : Frame := {}
  /-- service port it came by; none for LOCAL (R362). -/
  port : Option Nat := none
  /-- LOCAL: issuing function (R363). -/
  fn : FnId := {}
  /-- LOCAL: its admin entry (R363). -/
  desc : Desc := {}
  /-- a RESPONSE is to be sent (R362). -/
  reply : Bool := true
  /-- entries executed (R362). -/
  done : Nat := 0
  /-- values read, 0 for writes (R362). -/
  values : List Word64 := []
  /-- its entries have begun (R361). -/
  started : Bool := false
  /-- it waits with entries left, and nothing else of the sequencer runs (R60). The model's own (log 2). -/
  hold : Bool := false
  /-- register whose bit 63 a WRITE_WAIT awaits (R361). -/
  waitReg : Option Nat := none
  /-- the mode its MODE_CTL write asked for, while that awaits arbitration (R450). -/
  waitMode : Option Mode := none
  /-- ticks the WRITE_WAIT has waited (R361). -/
  ticks : Nat := 0
deriving DecidableEq, Repr

/-- Service network and fabric manager. -/
structure Svc where
  /-- service ports (R348). -/
  ports : Tbl SvcPort := []
  /-- TERM (R378). -/
  term : Nat := 0
  /-- MGR_ROLE: 0 none, 1 standby, 2 active (R378). -/
  role : Nat := 0
  /-- upstream service port (R378). -/
  upstream : Option Nat := none
  /-- DEPTH (R378). -/
  depth : Nat := 0
  /-- when the last heartbeat came (HB_AGE reads 255 where none has) (R378). -/
  hbAt : Option Nat := none
  /-- SVC_MGR_UNIT (R378). -/
  unit : Word64 := 0
  /-- a mode lease is in force (R371). -/
  lease : Bool := false
  /-- heartbeats already forwarded: TERM and SEQ (R355). -/
  hbDone : List (Nat × Nat) := []
  /-- HB_SEQ of the next heartbeat sent (R366). -/
  hbSeq : Nat := 0
  /-- in the 5 ms listen after entering Manager mode (R365). -/
  listening : Bool := false
  /-- a heartbeat of a TERM at least its own came in the listen (R365). -/
  heardHb : Bool := false
  /-- frames held for RECV (R363). -/
  rx : List Frame := []
  /-- RX_DROPS (R378). -/
  rxDrops : CorCnt := {}
  /-- service route table words (R360). -/
  rt : Tbl Word64 := []
  /-- a NOTIFY was sent in the last 100 us (R364). -/
  notifyHold : Bool := false
  /-- a NOTIFY is to be sent (R364). -/
  notifyDue : Bool := false
  /-- PORTS_CHANGED (R364). -/
  portsChanged : Word64 := 0
  /-- COMMANDs accepted and not yet answered, in order (R361). -/
  cmds : List CmdRun := []
deriving DecidableEq, Repr

/-- Fabric time. -/
structure Ft where
  /-- OFFSET (R380). -/
  offset : Int := 0
  /-- DELAY (R380). -/
  delay : Nat := 0
  /-- LOCKED (R380). -/
  locked : Bool := false
  /-- HOLDOVER (R380). -/
  holdover : Bool := false
  /-- PPS_SEEN (R380). -/
  ppsSeen : Bool := false
  /-- when the last PPS_IN edge came (R380). The model's own (log 2). -/
  ppsAt : Nat := 0
  /-- consecutive offsets within 4 ns (R368). -/
  good : Nat := 0
  /-- offsets outside 12 ns since LOCKED (R368). -/
  bad : Nat := 0
  /-- periods without an answer (R368). -/
  missed : Nat := 0
  /-- t1 of the TIME_REQ outstanding (R368). -/
  req : Option Word64 := none
  /-- the exchange of the present period has had no answer (R368). -/
  asked : Bool := false
  /-- rate correction, in 2^-32 of an increment per clock cycle (R368). -/
  rate : Int := 0
  /-- rate correction not yet applied, in 2^-32 of an increment (R368). The model's own (log 2). -/
  acc : Int := 0
  /-- PPS_OUT is high (R369). -/
  ppsOut : Bool := false
  /-- when PPS_OUT rose (R369). The model's own (log 2). -/
  ppsOutAt : Nat := 0
  /-- fabric time has been distributed to the device (R41). -/
  set : Bool := false
deriving DecidableEq, Repr

/-- An IMAGE being received. -/
structure Img where
  /-- IMAGE_ID (R374). -/
  id : Word32 := 0
  /-- TOTAL (R374). -/
  total : Nat := 0
  /-- chunks by offset (R374). -/
  chunks : Tbl (List Byte) := []
deriving DecidableEq, Repr

/-- Resets, boot and firmware. -/
structure Boot where
  /-- where boot stands (R443). -/
  phase : BootPh := .verify false [true]
  /-- the parts of board flash by their offset: two copies of the boot record, three records, two image slots; bytes past what a part lists read 0 (R439). Reset: DESIGN CHOICE (log 1). -/
  flash : Tbl (List Byte) := []
  /-- a valid equalisation table was loaded (R308). -/
  eqLoaded : Bool := false
  /-- SLOT_RUN (R458). -/
  slotRun : Bool := false
  /-- SERVICE_BOOT (R458). -/
  service : Bool := false
  /-- the running image (R443). -/
  image : List Byte := []
  /-- measurements by index (R454). -/
  meas : Tbl (List Byte) := []
  /-- measurement 1, as recorded at manufacture (R454). Reset: DESIGN CHOICE (log 1). -/
  romMeas : List Byte := []
  /-- key digests in read-only memory (R442). Reset: DESIGN CHOICE (log 1). -/
  keyDigest : Tbl (List Byte) := []
  /-- identity certificate chain (R455). Reset: DESIGN CHOICE (log 1). -/
  certChain : List Byte := []
  /-- ACT_STATUS (R458). -/
  act : Nat := 0
  /-- ACTIVATE runs (R452). -/
  actBusy : Bool := false
  /-- USR_LOADED (R459). -/
  calLoaded : Bool := false
  /-- USR_DEFAULT (R459). -/
  calDefault : Bool := false
  /-- image being received (R374). -/
  img : Img := {}
deriving DecidableEq, Repr

/-- A mode request of the present tick. -/
structure ModeReq where
  /-- a SET_MODE and its entry; none for a MODE_CTL write (R450). -/
  owner : Option (FnId × Desc) := none
  /-- the mode it names (R450). -/
  mode : Mode := .configure
deriving DecidableEq, Repr

/-- Operating mode. -/
structure ModeSt where
  /-- PREV_MODE (R458). -/
  prev : Mode := .recovery
  /-- CAUSE (R451). -/
  cause : Nat := 0
  /-- time-stamp counter at the last change (R458). -/
  time : Word64 := 0
  /-- requests of the present tick that take part in arbitration (R372). -/
  reqs : List ModeReq := []
  /-- a DEVICE_RESET is to be carried out (R450). -/
  resetReq : Bool := false
deriving DecidableEq, Repr

/-- What one function has used, in one domain. -/
structure Tally where
  /-- FN (R390). -/
  fn : FnId := {}
  /-- DOMAIN (R390). -/
  dom : Dom := 0
  /-- BYTES_TX (R388). -/
  tx : Nat := 0
  /-- BYTES_RX (R388). -/
  rx : Nat := 0
  /-- RMA_OPS (R388). -/
  rma : Nat := 0
  /-- COLL_OPS (R388). -/
  coll : Nat := 0
  /-- CONN_MS (R388). -/
  connMs : Nat := 0
  /-- HBM_MIB_MS (R388). -/
  hbmMs : Nat := 0
  /-- ENABLED_MS (R388). -/
  onMs : Nat := 0
  /-- TAP_GAP (R390). -/
  gap : Bool := false
  /-- FLR (R390). -/
  flr : Bool := false
  /-- DOMAIN_SPLIT (R390). -/
  split : Bool := false
  /-- PARKED (R390). -/
  parked : Bool := false
deriving DecidableEq, Repr

/-- An increment waiting in a tile accumulator. -/
structure Acc where
  /-- function (R382). -/
  fn : FnId := {}
  /-- its domain when it was counted (R389). -/
  dom : Dom := 0
  /-- 0 BYTES_TX, 1 BYTES_RX, 2 RMA_OPS, 3 COLL_OPS (R388). -/
  what : Nat := 0
  /-- amount (R382). -/
  n : Nat := 0
deriving DecidableEq, Repr

/-- The state beat of one function (R382). -/
structure Beat where
  /-- function (R382). -/
  fn : FnId := {}
  /-- its domain (R389). -/
  dom : Dom := 0
  /-- connections in Active or Error (R388). -/
  conns : Nat := 0
  /-- HBM allocated, in MiB rounded up (R388). -/
  hbm : Nat := 0
  /-- enabled (R388). -/
  on : Bool := false
  /-- parked (R390). -/
  parked : Bool := false
deriving DecidableEq, Repr

/-- A minute block. -/
structure MBlock where
  /-- SEQ (R391). -/
  seq : Nat := 0
  /-- START_US (R391). -/
  start : Nat := 0
  /-- END_US (R391). -/
  fin : Nat := 0
  /-- SPAN (R391). -/
  span : Nat := 0
  /-- taps that were silent in the block (R397). -/
  gapTaps : List Nat := []
  /-- TIME_ADJUSTED (R391). -/
  adjusted : Bool := false
  /-- POWER_UP (R391). -/
  powerUp : Bool := false
  /-- SEAL_OPEN (R391). -/
  sealOpen : Bool := false
  /-- FW_CHANGED (R391). -/
  fwChanged : Bool := false
  /-- records (R390). -/
  recs : List Tally := []
  /-- SEAL_COUNT at close (R391). -/
  sealCount : Nat := 0
  /-- OPERATOR at close (R391). -/
  operator : Word64 := 0
  /-- PARAM_CRC (R391). -/
  paramCrc : Word32 := 0
  /-- FW_VERSION (R391). -/
  fwVersion : Nat := 0
  /-- AUDIT_SEQ (R391). -/
  auditSeq : Nat := 0
  /-- PREV_DIGEST (R391). -/
  prevDigest : List Byte := []
  /-- AUDIT_DIGEST (R391). -/
  auditDigest : List Byte := []
  /-- signature (R392). -/
  signature : List Byte := []
  /-- signed and readable (R392). -/
  signed : Bool := false
  /-- written to the sealed flash (R393). -/
  inFlash : Bool := false
  /-- functions whose domain has changed in the block, with the later domain (R389). -/
  changed : Tbl Dom := []
  /-- functions reset in the block (R390). -/
  flrFns : List Nat := []
  /-- parts read since it was signed (R395). -/
  readMask : Nat := 0
deriving DecidableEq, Repr

/-- An audit entry. -/
structure Audit where
  /-- SEQ (R403). -/
  seq : Nat := 0
  /-- TIME_US (R403). -/
  time : Nat := 0
  /-- KIND (R403). -/
  kind : Nat := 0
  /-- VALUE_A (R403). -/
  a : Word64 := 0
  /-- VALUE_B (R403). -/
  b : Word64 := 0
  /-- SEAL_COUNT (R403). -/
  sealNo : Nat := 0
  /-- PREV_DIGEST (R403). -/
  prev : List Byte := []
deriving DecidableEq, Repr

/-- A reader of the meter export block. -/
structure Reader where
  /-- MTR_RDk_SEL (R408). -/
  sel : Word64 := 0
  /-- READY (R408). -/
  ready : Bool := false
  /-- SEL has been written and READY is to rise (R395). -/
  asked : Bool := false
deriving DecidableEq, Repr

/-- Metering island. -/
structure Isl where
  /-- VDD_MTR present and the island out of reset (R382). -/
  powered : Bool := true
  /-- TIME_UNSET (R408). -/
  timeUnset : Bool := true
  /-- island time in us (R384). -/
  time : Nat := 0
  /-- fraction of a microsecond, in 10^-11 us (R384). -/
  frac : Nat := 0
  /-- management clock cycles since the last METER_XO cycle (R384). The model's own (log 2). -/
  cyc : Nat := 0
  /-- whole milliseconds of island time last sampled (R388). -/
  ms : Nat := 0
  /-- island minute last begun (R384). -/
  min : Nat := 0
  /-- END_US of the last block stored (R385). -/
  lastEnd : Nat := 0
  /-- END_US of the last block written to the sealed flash (R385). -/
  flashEnd : Nat := 0
  /-- the open block (R391). -/
  opened : Option MBlock := none
  /-- closed blocks stored, oldest first (R393). -/
  blocks : List MBlock := []
  /-- SEQ of the next block (R391). -/
  seqNext : Nat := 1
  /-- MTR_SEQ_ACKED (R408). -/
  acked : Nat := 0
  /-- message digest of the last closed block (R391). -/
  lastDigest : List Byte := []
  /-- audit log, oldest first (R403). -/
  audit : List Audit := []
  /-- seal state (R402). -/
  sealOpen : Bool := false
  /-- SEAL_COUNT (R408). -/
  sealCount : Nat := 0
  /-- CAL_USR_MTR_TRIM (R408). -/
  trimUsr : BitVec 16 := 0
  /-- effective trim in force (R387). -/
  trimEff : Int := 0
  /-- MTR_OPERATOR (R408). -/
  operator : Word64 := 0
  /-- SLEW_LEFT, in 10^-11 us (R408). -/
  slew : Int := 0
  /-- (time, size) of the adjustments accepted in the last 86,400 s (R386). -/
  adjs : List (Nat × Nat) := []
  /-- RESULT of the last adjustment (R408). -/
  adjResult : Nat := 0
  /-- taps that are silent (R397). -/
  silent : List Nat := []
  /-- state beat last delivered by each tap (R382). -/
  beats : Tbl (List Beat) := []
  /-- the oldest block not in flash failed to be written (R393). -/
  flashHeld : Bool := false
  /-- FULL (R399). -/
  full : Bool := false
  /-- WR_IGNORED (R408). -/
  wrIgnored : CorCnt := {}
  /-- reader 0 (R395). -/
  rd0 : Reader := {}
  /-- reader 1 (R395). -/
  rd1 : Reader := {}
  /-- OFFSET (R408). -/
  fwOffset : Nat := 0
  /-- STATUS (R408). -/
  fwStatus : Nat := 0
  /-- staged image, by offset (R405). -/
  fwStage : Tbl Word64 := []
  /-- meter firmware key in read-only memory (R405). Reset: DESIGN CHOICE (log 1). -/
  fwKey : List Byte := []
  /-- running island firmware (R405). Reset: DESIGN CHOICE (log 1). -/
  fwRun : List Byte := []
  /-- FW_VERSION (R408). -/
  fwVersion : Nat := 0
  /-- version of the image staged for activation (R405). -/
  fwNew : Option Nat := none
  /-- the next block carries FW_CHANGED (R405). -/
  fwChanged : Bool := false
  /-- island certificate (R406). Reset: DESIGN CHOICE (log 1). -/
  cert : List Byte := []
  /-- increments in the tile accumulators (R382). -/
  acc : List Acc := []
  /-- HOLD_CAUSE and FULL as METER_HOLD last told them (R401). The model's own (log 2). -/
  seen : Nat × Bool := (2, false)
deriving DecidableEq, Repr

/-- An occurrence of a counted event in the present tick. -/
structure Occ where
  /-- EVENT code (R462). -/
  ev : Nat := 0
  /-- attribute F (R462). -/
  fn : Option FnId := none
  /-- attribute K: region key index (R462). -/
  key : Option Nat := none
  /-- attribute K: virtual address (R462). -/
  va : Option Nat := none
  /-- attribute O (R462). -/
  op : Option Nat := none
  /-- attribute V (R462). -/
  vc : Option Nat := none
  /-- attribute T (R462). -/
  tc : Option Nat := none
  /-- how many (R460). -/
  n : Nat := 1
deriving DecidableEq, Repr

/-- A dump ring or sample ring. -/
structure Ring where
  /-- RUNNING (R480). -/
  running : Bool := false
  /-- STOP_CAUSE (R469). -/
  stop : Nat := 0
  /-- MISSED (R480). -/
  missed : Nat := 0
  /-- WRITTEN (R480). -/
  written : Word32 := 0
  /-- ring address when EN was set (R468). -/
  base : Nat := 0
  /-- LOG2_SIZE in force (R468). -/
  log2 : Nat := 4
  /-- the owner function it serves (R468). -/
  fn : FnId := {}
deriving DecidableEq, Repr

/-- A tagged operation in progress. -/
structure Sample where
  /-- function (R471). -/
  fn : FnId := {}
  /-- submission queue (R471). -/
  sq : Nat := 0
  /-- ring count of its descriptor (R471). -/
  cnt : Word32 := 0
  /-- time-stamp counter at each stage passed (R471). -/
  t : Tbl Word64 := []
deriving DecidableEq, Repr

/-- Performance monitor. -/
structure Pmu where
  /-- PMU_CNT_k (R460). -/
  cnt : Tbl Nat := []
  /-- PMU_OVFm (R460). -/
  ovf : Nat := 0
  /-- occurrences since the last tick (R460). -/
  occs : List Occ := []
  /-- counters whose selection was written since the last tick (R461). -/
  selNew : List Nat := []
  /-- selections in force (R461). -/
  sel : Tbl Word64 := []
  /-- filter registers in force, by offset (R463). -/
  filt : Tbl Word64 := []
  /-- CLEAR was written since the last tick (R461). -/
  clear : Bool := false
  /-- WINDOW was changed and the next window has not begun (R465). -/
  bwSkip : Bool := false
  /-- slot counters, by engine x 4 + class (R466). -/
  td : Tbl Nat := []
  /-- dump ring (R467). -/
  dump : Ring := {}
  /-- SEQ of the last boundary (R468). -/
  dumpSeq : Nat := 0
  /-- EN takes effect at the next tick (R467). -/
  dumpDue : Bool := false
  /-- sample ring (R472). -/
  tag : Ring := {}
  /-- tag LFSR (R471). -/
  lfsr : Word32 := 1
  /-- tagged operations in progress (R471). -/
  samples : List Sample := []
deriving DecidableEq, Repr

/-- A segment of a recording. -/
structure Seg where
  /-- segment header (R475). -/
  head : List Byte := []
  /-- its records, in the order in which the unit consumed them (R473). -/
  recs : List InkRec := []
  /-- damaged (R477). -/
  damaged : Bool := false
  /-- full (R476). -/
  full : Bool := false
  /-- holds recorded data (R476). -/
  used : Bool := false
deriving DecidableEq, Repr

/-- Inkwell. -/
structure Ink where
  /-- STATE (R481). -/
  st : Nat := 0
  /-- STOP_CAUSE (R481). -/
  stop : Nat := 0
  /-- management tick of the stop (R476). The model's own (log 2). -/
  stopAt : Nat := 0
  /-- segments (R473). -/
  segs : Tbl Seg := []
  /-- OLDEST (R481). -/
  oldest : Nat := 0
  /-- CURRENT (R481). -/
  current : Nat := 0
  /-- segment number from START (R475). -/
  segNo : Nat := 0
  /-- CMD_ERR (R481). -/
  err : Nat := 0
  /-- PAGES of the segments that are full (R481). -/
  pages : Nat := 0
  /-- GiB of HBM allocated (R473). -/
  gib : Nat := 0
  /-- recorded unit (R473). -/
  unit : Nat := 0
  /-- WRAP of the recording (R476). -/
  wrap : Bool := false
  /-- PRESSURE of the recording (R477). -/
  pressure : Bool := true
  /-- next operation index (R474). -/
  ops : Nat := 0
  /-- operations recorded that have not retired, by their index (R474). -/
  opened : List (Nat × InkKey) := []
  /-- arbitration tokens of the next record (R473). -/
  toks : List Byte := []
  /-- the trigger has fired (R476). -/
  trig : Bool := false
  /-- the checkpoint of a later segment runs (R475). -/
  ckpt : Bool := false
  /-- the transfer is an import (R478). -/
  imp : Bool := false
  /-- RESULT (R481). -/
  result : Nat := 0
  /-- OPS (R481). -/
  cmpOps : Nat := 0
  /-- INK_DIV_INDEX (R481). -/
  divIndex : Nat := 0
  /-- INK_DIV_FIELD (R481). -/
  divField : Word64 := 0
  /-- INK_DIV_REPLAY (R481). -/
  divReplay : Word64 := 0
  /-- INK_DIV_POS (R481). -/
  divPos : Nat := 0
deriving DecidableEq, Repr

/-- Configuration integrity. -/
structure Cfg where
  /-- COMMIT bits waiting for the next tick (R498). -/
  commit : Option Nat := none
  /-- staged copies when CFG_COMMIT was written (R498). -/
  snap : Tbl Word64 := []
  /-- staged gate entries when CFG_COMMIT was written (R498). -/
  snapGcl : Tbl GateEnt := []
  /-- BUSY (R500). -/
  busy : Bool := false
  /-- ERR, ERR_BLOCK, ERR_CODE (R500). -/
  err : Option (Nat × Nat) := none
  /-- CFG_CRC_NOW.CRC (R501). -/
  crcNow : Word32 := 0
  /-- CFG_CRC_NOW.VALID (R501). -/
  crcValid : Bool := false
  /-- CAPTURE waits for a sweep (R496). -/
  capture : Bool := false
  /-- a configuration write has come since the sweep in progress began (R494). -/
  dirty : Bool := false
  /-- MISMATCH (R501). -/
  mismatch : Bool := false
  /-- IN_GRACE (R501). -/
  inGrace : Bool := false
  /-- time-stamp counter at the latest configuration write (R501). -/
  lastWrite : Word64 := 0
  /-- time of the latest configuration write (R495). The model's own (log 2). -/
  lastWriteNs : Nat := 0
  /-- LOCK (R501). -/
  lock : Bool := false
  /-- (block, offset) mismatched and not written since (R491). -/
  bad : List (Nat × Nat) := []
  /-- (block, offset) mismatched since their block was fenced: what the fence concerns (R490). -/
  hit : List (Nat × Nat) := []
  /-- FENCED (R501). -/
  fenced : Nat := 0
  /-- (block, offset) of staged copies that mismatched (R492). -/
  stagedBad : List (Nat × Nat) := []
deriving DecidableEq, Repr

/-- Pace and the governor. -/
structure Pace where
  /-- PACE_NOW (R34). -/
  now : Nat := 0
  /-- paces of the most recent 1,024 ticks, latest first (R34). -/
  hist : List Nat := []
  /-- BELOW_FULL (R34). -/
  below : Bool := false
  /-- state last posted (true: PACE_LOW) (R39). -/
  lastBelow : Bool := false
  /-- PACE_LOW is held off (R39). -/
  holdLow : Bool := false
  /-- PACE_RESTORED is held off (R39). -/
  holdRest : Bool := false
  /-- VDD_REQ (R34). -/
  vdd : Nat := 0
  /-- an AVSBus request is outstanding (R37). -/
  avsOut : Bool := false
  /-- waiting out the 100 ms after an AVSBus fault (R38). -/
  avsHold : Bool := false
deriving DecidableEq, Repr

/-- One HBM stack. -/
structure HbmT where
  /-- case temperature in 0.5 degree (R516). -/
  temp : Int := 0
  /-- refresh rate doubled (R516). -/
  fast : Bool := false
  /-- throttled (R516). -/
  throttled : Bool := false
  /-- bandwidth cap in percent (R516). -/
  cap : Nat := 100
  /-- shut down (R516). -/
  shut : Bool := false
  /-- failed (R420). -/
  failed : Bool := false
  /-- HBM_THROTTLE is held off (R516). -/
  holdT : Bool := false
  /-- HBM_THROTTLE_END is held off (R516). -/
  holdE : Bool := false
  /-- the event last told is HBM_THROTTLE (R516). -/
  lastOn : Bool := false
  /-- cap last told (R516). -/
  lastCap : Nat := 100
deriving DecidableEq, Repr

/-- Temperatures. -/
structure Therm where
  /-- TJ_MAX in 0.5 degree (R34). -/
  tjMax : Int := 0
  /-- last raw readings, in 1/16 degree (R457). -/
  raw : List Int := []
  /-- effective values of the voltage monitors, as they apply since the last tick (R457). -/
  vmEff : List Word64 := []
  /-- THERMTRIP_N driven low (R515). -/
  trip : Bool := false
  /-- HBM0 (R516). -/
  hbm0 : HbmT := {}
  /-- HBM1 (R516). -/
  hbm1 : HbmT := {}
deriving DecidableEq, Repr

/-- Test access port. -/
structure Jtag where
  /-- instruction last shifted in (R511). Reset: DESIGN CHOICE (log 1). -/
  ir : JtagIr := .idcode
  /-- SYS_RST_N is low (R511). Reset: DESIGN CHOICE (log 1). -/
  rstLow : Bool := false
deriving DecidableEq, Repr

/-- The whole device. -/
structure Dev where
  /-- management time base (R40). -/
  clk : Clk := {}
  /-- fuses (R485). -/
  fuse : Fuse := {}
  /-- straps (R435). -/
  strap : Strap := {}
  /-- host ports (absent: as at reset) (R44). -/
  hp : Tbl HostPort := []
  /-- functions by port x 256 + number (absent: as at reset) (R46). -/
  fns : Tbl Fn := []
  /-- memory regions and translation (R97). -/
  xl : Xl := {}
  /-- transport (R112). -/
  xpt : Xpt := {}
  /-- tagged matching (R162). -/
  mtc : Mtc := {}
  /-- engines (R187). -/
  eng : Eng := {}
  /-- collectives (R194). -/
  tre : Tre := {}
  /-- fabric routing (R238). -/
  rt : Rt := {}
  /-- fabric ports (absent: as at reset) (R304). -/
  ports : Tbl Port := []
  /-- traffic control (R343). -/
  tc : Tc := {}
  /-- service network and fabric manager (R348). -/
  svc : Svc := {}
  /-- fabric time (R368). -/
  ft : Ft := {}
  /-- metering island (R381). -/
  isl : Isl := {}
  /-- fault collector (R411). -/
  flt : Flt := {}
  /-- resets, boot and firmware (R443). -/
  boot : Boot := {}
  /-- operating mode (R5). -/
  mode : Mode := .configure
  /-- mode changes and requests (R458). -/
  modeSt : ModeSt := {}
  /-- performance monitor (R480). -/
  pmu : Pmu := {}
  /-- Inkwell (R481). -/
  ink : Ink := {}
  /-- configuration integrity (R500). -/
  cfg : Cfg := {}
  /-- pace and the governor (R34). -/
  pace : Pace := {}
  /-- temperatures (R514). -/
  therm : Therm := {}
  /-- test access port (R511). -/
  jtag : Jtag := {}
  /-- configuration registers in force, by base-copy offset (absent: reset value) (R484). -/
  regs : Tbl Word64 := []
  /-- staged configuration registers, by base-copy offset (absent: as in force) (R497). -/
  stg : Tbl Word64 := []
  /-- what the device has sent to the outside, oldest first (R68). The model's own (log 2). -/
  out : List Out := []
  /-- free values used so far (R207). The model's own (log 2). -/
  free : Nat := 0
  /-- owner port in force (R48). -/
  ownerPort : Fin 4 := 0
deriving DecidableEq, Repr

/-- The machine: the device, its mirrors as the last management tick left them (R487), and the commands waiting. -/
structure State where
  dev     : Dev := {}
  mir     : Dev := {}
  pending : List Instr := []
deriving DecidableEq, Repr

/-- Why a command stops the machine with a fault: none does; the type is kept for the host's interface.
Safe: nothing raises it. -/
inductive Fault where
  /-- raised by nothing; safe -/
  | unused
deriving DecidableEq, Repr

/-- Why a command is refused. -/
inductive Refusal where
  /-- the command has no meaning yet; raised by Dispatch alone; safe -/
  | notModelled (mnemonic : String)
deriving DecidableEq, Repr

/-- The machine straight after power-on reset, before its boot has verified a slot: nothing queued, every register at
its reset value (R435, R443). -/
def State.reset : State := {}

end Sys2Proof.Machine
end

