-- ==== Sys2Proof/Machine/Codes.lean ====
section
/-!
DEFINITION. The registries of codes: statuses, events, packet and message types, modes, fault sources and causes.
-/
namespace Sys2Proof.Machine

open Sys2Proof

/-- Completion status codes (R84). -/
def statusCode : Status → Byte
  | .success => 0x00 | .busy => 0x01 | .invalidOpcode => 0x02 | .invalidParam => 0x03 | .numberInUse => 0x04
  | .notFound => 0x05 | .noResources => 0x06 | .ownership => 0x07 | .notPermitted => 0x08 | .domainUnset => 0x09
  | .modeRefused => 0x0A | .meterRefused => 0x0B
  | .sqSeqMismatch => 0x10 | .ringReadError => 0x11 | .flushed => 0x12
  | .keyInvalid => 0x20 | .accessDenied => 0x21 | .bounds => 0x22 | .walkError => 0x23 | .walkTargetDevice => 0x24
  | .hostDmaError => 0x25
  | .remoteAccess => 0x30 | .remoteFuncReset => 0x31 | .retryExceeded => 0x32 | .rnrExceeded => 0x33
  | .destDown => 0x34 | .connError => 0x35 | .policed => 0x36 | .truncated => 0x37
  | .matchCtxInvalid => 0x38 | .engineLost => 0x39
  | .treeFault => 0x40 | .treeTimeout => 0x41 | .treeInvalid => 0x42

/-- Event codes (R85). -/
def evCode : EvCode → Word16
  | .dbOverrun => 0x0001 | .sqHalted => 0x0002 | .cqStalled => 0x0003 | .cqResumed => 0x0004
  | .eqOverflowed => 0x0005
  | .translationMark => 0x0010 | .walkTargetDevice => 0x0011
  | .connBroken => 0x0020 | .remoteFuncReset => 0x0021
  | .engineGrafted => 0x0030 | .engineLost => 0x0031
  | .portDown => 0x0040 | .portUp => 0x0041 | .portWidth => 0x0042
  | .paceLow => 0x0050 | .paceRestored => 0x0051 | .hbmThrottle => 0x0052 | .hbmThrottleEnd => 0x0053
  | .modeChanged => 0x0054 | .faultRecorded => 0x0055
  | .meterHold => 0x0060 | .meterReleased => 0x0061

/-- The class of an event (R75, R85). -/
def evClass : EvCode → Nat
  | .dbOverrun | .sqHalted | .cqStalled | .cqResumed | .eqOverflowed => 0
  | .translationMark | .walkTargetDevice => 1
  | .connBroken | .remoteFuncReset => 2
  | .engineGrafted | .engineLost => 3
  | .portDown | .portUp | .portWidth => 4
  | .paceLow | .paceRestored | .hbmThrottle | .hbmThrottleEnd | .modeChanged | .faultRecorded => 5
  | .meterHold | .meterReleased => 6

/-- Packet types (R121, R210). -/
def ptPut : Byte := 0x01
def ptPutFlag : Byte := 0x02
def ptGetReq : Byte := 0x03
def ptGetResp : Byte := 0x04
def ptAtomicReq : Byte := 0x05
def ptSend : Byte := 0x06
def ptNote : Byte := 0x07
def ptTreeUp : Byte := 0x10
def ptTreeDown : Byte := 0x11
def ptUpCredit : Byte := 0x12
def ptDownCredit : Byte := 0x13
def ptTreeAck : Byte := 0x14
def ptTreeDone : Byte := 0x15
def ptTreeAbort : Byte := 0x16

/-- Transport Nib message types (R136). -/
def ntAck : Byte := 0x80
def ntNak : Byte := 0x81
def ntRnrNak : Byte := 0x82
def ntAccessNak : Byte := 0x83
def ntAtomicResp : Byte := 0x84
def ntConnReset : Byte := 0x85
def ntFuncReset : Byte := 0x86
def ntDestDown : Byte := 0x87

/-- Receiver-not-ready reasons with the wait each carries in microseconds (R143). -/
inductive Rnr where
  | cqFull | mark | parked | contextMoved | missFull | flagHoldFull | unexpectedFull | grafting
deriving DecidableEq, Repr

/-- REASON code of a receiver-not-ready refusal (R143). -/
def rnrCode : Rnr → Byte
  | .cqFull => 1 | .mark => 2 | .parked => 3 | .contextMoved => 4 | .missFull => 5 | .flagHoldFull => 6
  | .unexpectedFull => 7 | .grafting => 8

/-- Minimum wait of a receiver-not-ready refusal, in microseconds (R143). -/
def rnrWaitUs : Rnr → Nat
  | .cqFull => 100 | .mark => 50 | .parked => 1000 | .contextMoved => 5 | .missFull => 5 | .flagHoldFull => 5
  | .unexpectedFull => 100 | .grafting => 200

/-- Connection state codes (R115). -/
def connStCode : ConnSt → Nat
  | .active => 1 | .error => 2 | .parked => 3

/-- Fault causes (R415). -/
def caStall : Nat := 0x01
def caEccUncorr : Nat := 0x02
def caEccCorr : Nat := 0x03
def caParity : Nat := 0x04
def caRegParity : Nat := 0x05
def caProtocol : Nat := 0x06
def caDomain : Nat := 0x07
def caLinkDown : Nat := 0x08
def caLaneOut : Nat := 0x09
def caWalkTarget : Nat := 0x0A
def caPcie : Nat := 0x0B
def caAvsbus : Nat := 0x0C
def caCfgCrc : Nat := 0x0D
def caReportPath : Nat := 0x0E
def caWatchdog : Nat := 0x0F
def caThermal : Nat := 0x10
def caTakeover : Nat := 0x11
def caTapStall : Nat := 0x12
def caHbmStack : Nat := 0x13
def caForced : Nat := 0xFF

/-- Fault source numbers (R414). -/
def srcLink (p : Nat) : Nat := p
def srcCheck (p : Nat) : Nat := 0x40 + p
def srcLane (p : Nat) : Nat := 0x80 + p
def srcMpe (k : Nat) : Nat := 0xC0 + k
def srcTu (k : Nat) : Nat := 0xE8 + k
def srcPcie (n : Nat) : Nat := 0xF0 + n
def srcDomain (n : Nat) : Nat := 0xF4 + n
def srcXl (i : Nat) : Nat := 0xF8 + i
def srcMem (k : Nat) : Nat := 0x100 + k
def srcHbm (n : Nat) : Nat := 0x104 + n
def srcTile (x y : Nat) : Nat := 0x108 + 8 * y + x
def srcQuill : Nat := 0x148
def srcTables : Nat := 0x149
def srcAvsbus : Nat := 0x14A
def srcReportPath : Nat := 0x14B
def srcCfgCrc : Nat := 0x14C
def srcThermtrip : Nat := 0x14D
def srcMgr : Nat := 0x14E
def srcRegParity (b : Nat) : Nat := 0x150 + b
def srcSvc (n : Nat) : Nat := 0x160 + n
def srcTap (k : Nat) : Nat := 0x168 + k

end Sys2Proof.Machine
end

