-- ==== Sys2Proof/Machine/Ops.lean ====
section
/-!
DEFINITION. The named operations over bits, tables and functions, over completion and event queues, over host
memory accesses and over fault records: what every command's meaning is made of.
-/
namespace Sys2Proof.Machine

open Sys2Proof

/-! ### Bits and bytes (R9, R10) -/

/-- Bit i of a word. -/
def bit (w : Word64) (i : Nat) : Bool := w.getLsbD i

/-- The field of n bits of w from bit lo. -/
def fld (w : Word64) (lo n : Nat) : Nat := (w.toNat >>> lo) % 2 ^ n

/-- A field value moved to bit lo. -/
def ins (lo v : Nat) : Word64 := BitVec.ofNat 64 (v <<< lo)

/-- 1 for true, 0 for false. -/
def b2n (b : Bool) : Nat := if b then 1 else 0

/-- The n low bytes of v, least significant first (R10). -/
def leBytes : Nat → Nat → List Byte
  | 0, _ => []
  | n + 1, v => BitVec.ofNat 8 v :: leBytes n (v / 256)

/-- The number a little-endian list of bytes spells (R10). -/
def leNat : List Byte → Nat
  | [] => 0
  | b :: bs => b.toNat + 256 * leNat bs

/-- Saturating addition. -/
def satAdd (cap a b : Nat) : Nat := min cap (a + b)

/-- A signed field of n bits. -/
def signed (n v : Nat) : Int := if v < 2 ^ (n - 1) then (v : Int) else (v : Int) - (2 ^ n : Nat)

end Sys2Proof.Machine

namespace Sys2Proof

/-- The eight words of a descriptor, by byte offset / 8. -/
def Desc.word (d : Desc) : Nat → Word64
  | 0 => d.w0 | 1 => d.w1 | 2 => d.w2 | 3 => d.w3 | 4 => d.w4 | 5 => d.w5 | 6 => d.w6 | _ => d.w7

/-- The field of n bits at byte offset off, bit lo, of a 64-byte entry (R11). -/
def Desc.f (d : Desc) (off lo n : Nat) : Nat := Machine.fld (d.word (off / 8)) lo n

end Sys2Proof

namespace Sys2Proof.Machine

open Sys2Proof

/-! ### Sparse tables -/

/-- The entry of a key. -/
def tget {α : Type} : Tbl α → Nat → Option α
  | [], _ => none
  | (k, v) :: t, i => if i = k then some v else tget t i

/-- The table with the entry of a key set, keys kept rising. -/
def tput {α : Type} : Tbl α → Nat → α → Tbl α
  | [], i, x => [(i, x)]
  | (k, v) :: t, i, x =>
    if i < k then (i, x) :: (k, v) :: t
    else if i = k then (i, x) :: t
    else (k, v) :: tput t i x

/-- The table without the entry of a key. -/
def tdel {α : Type} : Tbl α → Nat → Tbl α
  | [], _ => []
  | (k, v) :: t, i => if i = k then t else (k, v) :: tdel t i

/-- The table with the entry of a key changed, where it has one. -/
def tmod {α : Type} (t : Tbl α) (i : Nat) (g : α → α) : Tbl α :=
  match tget t i with
  | some x => tput t i (g x)
  | none => t

/-- True where the key has an entry. -/
def thas {α : Type} (t : Tbl α) (i : Nat) : Bool := (tget t i).isSome

/-- The least number from lo, at most fuel numbers on, that p accepts. -/
def leastFrom (p : Nat → Bool) : Nat → Nat → Option Nat
  | 0, _ => none
  | fuel + 1, lo => if p lo then some lo else leastFrom p fuel (lo + 1)

/-! ### Counters that a read clears (R488) -/

/-- Count n more. -/
def CorCnt.add (c : CorCnt) (n : Nat) : CorCnt := { c with since := c.since + n }

/-- The tick's sample: what was counted since joins what is held, saturating. -/
def CorCnt.tick (cap : Nat) (c : CorCnt) : CorCnt := { sampled := satAdd cap c.sampled c.since, since := 0 }

/-! ### Functions and host ports -/

/-- Table key of a function. -/
def fnKey (f : FnId) : Nat := f.port.val * 256 + f.num.val

/-- The function of a table key. -/
def fnOfKey (k : Nat) : FnId := { port := Fin.ofNat 4 (k / 256), num := Fin.ofNat 256 k }

/-- The function's state. -/
def getFn (d : Dev) (f : FnId) : Fn := (tget d.fns (fnKey f)).getD {}

/-- Set the function's state. -/
def setFn (f : FnId) (x : Fn) (d : Dev) : Dev := { d with fns := tput d.fns (fnKey f) x }

/-- Change the function's state. -/
def updFn (f : FnId) (g : Fn → Fn) (d : Dev) : Dev := setFn f (g (getFn d f)) d

/-- A host port's state. -/
def getHp (d : Dev) (p : Fin 4) : HostPort := (tget d.hp p.val).getD {}

/-- Change a host port's state. -/
def updHp (p : Fin 4) (g : HostPort → HostPort) (d : Dev) : Dev := { d with hp := tput d.hp p.val (g (getHp d p)) }

/-- The physical function of a port (R46). -/
def pfOf (p : Fin 4) : FnId := { port := p, num := 0 }

/-- A function exists: a physical function always, a virtual function as R520 says. -/
def fnExists (d : Dev) (f : FnId) : Bool :=
  f.num.val = 0 || ((getHp d f.port).vfEnable && decide (f.num.val ≤ (getHp d f.port).numVfs))

/-- All functions that hold state, by key. -/
def fnKeys (d : Dev) : List Nat := d.fns.map (·.1)

/-- The endpoint address of a function of this router (R20). -/
def epOf (coord : Nat) (f : FnId) : Ep := BitVec.ofNat 26 (coord * 1024 + f.port.val * 256 + f.num.val)

/-- The router coordinate of an endpoint address (R20). -/
def epCoord (e : Ep) : Nat := e.toNat / 1024

/-- The function of an endpoint address, at its router (R20). -/
def epFn (e : Ep) : FnId := { port := Fin.ofNat 4 (e.toNat / 256), num := Fin.ofNat 256 e.toNat }

/-! ### Outputs -/

/-- Send something to the outside world. (DESIGN CHOICE, log entry 15) -/
def emit (o : Out) (d : Dev) : Dev := { d with out := d.out ++ [o] }

/-- A function's DMA is stopped: in Quarantine (R410 step 4), or in a function-level reset (R81 step 2).
(DESIGN CHOICE, log entry 35) -/
def dmaStopped (d : Dev) (f : FnId) : Bool := d.mode = .quarantine || (getFn d f).inFlr

/-- A posted write by the device for a function (R45). -/
def hostWrite (f : FnId) (half : Bool) (addr : Nat) (bs : List Byte) (relaxed : Bool) (d : Dev) : Dev :=
  if dmaStopped d f then d else emit (.hostWrite f.port half addr bs relaxed) d

/-- Word i of a function's MSI-X table, each vector masked until the host clears its mask bit (R53).
(PRESUMED, log entry 34) -/
def msixWord (x : Fn) (i : Nat) : Word64 := (tget x.msix i).getD (if i % 2 = 1 then 0x100000000 else 0)

/-- A vector is masked, by itself or with the whole function. (PRESUMED, log entry 34) -/
def msixMasked (x : Fn) (vec : Nat) : Bool := x.msixMask || (msixWord x (2 * vec + 1)).getLsbD 32

/-- An MSI-X interrupt of a function with MSI-X enabled: a message, or the pending bit of a masked vector (R44, R53).
(PRESUMED, log entry 34) -/
def fire (f : FnId) (vec : Nat) (d : Dev) : Dev :=
  let x := getFn d f
  if dmaStopped d f || !x.msixEn then d
  else if msixMasked x vec then setFn f { x with pba := x.pba ||| BitVec.ofNat 2048 (2 ^ vec) } d
  else emit (.msix f vec) d

/-- Vectors that are pending and no longer masked send their messages. (PRESUMED, log entry 34) -/
def firePending (f : FnId) (d : Dev) : Dev :=
  let x := getFn d f
  if dmaStopped d f || !x.msixEn || x.pba = 0 then d
  else
    let due := (List.range 2048).filter fun v => x.pba.getLsbD v && !msixMasked x v
    due.foldl (fun d v => emit (.msix f v) d)
      (setFn f { x with pba := due.foldl (fun b v => b &&& ~~~ BitVec.ofNat 2048 (2 ^ v)) x.pba } d)

/-- The host is told of an uncorrectable error through Advanced Error Reporting: the status bit is set, and a message goes
out unless it is masked (R83). (PRESUMED, log entry 127) -/
def aerReport (f : FnId) (n : Nat) (d : Dev) : Dev :=
  let x := getFn d f
  let d1 := setFn f { x with pci := { x.pci with aerStatus := x.pci.aerStatus ||| BitVec.ofNat 32 (2 ^ n) } } d
  if x.pci.aerMask.getLsbD n then d1 else emit (.aer f n) d1

/-- Note an occurrence of a counted event; the tick counts it (R460, R462). -/
def occur (o : Occ) (d : Dev) : Dev := { d with pmu := { d.pmu with occs := d.pmu.occs ++ [o] } }

/-- Put an increment of a metered quantity in its tile's accumulator: 0 BYTES_TX, 1 BYTES_RX, 2 RMA_OPS, 3 COLL_OPS
(R382, R388). -/
def tally (f : FnId) (what n : Nat) (d : Dev) : Dev :=
  { d with isl := { d.isl with acc := d.isl.acc ++ [{ fn := f, dom := (getFn d f).domain, what := what, n := n }] } }

/-- A fresh free value (log entry 3). -/
def takeFree (d : Dev) : Word64 × Dev := (Config.freeWord d.free, { d with free := d.free + 1 })

/-! ### Rings (R63, R68) -/

/-- Slot of count k in a ring of 2^log2 entries (R63). -/
def ringSlot (log2 : Nat) (k : Word32) : Nat := k.toNat % 2 ^ log2

/-- Phase bit of count k (R63): 1 xor (lap mod 2). -/
def ringPhase (log2 : Nat) (k : Word32) : Bool := decide (k.toNat / 2 ^ log2 % 2 = 0)

/-- Free entries of a ring the device fills: N - (written - returned) (R68). -/
def ringFree (log2 : Nat) (w h : Word32) : Nat := 2 ^ log2 - (w - h).toNat

/-- The bytes of a completion entry with its phase (R74). -/
def cqeBytes (e : Cqe) (phase : Bool) : List Byte :=
  leBytes 8 e.userCtx.toNat ++ leBytes 8 e.tag.toNat ++ leBytes 4 e.len.toNat ++ leBytes 4 e.source.toNat
  ++ leBytes 1 (statusCode e.status).toNat ++ leBytes 1 e.opcode.toNat ++ leBytes 2 e.queue.toNat
  ++ leBytes 4 (e.conn.toNat + b2n phase * 2 ^ 31)

/-- The bytes of an event entry with its phase (R75). -/
def eqeBytes (e : Eqe) (phase : Bool) : List Byte :=
  leBytes 2 (evCode e.code).toNat ++ leBytes 2 (evClass e.code) ++ leBytes 4 e.object.toNat
  ++ leBytes 8 e.infoA.toNat ++ leBytes 8 e.time.toNat
  ++ leBytes 8 (e.infoB.toNat % 2 ^ 63 + b2n phase * 2 ^ 63)

/-! ### Events (R75, R76) -/

/-- Merge an event of class c into FN_STAT; the error vector fires only on the class bit's rise (R55, R76). -/
def mergeEvent (f : FnId) (c : Nat) (d : Dev) : Dev :=
  let x := getFn d f
  let d1 := setFn f { x with
    statClass := x.statClass ||| BitVec.ofNat 7 (2 ^ c)
    statNew := x.statNew ||| BitVec.ofNat 7 (2 ^ c)
    statMerged := if x.statMerged = 0xFFFF then 0xFFFF else x.statMerged + 1 } d
  if !x.statClass.getLsbD c && x.errEn then fire f x.errVec d1 else d1

/-- FN_STAT as a register word (R55). -/
def fnStatWord (x : Fn) : Word64 := ins 48 x.statMerged.toNat ||| ins 0 x.statClass.toNat

/-- Write one event entry into an event queue that has room (R68, R69). -/
def writeEqe (f : FnId) (q : Nat) (e : Eqe) (d : Dev) : Dev :=
  let x := getFn d f
  match tget x.eqs q with
  | none => d
  | some r =>
    let d1 := hostWrite f r.link (r.ring.toNat + 32 * ringSlot r.log2 r.w)
      (eqeBytes e (ringPhase r.log2 r.w)) false d
    let d2 := updFn f (fun x => { x with eqs := tput x.eqs q { r with w := r.w + 1, arm := false } }) d1
    if r.ien || r.arm then fire f r.vec d2 else d2

/-- The event queue of a class has a free entry. -/
def canPost (d : Dev) (f : FnId) (c : Nat) : Bool :=
  let x := getFn d f
  match tget x.subs c with
  | none => false
  | some q =>
    match tget x.eqs q with
    | none => false
    | some r => decide (0 < ringFree r.log2 r.w r.h)

/-- Post an event to a function, or merge it (R76). Nothing is posted or merged where DMA is stopped. -/
def postEvent (f : FnId) (code : EvCode) (object : Word32) (a b : Word64) (d : Dev) : Dev :=
  if dmaStopped d f || !fnExists d f then d
  else
    let x := getFn d f
    let c := evClass code
    match tget x.subs c with
    | none => mergeEvent f c d
    | some q =>
      match tget x.eqs q with
      | none => mergeEvent f c d
      | some r =>
        if 0 < ringFree r.log2 r.w r.h then
          writeEqe f q { code := code, object := object, infoA := a, infoB := b, time := d.clk.tsc } d
        else
          mergeEvent f c (setFn f { x with eqs := tput x.eqs q { r with missed := true } } d)

/-- The owner function: bus mastering on, the link up, named by OWNER_PORT (R48). -/
def regInForce (d : Dev) (off reset : Nat) : Word64 := (tget d.regs off).getD (BitVec.ofNat 64 reset)

/-- The owner port in force. -/
def ownerPort (d : Dev) : Fin 4 := d.ownerPort

/-- The device has an owner function (R48); in Transit it is headless (R448). -/
def hasOwner (d : Dev) : Bool :=
  d.mode ≠ .transit && (getHp d (ownerPort d)).linkUp && (getFn d (pfOf (ownerPort d))).busMaster

/-- A function is the owner function (R48). -/
def isOwner (d : Dev) (f : FnId) : Bool := hasOwner d && decide (f = pfOf (ownerPort d))

/-- Post an event to the owner function, if there is one (R423). -/
def postOwner (code : EvCode) (object : Word32) (a b : Word64) (d : Dev) : Dev :=
  if hasOwner d then postEvent (pfOf (ownerPort d)) code object a b d else d

/-- Post a device-wide event to every function subscribed to its class (R39). -/
def postSubscribed (code : EvCode) (object : Word32) (a b : Word64) (d : Dev) : Dev :=
  (fnKeys d).foldl (fun d k =>
    if (tget (getFn d (fnOfKey k)).subs (evClass code)).isSome then postEvent (fnOfKey k) code object a b d else d) d

/-! ### Completions (R68, R69, R74, R77) -/

/-- The ring has no free entry. -/
def cqFull (q : Cq) : Bool := decide (ringFree q.log2 q.w q.h = 0)

/-- Write one completion entry into a completion queue that has room, with its interrupt (R68, R69). An interrupt that ARM
brings clears the pending count too, and entries the host has taken meanwhile still count. (DESIGN CHOICE, log entry 131) -/
def writeCqe (f : FnId) (n : Nat) (e : Cqe) (d : Dev) : Dev :=
  let x := getFn d f
  match tget x.cqs n with
  | none => d
  | some q =>
    let d1 := hostWrite f q.link (q.ring.toNat + 32 * ringSlot q.log2 q.w)
      (cqeBytes e (ringPhase q.log2 q.w)) e.relaxed d
    let due := q.ien && decide (max 1 q.coalCount ≤ q.pend + 1)
    let q1 : Cq := { q with
      w := q.w + 1
      arm := false
      pend := if q.arm || due || !q.ien then 0 else q.pend + 1 }
    let q2 : Cq := if cqFull q1 then { q1 with stalled := false, stallPosted := false } else q1
    let d2 := updFn f (fun x => { x with cqs := tput x.cqs n q2 }) d1
    if q.arm || due then fire f q.vec d2 else d2

/-- One operation in flight towards the queue fewer (R77). -/
def cqRelease (f : FnId) (n : Nat) (d : Dev) : Dev :=
  updFn f (fun x => { x with cqs := tmod x.cqs n fun q => { q with inflight := q.inflight - 1 } }) d

/-- One operation in flight towards the queue more (R77). -/
def cqReserve (f : FnId) (n : Nat) (d : Dev) : Dev :=
  updFn f (fun x => { x with cqs := tmod x.cqs n fun q => { q with inflight := q.inflight + 1 } }) d

/-- Post a completion: into the ring, or into the completion buffer while the queue is full (R78). `op` tells
whether it ends an operation counted in flight (R77). Notifications and FLUSHED completions join the buffer whatever its
length. (DESIGN CHOICE, log entry 133) -/
def postCqe (f : FnId) (n : Nat) (op : Bool) (e : Cqe) (d : Dev) : Dev :=
  if dmaStopped d f then d
  else
    match tget (getFn d f).cqs n with
    | none => d
    | some q =>
      if cqFull q || !q.buf.isEmpty then
        updFn f (fun x => { x with cqs := tput x.cqs n { q with buf := q.buf ++ [(op, e)] } }) d
      else
        let d1 := writeCqe f n e d
        if op then cqRelease f n d1 else d1

/-- Write buffered completions while there is room (R78 step 6); fuel is the number buffered. -/
def drainCq (f : FnId) (n : Nat) : Nat → Dev → Dev
  | 0, d => d
  | fuel + 1, d =>
    match tget (getFn d f).cqs n with
    | none => d
    | some q =>
      match q.buf with
      | [] => d
      | (op, e) :: rest =>
        if cqFull q then d
        else
          let d1 := updFn f (fun x => { x with cqs := tput x.cqs n { q with buf := rest } }) d
          let d2 := writeCqe f n e d1
          drainCq f n fuel (if op then cqRelease f n d2 else d2)

/-- What a function-level reset leaves in the open block: the function was reset in it (R390). -/
def noteFlr (f : FnId) (d : Dev) : Dev :=
  let note := fun (b : MBlock) => if b.flrFns.contains (fnKey f) then b else { b with flrFns := b.flrFns ++ [fnKey f] }
  { d with isl := { d.isl with opened := d.isl.opened.map note } }

/-- Write an entry to the admin completion ring, or hold it in the admin completion slot (R58). -/
def writeAcq (f : FnId) (e : Cqe) (d : Dev) : Dev :=
  let x := getFn d f
  let d1 := hostWrite f false (x.acqBase.toNat + 32 * ringSlot x.acqLog2 x.acqW)
    (cqeBytes e (ringPhase x.acqLog2 x.acqW)) false d
  let d2 := updFn f (fun x => { x with acqW := x.acqW + 1, acqArm := false }) d1
  if x.acqIen || x.acqArm then fire f x.acqVec d2 else d2

/-- Post an admin completion (R58, R59); while the ring is full every one is held, more than one where several end at once.
(DESIGN CHOICE, log entry 132) -/
def postAcq (f : FnId) (e : Cqe) (d : Dev) : Dev :=
  if dmaStopped d f then d
  else
    let x := getFn d f
    if ringFree x.acqLog2 x.acqW x.acqH = 0 || !x.acqSlot.isEmpty then
      setFn f { x with acqSlot := x.acqSlot ++ [e] } d
    else writeAcq f e d

/-- Write held admin completions while there is room (R58). -/
def drainAcq (f : FnId) : Nat → Dev → Dev
  | 0, d => d
  | fuel + 1, d =>
    let x := getFn d f
    match x.acqSlot with
    | [] => d
    | e :: rest =>
      if ringFree x.acqLog2 x.acqW x.acqH = 0 then d
      else drainAcq f fuel (writeAcq f e (setFn f { x with acqSlot := rest } d))

/-- Write the consumed-count write-back word of a submission queue (R66). -/
def writeBack (f : FnId) (n : Nat) (d : Dev) : Dev :=
  match tget (getFn d f).sqs n with
  | none => d
  | some q =>
    if q.c = q.lastWb then d
    else updFn f (fun x => { x with sqs := tput x.sqs n { q with lastWb := q.c } })
      (hostWrite f q.link q.wb.toNat (leBytes 4 q.c.toNat) false d)

end Sys2Proof.Machine
end

