-- ==== Sys2Proof/Machine/Flags.lean ====
section
/-!
DEFINITION. Check words and computed flags: the CRCs, parity, and the header words they cover.
-/
namespace Sys2Proof.Machine

open Sys2Proof

/-- One reflected CRC step of a 32-bit register over one bit position (R122). -/
def crc32Step (poly c : Word32) : Word32 := if c.getLsbD 0 then (c >>> 1) ^^^ poly else c >>> 1

/-- Eight reflected steps over one byte. -/
def crc32Byte (poly c : Word32) (b : Byte) : Word32 :=
  let c := c ^^^ b.setWidth 32
  let s := crc32Step poly
  s (s (s (s (s (s (s (s c)))))))

/-- CRC-32C of a list of bytes (R122): Castagnoli polynomial 0x1EDC_6F41 reflected, initial value and final
exclusive-or 0xFFFF_FFFF. -/
def crc32c (bs : List Byte) : Word32 := ~~~ (bs.foldl (crc32Byte 0x82F63B78) 0xFFFFFFFF)

/-- The routing header's sixteen bytes for a packet of the given length (R119). -/
def rhdrBytes (h : RHdr) (len : Nat) : List Byte :=
  leBytes 8 (h.dest.toNat + h.src.toNat * 2 ^ 26 + h.hop.toNat * 2 ^ 52 + h.detour.toNat * 2 ^ 55
    + b2n h.epoch * 2 ^ 59 + b2n h.resp * 2 ^ 60 + b2n h.det * 2 ^ 61 + h.rsv.toNat % 4 * 2 ^ 62)
  ++ leBytes 8 (h.domain.toNat + h.age.toNat * 2 ^ 16 + h.tc.toNat * 2 ^ 24 + h.rsv.toNat / 4 % 32 * 2 ^ 27 + len * 2 ^ 32
    + h.rsv.toNat / 128 * 2 ^ 45)

/-- The routing header with HOP, DETOUR and AGE taken as 0 (R122). -/
def rhdrZero (h : RHdr) : RHdr := { h with hop := 0, detour := 0, age := 0 }

/-- A data packet's length in bytes (R119, R120). -/
def pktLen (p : Packet) : Nat := 52 + p.payload.length

/-- A data packet's bytes but for its CRC (R119, R120), under the given routing header. -/
def pktBody (h : RHdr) (p : Packet) : List Byte :=
  rhdrBytes h (pktLen p)
  ++ leBytes 8 (p.ptype.toNat + p.conn.toNat * 2 ^ 8 + p.psn.toNat * 2 ^ 32 + b2n p.first * 2 ^ 56
      + b2n p.last * 2 ^ 57 + b2n p.retx * 2 ^ 58 + b2n p.void * 2 ^ 59 + p.rsv.toNat % 16 * 2 ^ 60)
  ++ leBytes 8 (p.msn.toNat + p.rsv.toNat / 16 * 2 ^ 24 + p.offset.toNat * 2 ^ 32)
  ++ leBytes 8 p.va.toNat
  ++ leBytes 8 (p.key.toNat + p.aux.toNat * 2 ^ 32)
  ++ p.payload

/-- The CRC-32C a data packet must carry (R122). -/
def pktCrc (p : Packet) : Word32 := crc32c (pktBody (rhdrZero p.rh) p)

/-- A data packet with its CRC put in, as the source computes it. -/
def sealPkt (p : Packet) : Packet := { p with crc := pktCrc p }

/-- A data packet's bytes on the wire. -/
def pktBytes (p : Packet) : List Byte := pktBody p.rh p ++ leBytes 4 p.crc.toNat

/-- A Nib message's first 24 bytes (R135). -/
def nibBody (n : Nib) : List Byte :=
  leBytes 8 (n.dest.toNat + n.hop.toNat * 2 ^ 26 + b2n n.epoch * 2 ^ 29 + n.detour.toNat * 2 ^ 30
    + n.age.toNat * 2 ^ 34 + n.rsv.toNat * 2 ^ 42 + n.domain.toNat * 2 ^ 48)
  ++ leBytes 8 (n.ntype.toNat + n.conn.toNat * 2 ^ 8 + n.psn.toNat * 2 ^ 32 + n.reason.toNat * 2 ^ 56)
  ++ leBytes 8 n.value.toNat

/-- The CRC-32C a Nib message must carry (R135). -/
def nibCrc (n : Nib) : Word32 := crc32c (nibBody { n with hop := 0, detour := 0, age := 0 })

/-- A Nib message with its CRC put in. -/
def sealNib (n : Nib) : Nib := { n with crc := nibCrc n }

/-- A Nib message's 32 bytes (R135). -/
def nibBytes (n : Nib) : List Byte := nibBody n ++ leBytes 4 n.crc.toNat ++ leBytes 4 n.info.toNat

/-- A tree packet's bytes but for its CRC (R208, R209), under the given routing header. -/
def treeBody (h : RHdr) (t : TreePkt) : List Byte :=
  rhdrBytes h (52 + t.payload.length)
  ++ leBytes 8 (t.ptype.toNat + t.tree.toNat * 2 ^ 8 + t.rsv.toNat % 2 * 2 ^ 22 + b2n t.null * 2 ^ 23 + t.flags.toNat * 2 ^ 24
      + t.chunk.toNat * 2 ^ 32)
  ++ leBytes 8 (t.opn.toNat + t.cop.toNat * 2 ^ 16 + t.elem.toNat * 2 ^ 24 + t.count.toNat * 2 ^ 32)
  ++ leBytes 8 (t.scale.toNat + b2n t.raw256 * 2 ^ 16 + b2n t.mismatch * 2 ^ 17 + t.rsv.toNat / 2 % 2 ^ 46 * 2 ^ 18)
  ++ leBytes 8 (t.rsv.toNat / 2 ^ 47)
  ++ t.payload

/-- The CRC-32C a tree packet must carry (R208). -/
def treeCrc (t : TreePkt) : Word32 := crc32c (treeBody (rhdrZero t.rh) t)

/-- A tree packet with its CRC put in. -/
def sealTree (t : TreePkt) : TreePkt := { t with crc := treeCrc t }

/-- A tree packet's bytes on the wire. -/
def treeBytes (t : TreePkt) : List Byte := treeBody t.rh t ++ leBytes 4 t.crc.toNat

/-- Exclusive-or of the low n bits of a word. -/
def parityBits : Nat → Nat → Bool
  | 0, _ => false
  | n + 1, v => xor (decide (v % 2 = 1)) (parityBits n (v / 2))

/-! ### The CRC-64 of flits and output hashes (R289, R474) -/

/-- One bit of the CRC-64, most significant bit first (R289). -/
def crc64Step (c : Word64) : Word64 := if c.getLsbD 63 then (c <<< 1) ^^^ 0x42F0E1EBA9EA3693 else c <<< 1

/-- One byte of the CRC-64. -/
def crc64Byte (c : Word64) (b : Byte) : Word64 :=
  let s := crc64Step
  s (s (s (s (s (s (s (s (c ^^^ (b.setWidth 64 <<< 56)))))))))

/-- CRC-64 of ECMA-182, not reflected, initial value and final exclusive-or all ones (R289). -/
def crc64 (bs : List Byte) : Word64 := ~~~ (bs.foldl crc64Byte 0xFFFFFFFFFFFFFFFF)

end Sys2Proof.Machine
end

