-- ==== Sys2Proof/Machine/Access.lean ====
section
/-!
DEFINITION. Writes of registers: who may make them (R49, R268, R370), which bits they bring (R13, R14), and what a write
of a configuration register means to the running checksum and the parity fences (R491, R493, R494).
-/
namespace Sys2Proof.Machine

open Sys2Proof

/-- A master may write the device-global registers (R49). -/
def mayWrite (d : Dev) : Master → Bool
  | .fn f => isOwner d f && !(getFn d f).inFlr && !(getFn d f).pci.d3
  | .fabricManager => true

/-- The bits a register write brings: value and mask (R14). (DEDUCED, log entry 13) -/
def wrBits : Wr → Word64 × Word64
  | .full v => (v, 0xFFFFFFFFFFFFFFFF)
  | .low v => (v.setWidth 64, 0xFFFFFFFF)
  | .high v => (v.setWidth 64 <<< 32, 0xFFFFFFFF00000000)

/-- A word with the writable bits a write reaches replaced. -/
def mergeWr (old rw : Word64) (w : Wr) : Word64 :=
  let b := wrBits w
  (old &&& ~~~ (rw &&& b.2)) ||| (b.1 &&& rw &&& b.2)

/-- A write made as its halves, low half first (R14). -/
def halfwise (g : Wr → Dev → Dev) (w : Wr) (d : Dev) : Dev :=
  match w with
  | .full v => g (.high ((v >>> 32).setWidth 32)) (g (.low (v.setWidth 32)) d)
  | _ => g w d

/-- Registers a 64-bit write of which takes effect whole: those marked 64-bit atomic (R380, R432, R500); EPOCH_CTL, whose fields
take effect in an order of their own (R257); SVC_RT_ADDR, one write of which starts one access (R379); and the meter export
block, where the island takes or ignores a write as one (R383). (DEDUCED, log entry 13) -/
def wholeWrite (off : Nat) : Bool :=
  off == 0x20000 || off == 0x60128 || off == 0x60210 || off == 0x70000 || decide (0x5000 ≤ off ∧ off < 0x6000)
  || decide (0x80000 ≤ off)

/-- A write of a register: whole where R14 says so, else low half first. -/
def byHalves (off : Nat) (g : Wr → Dev → Dev) (w : Wr) (d : Dev) : Dev :=
  if wholeWrite off then g w d else halfwise g w d

/-- The register block of a base-copy offset (R482); the meter export block has no number and answers 11. -/
def blockOf (off : Nat) : Nat :=
  if off < 0x1000 then 0 else if off < 0x4000 then 1 else if off < 0x8000 then 2 else if off < 0x10000 then 3
  else if off < 0x80000 then off / 0x10000 + 3 else 11

/-- Registers the checksum leaves out (R493). -/
def uncovered (off : Nat) : Bool :=
  [0x20010, 0x20018, 0x20020, 0x20028, 0x20030, 0x30010, 0x30018, 0x60128, 0x60130, 0x40020, 0x40040, 0x50018, 0x50020].contains off

/-- The checksum covers a register (R493). -/
def covered (off : Nat) : Bool :=
  blockOf off != 1 && blockOf off != 10 && blockOf off != 11 && !uncovered off

/-- A configuration write: the sweep in progress is abandoned, and its time is noted (R494). -/
def noteWrite (d : Dev) : Dev :=
  { d with cfg := { d.cfg with dirty := true, lastWrite := d.clk.tsc, lastWriteNs := d.clk.now } }

/-- Store an in-force register whose reset value is given; it counts as written since any mismatch of it (R491), and as
a configuration write where it changes a covered byte (R494). -/
def putReg (off reset : Nat) (v : Word64) (d : Dev) : Dev :=
  let d1 : Dev := { d with
    regs := tput d.regs off v
    cfg := { d.cfg with bad := d.cfg.bad.filter fun x => x != (blockOf off, off) } }
  if covered off && v != regInForce d off reset then noteWrite d1 else d1

end Sys2Proof.Machine
end

