-- ==== Sys2Proof/Machine/PortOps.lean ====
section
/-!
DEFINITION. Fabric ports: their registers' fields, link-local messages, announcements, and the events that enclose
an outage.
-/
namespace Sys2Proof.Machine

open Sys2Proof

/-! ### Ports and their control registers (R304, R322) -/

/-- A port's state. -/
def getPort (d : Dev) (p : Nat) : Port := (tget d.ports p).getD {}

/-- Set a port's state. -/
def setPort (p : Nat) (x : Port) (d : Dev) : Dev := { d with ports := tput d.ports p x }

/-- Change a port's state. -/
def updPort (p : Nat) (g : Port → Port) (d : Dev) : Dev := setPort p (g (getPort d p)) d

/-- A link lane of a port. -/
def Port.lanes (x : Port) (j : Nat) : LaneSt := if j = 0 then x.l0 else x.l1

/-- Change a link lane of a port. -/
def Port.updLane (x : Port) (j : Nat) (g : LaneSt → LaneSt) : Port :=
  if j = 0 then { x with l0 := g x.l0 } else { x with l1 := g x.l1 }

/-- A register block holds a fence (R490). -/
def fencedBlk (d : Dev) (b : Nat) : Bool := d.cfg.fenced.testBit b

/-- n, or nothing while the counters of the performance monitor stand still: FREEZE is set, or its block is fenced
(R461, R490). -/
def counted (d : Dev) (n : Nat) : Nat := if bit (regInForce d 0x40000 0) 1 || fencedBlk d 7 then 0 else n

/-- A register of block 9 in force: its reset value while its parity has failed (R490). -/
def ctl9 (d : Dev) (off reset : Nat) : Word64 :=
  if d.cfg.hit.contains (9, off) then BitVec.ofNat 64 reset else regInForce d off reset

/-- PORT_n_CTL in force (R322). -/
def portCtl (d : Dev) (p : Nat) : Word64 := regInForce d (0x10000 + p * 0x100) 0xBB00010000080819

/-- ENABLE. -/
def portEnable (d : Dev) (p : Nat) : Bool := bit (portCtl d p) 63
/-- DATA_EN. -/
def portDataEn (d : Dev) (p : Nat) : Bool := bit (portCtl d p) 62
/-- AUTO_RETRAIN. -/
def portAutoRetrain (d : Dev) (p : Nat) : Bool := bit (portCtl d p) 61
/-- TEMP_RETRAIN_EN. -/
def portTempEn (d : Dev) (p : Nat) : Bool := bit (portCtl d p) 60
/-- MAX_RATE, as a rung. -/
def portMaxRung (d : Dev) (p : Nat) : Nat := fld (portCtl d p) 58 2 + 1
/-- LANE_EN. -/
def portLaneEn (d : Dev) (p j : Nat) : Bool := bit (portCtl d p) (56 + j)
/-- SYM_THRESH. -/
def portSymThresh (d : Dev) (p : Nat) : Nat := fld (portCtl d p) 24 24
/-- REPLAY_LIMIT, 0 acting as 1. -/
def portReplayLimit (d : Dev) (p : Nat) : Nat := max 1 (fld (portCtl d p) 16 8)
/-- REPLAY_TO in ns, 0 and 1 acting as 2. -/
def portReplayTo (d : Dev) (p : Nat) : Nat := max 2 (fld (portCtl d p) 8 8) * 500
/-- TEMP_DELTA in degrees, values outside 5 to 100 acting as the nearer bound. -/
def portTempDelta (d : Dev) (p : Nat) : Nat := max 5 (min 100 (fld (portCtl d p) 0 7))

/-- RT_COORD in force (R273). -/
def rtCoordReg (d : Dev) : Word64 := regInForce d 0x20040 0

/-- A field of the running image's header (R441). -/
def imgField (img : List Byte) (off n : Nat) : Nat := leNat ((img.drop off).take n)

/-- IF_GEN of the running image (R458). -/
def ifGen (d : Dev) : Nat := imgField d.boot.image 0x10 2

/-! ### Board flash (R439, R440) -/

/-- The parts of board flash: offset and length. -/
def flashParts : Tbl Nat :=
  [(0, 0x800), (0x800, 0x800), (0x1000, 0x1000), (0x2000, 0x1000), (0x3000, 0x1000), (0x100000, 0x1000000), (0x1100000, 0x1000000)]

/-- The bytes a part of board flash holds. -/
def flashPart (d : Dev) (off : Nat) : List Byte := (tget d.boot.flash off).getD []

/-- Write a part of board flash: no byte beyond its length. -/
def setFlash (off : Nat) (bs : List Byte) (d : Dev) : Dev :=
  { d with boot := { d.boot with flash := tput d.boot.flash off (bs.take ((tget flashParts off).getD 0)) } }

/-- The offset of an image slot (true: B). -/
def slotAt (b : Bool) : Nat := if b then 0x1100000 else 0x100000

/-- A copy of the boot record is valid. -/
def recOk (r : List Byte) : Bool :=
  decide (imgField r 0 4 = 0x52424B57) && decide (16 ≤ r.length) && decide (imgField r 0xC 4 = (crc32c (r.take 12)).toNat)

/-- The copy of the boot record that is in use: the valid one of the higher GENERATION. (DESIGN CHOICE, log entry 161) -/
def bootCopy (d : Dev) : Option Nat :=
  let a := flashPart d 0
  let b := flashPart d 0x800
  if recOk a && (!recOk b || decide (imgField b 8 4 ≤ imgField a 8 4)) then some 0 else if recOk b then some 0x800 else none

/-- The boot record in use; no bytes where neither copy is valid. -/
def bootRec (d : Dev) : List Byte := match bootCopy d with | some c => flashPart d c | none => []

/-- SLOT_PREF (true: B). -/
def slotPref (d : Dev) : Bool := (imgField (bootRec d) 4 1).testBit 0

/-- BOOT_FAILS. -/
def bootFails (d : Dev) : Nat := imgField (bootRec d) 5 1

/-! ### Calibration (R457, R459) -/

/-- The sum of two signed fields, saturated to their width. -/
def satSum (n a b : Nat) : Nat :=
  let x := signed n a + signed n b
  let top : Int := 2 ^ (n - 1) - 1
  let bot : Int := -(2 ^ (n - 1) : Int)
  (BitVec.ofInt n (max bot (min top x))).toNat

/-- The widths of a quantity's fields, lowest first, by its offset in the factory layer. -/
def calWidths (k : Nat) : List Nat :=
  if k < 0xC0 then [16, 16] else if k < 0x100 then List.replicate 16 4 else [32]

/-- The sum of the fields of two words. -/
def sumFields : Nat → List Nat → Word64 → Word64 → Nat
  | _, [], _, _ => 0
  | lo, n :: ns, a, b => satSum n (fld a lo n) (fld b lo n) * 2 ^ lo + sumFields (lo + n) ns a b

/-- The writable bits of the user calibration register at an offset of its block (R459). -/
def calMask (off : Nat) : Word64 := if 0x2C0 ≤ off ∧ off < 0x300 then 0xFFFFFFFFFFFFFFFF else 0xFFFFFFFF

/-- Factory value of the quantity at an offset of the factory layer. -/
def calFac (d : Dev) (k : Nat) : Word64 := ((tget d.fuse.calFac k).getD 0) &&& calMask (0x200 + k)

/-- User value; 0 while its register's parity has failed (R490). -/
def calUsr (d : Dev) (k : Nat) : Word64 := if d.cfg.hit.contains (3, 0x8200 + k) then 0 else regInForce d (0x8200 + k) 0

/-- Effective value (R457). -/
def calEff (d : Dev) (k : Nat) : Word64 := BitVec.ofNat 64 (sumFields 0 (calWidths k) (calFac d k) (calUsr d k))

/-! ### Link-local messages (R301) -/

/-- The first 24 bytes of a link-local message. -/
def linkBody (m : LinkMsg) : List Byte :=
  leBytes 8 m.unitId.toNat
  ++ leBytes 8 (m.ntype.toNat + m.token.toNat * 2 ^ 8 + m.kind.toNat * 2 ^ 16 + b2n m.lane * 2 ^ 20
      + m.rate.toNat * 2 ^ 21 + m.rsv.toNat % 2 * 2 ^ 23 + m.switch.toNat * 2 ^ 24 + m.rsv.toNat / 2 * 2 ^ 36)
  ++ leBytes 8 m.value.toNat

/-- The CRC a link-local message must carry. -/
def linkCrc (m : LinkMsg) : Word32 := crc32c (linkBody m)

/-- The 32 bytes of a link-local message. -/
def linkBytes (m : LinkMsg) : List Byte := linkBody m ++ leBytes 4 m.crc.toNat ++ leBytes 4 m.info.toNat

/-- A port that carries link-local messages: TRAINING, NIB_ONLY or UP (R304). -/
def carriesLocal (s : PortSt) : Bool := s = .training || s = .nibOnly || s = .up

/-- Queue a link-local message on a port. -/
def sendLink (p : Nat) (m : LinkMsg) (d : Dev) : Dev :=
  let m1 := { m with unitId := d.fuse.unitId }
  let m2 := { m1 with crc := linkCrc m1 }
  updPort p (fun x => if carriesLocal x.st then { x with llOut := x.llOut ++ [m2] } else x) d

/-- HELLO (R303). -/
def helloMsg (d : Dev) (p : Nat) : LinkMsg :=
  { ntype := 0x01
    value := BitVec.ofNat 64 (p + (portMaxRung d p - 1) * 2 ^ 6 + b2n (portLaneEn d p 0) * 2 ^ 8
      + b2n (portLaneEn d p 1) * 2 ^ 9 + b2n (bit (rtCoordReg d) 16) * 2 ^ 10 + fld (rtCoordReg d) 0 16 * 2 ^ 16
      + ifGen d * 2 ^ 32) }

/-- HELLO goes out on a port. -/
def sendHello (p : Nat) (d : Dev) : Dev := sendLink p (helloMsg d p) d

/-- All fabric ports. -/
def allPorts : List Nat := List.range 64

/-- HELLO goes out on every port that carries Nib messages: the coordinate or the mode has changed (R303). -/
def helloAll (d : Dev) : Dev :=
  allPorts.foldl (fun d p => if (getPort d p).st = .nibOnly || (getPort d p).st = .up then sendHello p d else d) d

/-! ### Port events (R320) and what leaving UP brings (R250, R364) -/

/-- A fabric port has entered or left UP: a NOTIFY is owed (R364). -/
def notifyPort (p : Nat) (d : Dev) : Dev :=
  { d with svc := { d.svc with notifyDue := true, portsChanged := d.svc.portsChanged ||| ins p 1 } }

/-- Code of a port state (R304). -/
def portStCode : PortSt → Nat
  | .disabled => 0 | .training => 1 | .nibOnly => 2 | .up => 3 | .retraining => 4 | .down => 5

/-- PORT_UP. -/
def postPortUp (p : Nat) (d : Dev) : Dev :=
  let x := getPort d p
  postSubscribed .portUp (BitVec.ofNat 32 p)
    (BitVec.ofNat 64 ((x.rung - 1) + x.width * 4 + x.lane * 16))
    (BitVec.ofNat 64 (fld x.info 0 16 + fld x.info 26 6 * 2 ^ 16)) d

/-- PORT_DOWN with its cause and the new state. -/
def postPortDown (p cause : Nat) (st : PortSt) (d : Dev) : Dev :=
  postSubscribed .portDown (BitVec.ofNat 32 p) (BitVec.ofNat 64 (cause + portStCode st * 2 ^ 8)) 0 d

/-- PORT_WIDTH with its reason. -/
def postPortWidth (p reason : Nat) (d : Dev) : Dev :=
  let x := getPort d p
  postSubscribed .portWidth (BitVec.ofNat 32 p) (BitVec.ofNat 64 (x.width * 4 + x.lane * 16 + reason * 2 ^ 8)) 0 d

/-- A packet's bytes of a flit have left the ingress buffer: once every byte of the flit has, its units are returned to the
counter it was charged to (R293). -/
def Port.releaseFlit (x : Port) (k : Nat) : Port :=
  match tget x.rxHeld k with
  | some (c, u, n) =>
    if n ≤ 1 then { x with rxHeld := tdel x.rxHeld k, crRet := tput x.crRet c ((tget x.crRet c).getD 0 + u) }
    else { x with rxHeld := tput x.rxHeld k (c, u, n - 1) }
  | none => x

/-- An item, or the part of it in these flits, has left its ingress buffer (R293). -/
def releaseHold (ing : Nat) (hold : List (Nat × Nat)) (d : Dev) : Dev :=
  if ing < 64 && !hold.isEmpty then updPort ing (fun x => hold.foldl (fun y h => y.releaseFlit h.1) x) d else d

/-- After n bytes of a packet have left: the flits none of whose bytes it still holds, and the others (R293). -/
def splitHold : Nat → List (Nat × Nat) → List (Nat × Nat) × List (Nat × Nat)
  | _, [] => ([], [])
  | n, (k, b) :: rest =>
    if b ≤ n then ((k, b) :: (splitHold (n - b) rest).1, (splitHold (n - b) rest).2) else ([], (k, b - n) :: rest)

/-- Every item waiting inside the device is discarded (R410), packets that wait for a context (R153) among them. -/
def discardWaiting (d : Dev) : Dev :=
  let all := d.rt.routeQ ++ d.rt.egress.flatMap (·.2)
  let d1 := all.foldl (fun d q => releaseHold q.ingress q.hold d) d
  { d1 with rt := { d1.rt with routeQ := [], localQ := [], egress := [] }, xpt := { d1.xpt with miss := [] } }

/-- Packets queued for a port, none of whose flits has been sent, are routed again (R250). Tree packets, which have
no other port, are lost. -/
def requeuePort (p : Nat) (d : Dev) : Dev :=
  let q := (tget d.rt.egress p).getD []
  let again := (q.filter fun i => match i.item with | .tree _ => false | _ => true).map fun i => { i with dims := 0 }
  { d with rt := { d.rt with egress := tdel d.rt.egress p, routeQ := d.rt.routeQ ++ again } }

/-- A port leaves UP for another state: PORT_DOWN, a NOTIFY, re-routing, HELLO where it enters NIB_ONLY, and the end of the
trees that use it (R229, R250, R303, R320, R364). -/
def leaveUp (p cause : Nat) (st : PortSt) (d : Dev) : Dev :=
  if (getPort d p).st = .up then
    let d1 := requeuePort p (updPort p (fun x => { x with st := st }) d)
    let d2 := notifyPort p (postPortDown p cause st d1)
    let d3 := if st = .nibOnly then sendHello p d2 else d2
    { d3 with tre := { d3.tre with downPorts := d3.tre.downPorts ++ [p] } }
  else updPort p (fun x => { x with st := st }) d

/-! ### Announcements (R305, R306 step 6) -/

/-- This end may announce all traffic on a port. -/
def wantsAll (d : Dev) (p : Nat) : Bool :=
  (d.mode = .worker || d.mode = .manager || d.mode = .transit || d.mode = .drain)
  && portDataEn d p && !fencedBlk d 5

/-- The rung a port makes for: the lower of the two MAX_RATE values and of what has not failed since its restart (R306,
R307), held at 2 while the temperature of either end asks for it (R318). (DEDUCED, log entry 148) -/
def tgtRung (d : Dev) (p : Nat) : Nat :=
  let x := getPort d p
  let peer := if bit x.info 20 then fld x.info 24 2 + 1 else 3
  let t := min x.target (min (portMaxRung d p) peer)
  if x.thermal || x.peerHot then min 2 t else t

/-- The port is at its target rung with no change under way. -/
def atTarget (d : Dev) (p : Nat) : Bool :=
  let x := getPort d p
  decide (tgtRung d p ≤ x.rung) && x.prog.isNone && x.own.isNone

/-- Enter UP where both ends announce all traffic and the port is at its target rung. -/
def enterUp (p : Nat) (d : Dev) : Dev :=
  let x := getPort d p
  if x.st = .nibOnly && x.annOwn && x.annPeer = some true && atTarget d p then
    notifyPort p (postPortUp p (setPort p { x with st := .up } d))
  else d

/-- Send LINK_MODE. -/
def sendMode (p : Nat) (d : Dev) : Dev :=
  sendLink p { ntype := 0x07, info := BitVec.ofNat 32 (b2n (getPort d p).annOwn) } d

/-- What a port will accept has changed: LINK_MODE goes out, and the port leaves UP or enters it. In RETRAINING, which
carries nothing, the announcement waits for its end (R304). -/
def announce (p : Nat) (d : Dev) : Dev :=
  let x := getPort d p
  let w := wantsAll d p
  if x.annOwn = w || x.st = .retraining then d
  else
    let d1 := sendMode p (setPort p { x with annOwn := w } d)
    if w then enterUp p d1 else if x.st = .up then leaveUp p 8 .nibOnly d1 else d1

/-- Announce on every port. -/
def announceAll (d : Dev) : Dev := allPorts.foldl (fun d p => announce p d) d

end Sys2Proof.Machine
end

