-- ==== Sys2Proof/Machine/Symbols.lean ====
section
/-!
DEFINITION. The symbols of a service link: 8b/10b coding with running disparity, and the K symbols that frame a service frame
(R348, R351). The code's tables are the standard's. (PRESUMED, log entry 150)
-/
namespace Sys2Proof.Machine

open Sys2Proof

/-- The 6-bit codes abcdei of the low five bits while the running disparity is negative. -/
def code6 : List Nat :=
  [0b100111, 0b011101, 0b101101, 0b110001, 0b110101, 0b101001, 0b011001, 0b111000,
   0b111001, 0b100101, 0b010101, 0b110100, 0b001101, 0b101100, 0b011100, 0b010111]
  ++ [0b011011, 0b100011, 0b010011, 0b110010, 0b001011, 0b101010, 0b011010, 0b111010,
   0b110011, 0b100110, 0b010110, 0b110110, 0b001110, 0b101110, 0b011110, 0b101011]

/-- The 4-bit codes fghj of the high three bits while the running disparity is negative. -/
def code4 : List Nat := [0b1011, 0b1001, 0b0101, 0b1100, 0b1101, 0b1010, 0b0110, 0b1110]

/-- Ones among the low n bits. -/
def onesIn (n v : Nat) : Nat := ((List.range n).filter v.testBit).length

/-- A block's code at a running disparity (true: positive), and the disparity after it: an unbalanced code, and the balanced one
named by `alt`, is complemented at positive disparity. -/
def block (n c alt : Nat) (rd : Bool) : Nat × Bool :=
  let even := decide (2 * onesIn n c = n)
  (if rd && (!even || c == alt) then 2 ^ n - 1 - c else c, if even then rd else !rd)

/-- A data byte's symbol abcdeifghj, a first, and the disparity after it. -/
def encodeData (rd : Bool) (b : Byte) : Nat × Bool :=
  let lo := b.toNat % 32
  let hi := b.toNat / 32
  let six := block 6 (code6.getD lo 0) 0b111000 rd
  let alt7 := hi = 7 && (if six.2 then lo = 11 || lo = 13 || lo = 14 else lo = 17 || lo = 18 || lo = 20)
  let four := block 4 (if alt7 then 0b0111 else code4.getD hi 0) 0b1100 six.2
  (six.1 * 16 + four.1, four.2)

/-- A symbol of the stream. -/
inductive SvcSym
  | data (b : Byte)
  /-- K28.5: comma and idle -/
  | comma
  /-- K27.7: start of frame -/
  | start
  /-- K29.7: end of frame -/
  | stop
  /-- K28.0: skip -/
  | skip
deriving DecidableEq, Repr

/-- A symbol's ten bits and the disparity after it (R348). -/
def encodeSym (rd : Bool) : SvcSym → Nat × Bool
  | .data b => encodeData rd b
  | .comma => block 10 0b0011111010 0 rd
  | .start => block 10 0b1101101000 0b1101101000 rd
  | .stop => block 10 0b1011101000 0b1011101000 rd
  | .skip => block 10 0b0011110100 0b0011110100 rd

/-- The ten-bit symbols of a stream, and the disparity after it. -/
def encodeSyms : Bool → List SvcSym → List Nat × Bool
  | rd, [] => ([], rd)
  | rd, s :: ss =>
    let e := encodeSym rd s
    let r := encodeSyms e.2 ss
    (e.1 :: r.1, r.2)

/-- The symbols of a frame's bytes: K27.7, the bytes, K29.7 (R351). -/
def frameSyms (bytes : List Byte) : List SvcSym := .start :: bytes.map .data ++ [.stop]

/-- Four code or running-disparity errors within 64 symbols, from the numbers of the symbols in error, in order (R349). -/
def lockErrors : List Nat → Bool
  | a :: b :: c :: e :: rest => decide (e < a + 64) || lockErrors (b :: c :: e :: rest)
  | _ => false

end Sys2Proof.Machine
end

