-- ==== Sys2Proof/Machine/SvcOps.lean ====
section
/-!
DEFINITION. Service ports and frames: bytes and CRC (R351, R352), the transmit window (R354), and the NOTIFY with its
fault summary (R364, R427).
-/
namespace Sys2Proof.Machine

open Sys2Proof

/-- A service port's state. -/
def getSvc (d : Dev) (n : Nat) : SvcPort := (tget d.svc.ports n).getD {}

/-- Set a service port's state. -/
def setSvc (n : Nat) (x : SvcPort) (d : Dev) : Dev := { d with svc := { d.svc with ports := tput d.svc.ports n x } }

/-- Change a service port's state. -/
def updSvc (n : Nat) (g : SvcPort → SvcPort) (d : Dev) : Dev := setSvc n (g (getSvc d n)) d

/-- SVC_n_CTL in force (R376): a failed register makes the port IDLE (R490), which the fence's reader applies. -/
def svcCtl (d : Dev) (n : Nat) : Word64 := regInForce d (0x60000 + n * 0x20) 0xC00000000000080A

/-- A service port's control register has failed its parity (R490). -/
def svcCtlBad (d : Dev) (n : Nat) : Bool := d.cfg.hit.contains (9, 0x60000 + n * 0x20)

/-- ENABLE. -/
def svcEnable (d : Dev) (n : Nat) : Bool := bit (svcCtl d n) 63
/-- MAX_SPEED, 3 acting as 2. -/
def svcMaxSpeed (d : Dev) (n : Nat) : Nat := min 2 (fld (svcCtl d n) 61 2)
/-- HOLD. -/
def svcHold (d : Dev) (n : Nat) : Bool := bit (svcCtl d n) 60 || svcCtlBad d n
/-- RETRY_LIMIT, 0 acting as 1. -/
def svcRetryLimit (d : Dev) (n : Nat) : Nat := max 1 (fld (svcCtl d n) 8 8)

/-- The four service ports. -/
def svcPorts : List Nat := [0, 1, 2, 3]

/-- SVC_TMO.HOP_ALLOW in microseconds (R379). -/
def hopAllow (d : Dev) : Nat := fld (ctl9 d 0x60118 0x000000640000001E) 0 16

/-! ### Frames -/

/-- The 8-byte header (R352). -/
def frameHdr (f : Frame) : List Byte :=
  leBytes 8 (f.ftype.toNat + f.seq.toNat * 2 ^ 4 + f.ack.toNat * 2 ^ 8 + f.freed.toNat * 2 ^ 12 + b2n f.up * 2 ^ 16
    + b2n f.via * 2 ^ 17 + b2n f.flood * 2 ^ 18 + f.len.toNat * 2 ^ 19 + f.pathLen.toNat * 2 ^ 30
    + f.path.toNat * 2 ^ 33 + b2n f.rsv * 2 ^ 47 + f.coord.toNat * 2 ^ 48)

/-- The CRC a frame must carry (R351). -/
def frameCrc (f : Frame) : Word32 := crc32c (frameHdr f ++ f.payload)

/-- A frame with its length and CRC as sent. -/
def sealFrame (f : Frame) : Frame :=
  let f1 := { f with len := BitVec.ofNat 11 f.payload.length }
  { f1 with crc := frameCrc f1 }

/-- A frame arrives whole (R351). -/
def frameGood (f : Frame) : Bool := decide (f.len.toNat = f.payload.length) && decide (f.crc = frameCrc f)

/-- A frame from its header word and payload (R363). -/
def frameOf (h : Word64) (payload : List Byte) : Frame :=
  { ftype := BitVec.ofNat 4 (fld h 0 4), up := bit h 16, via := bit h 17, flood := bit h 18,
    pathLen := BitVec.ofNat 3 (fld h 30 3), path := BitVec.ofNat 14 (fld h 33 14), coord := BitVec.ofNat 16 (fld h 48 16),
    payload := payload }

/-- A frame's header as a word. -/
def frameWord (f : Frame) : Word64 := BitVec.ofNat 64 (leNat (frameHdr f))

/-- A frame's bytes (R351). -/
def frameBytes (f : Frame) : List Byte := frameHdr f ++ f.payload ++ leBytes 4 f.crc.toNat

/-- A frame goes out on a service port: a skip precedes it where 2,048 symbols would else pass without one (R348, R351).
(DESIGN CHOICE, log entry 151) -/
def putFrame (n : Nat) (f : Frame) (d : Dev) : Dev :=
  let x := getSvc d n
  let body := frameSyms (frameBytes f)
  let due := decide (2048 ≤ x.sinceSkip + body.length + 1)
  let r := encodeSyms x.disparity (if due then .skip :: body else body)
  emit (.symbols n r.1) (emit (.frame n f) (setSvc n { x with
    disparity := r.2, sinceSkip := if due then body.length else x.sinceSkip + body.length } d))

/-! ### The transmit window (R354) -/

/-- Send waiting frames while the window and the buffer balance allow. -/
def svcPump (n : Nat) : Nat → Dev → Dev
  | 0, d => d
  | fuel + 1, d =>
    let x := getSvc d n
    match x.waitQ with
    | [] => d
    | (f, _) :: rest =>
      if x.link ≠ 2 || decide (8 ≤ x.unacked.length) || x.bal = 0 then d
      else
        let f1 := sealFrame { f with seq := BitVec.ofNat 4 x.txSeq, ack := BitVec.ofNat 4 x.expect, freed := BitVec.ofNat 4 x.freed }
        svcPump n fuel (putFrame n f1 (setSvc n { x with
          waitQ := rest, unacked := x.unacked ++ [f1], txSeq := (x.txSeq + 1) % 16, bal := x.bal - 1, ackDue := false } d))

/-- Queue a sequenced frame on a service port whose link is up, with the receive buffer that holds it, if one does; on a
link that is down it is discarded. -/
def svcQueue (n : Nat) (f : Frame) (hold : Option (Nat × Nat)) (d : Dev) : Dev :=
  let x := getSvc d n
  if x.link ≠ 2 && !x.switching then d
  else svcPump n (x.waitQ.length + 1) (setSvc n { x with waitQ := x.waitQ ++ [(f, hold)] } d)

/-- Queue a sequenced frame of this device's own. -/
def svcSend (n : Nat) (f : Frame) (d : Dev) : Dev := svcQueue n f none d

/-- A receive buffer still holds a frame that waits somewhere. -/
def bufHeld (d : Dev) (n t : Nat) : Bool := svcPorts.any fun q => (getSvc d q).waitQ.any fun w => w.2 == some (n, t)

/-- Buffers whose frame has been forwarded are counted in FREED (R354). -/
def freeBufs (n : Nat) (d : Dev) : Dev :=
  let x := getSvc d n
  let kept := x.rxBuf.filter (bufHeld d n)
  let k := x.rxBuf.length - kept.length
  if k = 0 then d else setSvc n { x with rxBuf := kept, freed := (x.freed + k) % 16, ackDue := true } d

/-- Send what can be sent on every service port, and free the buffers that held it. -/
def svcRun (d : Dev) : Dev :=
  let d1 := svcPorts.foldl (fun d n => svcPump n ((getSvc d n).waitQ.length + 1) d) d
  svcPorts.foldl (fun d n => freeBufs n d) d1

/-- Count a discarded frame (R353, R356). -/
def countDrop (n : Nat) (d : Dev) : Dev := updSvc n (fun x => { x with drops := x.drops.add 1 }) d

/-! ### HELLO and the roles of the ports (R355, R358) -/

/-- Code of a port's role: 0 none, 1 UP, 2 DOWN, 3 IDLE, which HOLD gives whatever the link's state (R355, R376, R377). -/
def svcRole (d : Dev) (n : Nat) : Nat :=
  let x := getSvc d n
  if svcHold d n then 3
  else if x.link ≠ 2 then 0
  else if d.svc.upstream = some n then 1
  else if x.peerUp then 2
  else 3

/-- The HELLO payload of a port (R358). -/
def svcHelloBytes (d : Dev) (n : Nat) : List Byte :=
  leBytes 8 d.fuse.unitId.toNat
  ++ leBytes 8 (n + svcMaxSpeed d n * 2 ^ 2 + b2n (d.svc.upstream == some n) * 2 ^ 4 + b2n d.svc.upstream.isSome * 2 ^ 5
      + fld (rtCoordReg d) 16 1 * 2 ^ 6 + fld (rtCoordReg d) 0 16 * 2 ^ 16 + d.svc.term * 2 ^ 32)

/-- HELLO goes out on a service port. -/
def svcHello (n : Nat) (d : Dev) : Dev := svcSend n { ftype := 0x1, payload := svcHelloBytes d n } d

/-- HELLO goes out on every port on which it has changed since an earlier state of the device (R358). -/
def svcHellos (old : Dev) (d : Dev) : Dev :=
  svcPorts.foldl (fun d n => if svcHelloBytes old n = svcHelloBytes d n then d else svcHello n d) d

/-- Send a frame UP that this device originates (R356); false where there is no upstream. -/
def sendUpFrame (ftype : BitVec 4) (payload : List Byte) (d : Dev) : Bool × Dev :=
  match d.svc.upstream with
  | none => (false, d)
  | some u =>
    (true, svcSend u { ftype := ftype, up := true, coord := BitVec.ofNat 16 (d.svc.depth + 16), payload := payload } d)

/-! ### Fault summary and NOTIFY (R424, R427, R430, R364) -/

/-- Valid records of a class, by source. -/
def recsOf (d : Dev) (c : FClass) : List (Nat × FltRec) := d.flt.recs.filter fun r => r.2.valid && decide (r.2.cls = c)

/-- FAULT_N is driven low (R424). -/
def faultN (d : Dev) : Bool := d.flt.recs.any fun r => r.2.valid

/-- The record FLT_FIRST names: the earliest valid one, and the lowest source among equals (R430). -/
def fltFirst (d : Dev) : Option (Nat × FltRec) :=
  (d.flt.recs.filter fun r => r.2.valid).foldl (fun b r =>
    match b with
    | none => some r
    | some x => if r.2.time.toNat < x.2.time.toNat then some r else some x) none

/-- Class code of a record (R432). -/
def clsCode : FClass → Nat
  | .corrected => 1 | .contained => 2 | .fatal => 3

/-- The fault summary of a NOTIFY (R427). -/
def faultSummary (d : Dev) : List Byte :=
  let first := fltFirst d
  let cnt := (recsOf d .contained).length + (recsOf d .fatal).length * 2 ^ 16
  let w0 := match first with
    | some (s, r) => cnt + s * 2 ^ 32 + 2 ^ 41 + r.cause * 2 ^ 48 + clsCode r.cls * 2 ^ 56
    | none => cnt
  let w1 := match first with | some (_, r) => r.time.toNat | none => 0
  leBytes 8 w0 ++ leBytes 8 w1 ++ leBytes 8 (d.flt.last + d.flt.lastCause * 2 ^ 16) ++ leBytes 8 d.flt.corrTotal

/-- Code of a mode (R447). -/
def modeCode : Mode → Nat
  | .recovery => 0 | .configure => 1 | .worker => 2 | .manager => 3
  | .transit => 4 | .drain => 5 | .replay => 6 | .quarantine => 7

/-- Bit p: fabric port p is in UP. -/
def portsUp (d : Dev) : Nat :=
  allPorts.foldl (fun n p => if (getPort d p).st = .up then n + 2 ^ p else n) 0

/-- The NOTIFY payload (R364). -/
def notifyPayload (d : Dev) : List Byte :=
  leBytes 8 d.fuse.unitId.toNat
  ++ leBytes 8 (fld (rtCoordReg d) 0 16 + modeCode d.mode * 2 ^ 16 + b2n (faultN d) * 2 ^ 19)
  ++ leBytes 8 (portsUp d) ++ leBytes 8 d.svc.portsChanged.toNat ++ faultSummary d

/-- Send the NOTIFY owed, unless one went out in the last 100 microseconds or no upstream is held (R364).
(DEDUCED, log entry 95) -/
def sendNotify (d : Dev) : Dev :=
  if !d.svc.notifyDue || d.svc.notifyHold then d
  else
    match sendUpFrame 0x8 (notifyPayload d) d with
    | (false, _) => d
    | (true, d1) => { d1 with svc := { d1.svc with notifyDue := false, notifyHold := true, portsChanged := 0 } }

end Sys2Proof.Machine
end

