-- ==== Sys2Proof/Machine/Report.lean ====
section
/-!
DEFINITION. Fault reports: how an error becomes a record, an event and, where it is fatal, Quarantine.
-/
namespace Sys2Proof.Machine

open Sys2Proof

/-- A source's record. -/
def getRec (d : Dev) (src : Nat) : FltRec := (tget d.flt.recs src).getD {}

/-- Set a source's record. -/
def setRec (src : Nat) (r : FltRec) (d : Dev) : Dev := { d with flt := { d.flt with recs := tput d.flt.recs src r } }

/-- Every function that exists (R520). -/
def allFns (d : Dev) : List FnId :=
  [(0 : Fin 4), 1, 2, 3].flatMap fun p =>
    (List.range (if (getHp d p).vfEnable then (getHp d p).numVfs + 1 else 1)).map fun k =>
      { port := p, num := Fin.ofNat 256 k }

/-- A source number of R414's table; the taps only on a metered device. -/
def knownSource (d : Dev) (n : Nat) : Bool :=
  decide (n < 0xE2) || decide (0xE8 ≤ n ∧ n ≤ 0xF7) || decide (0xF8 ≤ n ∧ n ≤ 0xF9) || decide (0x100 ≤ n ∧ n ≤ 0x105)
  || decide (0x108 ≤ n ∧ n ≤ 0x14E) || decide (0x150 ≤ n ∧ n ≤ 0x15A) || decide (0x160 ≤ n ∧ n ≤ 0x163)
  || (d.fuse.meter && decide (0x168 ≤ n ∧ n ≤ 0x16F))

/-! ### What a source captures (R411) -/

/-- A capture register after more contained or fatal errors: the first names them, each is counted, a fatal one raises the
class (R411, R413). (DEDUCED, log entry 10) -/
def FltRec.captured (r : FltRec) (cls : FClass) (cause : Nat) (detail : Byte) (object : BitVec 24) (n : Nat) : FltNew :=
  match r.cap with
  | none => { cls := cls, cause := cause, count := min 0xFFFF n, detail := detail, object := object }
  | some w => { w with count := satAdd 0xFFFF w.count n, cls := if cls = .fatal then .fatal else w.cls }

/-- A source meets corrected errors: its capture register holds them until the next management tick (R411). -/
def reportCorrected (src n : Nat) (d : Dev) : Dev :=
  let r := getRec d src
  if r.masked then d else setRec src { r with capCorr := r.capCorr + n } d

/-- A source meets contained or fatal errors: its capture register holds them until the next management tick (R411). -/
def reportError (src : Nat) (cls : FClass) (cause : Nat) (detail : Byte) (object : BitVec 24) (n : Nat) (d : Dev) : Dev :=
  let r := getRec d src
  if r.masked then d else setRec src { r with cap := some (r.captured cls cause detail object n) } d

/-- An error of any class at a source. -/
def report (src : Nat) (cls : FClass) (cause : Nat) (detail : Byte) (object : BitVec 24) (n : Nat) (d : Dev) : Dev :=
  match cls with
  | .corrected => reportCorrected src n d
  | .contained => reportError src .contained cause detail object n d
  | .fatal => reportError src .fatal cause detail object n d

/-- Rank of a stop cause when two come in one tick, 0 first (R476). -/
def stopRank : Nat → Nat
  | 4 => 0 | 1 => 1 | 5 => 2 | 3 => 3 | 2 => 4 | _ => 5

/-- The recording stops with a cause; of two causes in one tick the one of better rank is kept (R476). -/
def inkStop (cause : Nat) (d : Dev) : Dev :=
  if d.ink.st = 1 || d.ink.st = 2 then
    { d with ink := { d.ink with st := 3, stop := cause, stopAt := d.clk.ticks, opened := [] } }
  else if d.ink.st = 3 && d.ink.stopAt = d.clk.ticks && decide (stopRank cause < stopRank d.ink.stop) then
    { d with ink := { d.ink with stop := cause } }
  else d

/-- The modes in which a recording runs on (R476). -/
def recordsIn (m : Mode) : Bool := m = .worker || m = .manager || m = .transit || m = .drain

/-- A trigger source fires: the post-trigger count starts (R476). -/
def inkTrigger (d : Dev) : Dev := if d.ink.st = 2 then { d with ink := { d.ink with trig := true } } else d

/-- Note a change of mode (R451, R458) and what every change brings: Inkwell's stop with cause MODE or its abort of a
replay (R476, R479), the end of the manager role (R449), HELLO and LINK_MODE on every port (R303, R305). -/
def setMode (m : Mode) (cause : Nat) (d : Dev) : Dev :=
  let d1 : Dev := { d with
    mode := m
    modeSt := { d.modeSt with prev := d.mode, cause := cause, time := d.clk.tsc }
    svc := if d.mode = .manager && m ≠ .manager then { d.svc with role := 0, listening := false } else d.svc }
  let d2 := if recordsIn d.mode && !recordsIn m then inkStop 5 d1 else d1
  let d3 := if d.mode = .replay && m ≠ .replay && d2.ink.st = 5 then
      { d2 with ink := { d2.ink with st := 3, result := 5 } } else d2
  helloAll (announceAll d3)

/-- Entry into Quarantine (R410): class 5 is merged in every function with its error vector, host DMA then stops,
ports announce Nib only, packets held inside the device are discarded, the manager role ends, and a NOTIFY is owed.
From Recovery there is no entry. -/
def enterQuarantine (cause : Nat) (d : Dev) : Dev :=
  if d.mode = .recovery || d.mode = .quarantine then d
  else
    let d1 := (allFns d).foldl (fun d f => mergeEvent f 5 d) d
    let d2 := setMode .quarantine cause d1
    sendNotify (discardWaiting { d2 with svc := { d2.svc with role := 0, listening := false, notifyDue := true } })

/-- The fault source of a recorded unit (R414, R481). -/
def unitSource (u : Nat) : Nat := if u < 0x40 then 0x0C0 + u else 0x0E8 + (u - 0x40)

/-- What a record means to Inkwell: its unit has failed, or its trigger source fires (R476, R481). -/
def inkFault (src : Nat) (fresh : Bool) (d : Dev) : Dev :=
  let sel := fld (regInForce d 0x50008 0) 62 2
  if src = unitSource d.ink.unit && (d.ink.st = 1 || d.ink.st = 2) && sel = 1 then inkTrigger d
  else if sel = 3 && fresh then inkTrigger d
  else d

/-! ### What the collector takes at a tick (R411 to R413) -/

/-- A record as a clear leaves it (R425): its corrected count, mask and FCLASS stay, and what its source has captured. -/
def FltRec.cleared (r : FltRec) : FltRec :=
  { corr := r.corr, masked := r.masked, fclass := r.fclass, cap := r.cap, capCorr := r.capCorr, broken := r.broken }

/-- A new record from a capture, taken at a time (R413). (DEDUCED, log entry 10) -/
def FltRec.made (r : FltRec) (w : FltNew) (t : Word64) : FltRec :=
  { r with
    valid := true, cls := w.cls, merged := false, cause := w.cause, count := w.count, time := t
    detail := w.detail, object := w.object, cap := none }

/-- A capture merged into a valid record (R413). -/
def FltRec.merge (r : FltRec) (w : FltNew) : FltRec :=
  { r with
    count := satAdd 0xFFFF r.count w.count, merged := true, cls := if w.cls = .fatal then .fatal else r.cls, cap := none }

/-- FAULT_RECORDED of a new contained record (R423). (DEDUCED, log entry 109) -/
def postRecorded (src : Nat) (r : FltRec) (d : Dev) : Dev :=
  if r.cls = .contained && !decide (d.mode = .quarantine) then
    postOwner .faultRecorded (r.object.setWidth 32)
      (BitVec.ofNat 64 (src + r.cause * 2 ^ 16 + clsCode r.cls * 2 ^ 24)) (r.detail.setWidth 64) d
  else d

/-- A source's new record is stored, and told (R413, R423). -/
def newRec (src : Nat) (r : FltRec) (d : Dev) : Dev :=
  let d0 := setRec src r d
  postRecorded src r { d0 with flt := { d0.flt with last := src, lastCause := r.cause } }

/-- The corrected errors of a report are counted, and nothing else (R413). -/
def takeCorrected (src : Nat) (d : Dev) : Dev :=
  let r := getRec d src
  let d1 := setRec src { r with corr := satAdd 0xFFFFFFFF r.corr r.capCorr, capCorr := 0 } d
  { d1 with flt := { d1.flt with corrTotal := satAdd 0xFFFFFFFF d1.flt.corrTotal r.capCorr } }

/-- The contained and fatal errors of a report (R413): a new record, or merged into the valid one. A new contained record posts
FAULT_RECORDED to the owner function (R423); a fatal error enters Quarantine (R410). -/
def takeErrors (src : Nat) (w : FltNew) (d : Dev) : Dev :=
  let r := getRec d src
  let d1 := if r.valid then setRec src (r.merge w) d else newRec src (r.made w d.clk.tsc) d
  let d2 := { d1 with svc := { d1.svc with notifyDue := true } }
  let d3 := inkFault src (!r.valid) d2
  sendNotify (if w.cls = .fatal then enterQuarantine 3 d3 else d3)

/-- The collector takes a source's report, if there is one to read, and acknowledges it (R411); a masked source's is ignored
(R412). -/
def takeReport (src : Nat) (d : Dev) : Dev :=
  let r := getRec d src
  if r.masked || decide (0 < r.broken) then d
  else
    let d1 := if r.capCorr = 0 then d else takeCorrected src d
    match r.cap with
    | none => d1
    | some w => takeErrors src w d1

/-- A reporting pair is found broken or stuck (R412): an error of REPORT_PATH, and the source is masked. -/
def reportPath (src : Nat) (d : Dev) : Dev :=
  if !knownSource d src || (getRec d src).masked then d
  else
    let d1 := reportError srcReportPath .contained caReportPath 0 (BitVec.ofNat 24 src) 1 d
    setRec src { getRec d1 src with masked := true, cap := none, capCorr := 0, broken := 0 } d1

/-- A pair that BREAK drives illegal is sampled: at the second tick it is broken (R412, R422). -/
def samplePair (src : Nat) (d : Dev) : Dev :=
  let r := getRec d src
  if r.broken = 0 then d
  else if r.broken = 1 then reportPath src d
  else setRec src { r with broken := r.broken - 1 } d

/-- The collector samples every source's pair at a management tick and takes what is reported, in the order of the source numbers
(R411, R413). -/
def collect (d : Dev) : Dev :=
  let d1 := (d.flt.recs.map (·.1)).foldl (fun d n => samplePair n d) d
  (d1.flt.recs.map (·.1)).foldl (fun d n => takeReport n d) d1

/-- The port:function form of OBJECT (R433). -/
def fnObject (f : FnId) : BitVec 24 := BitVec.ofNat 24 (f.port.val * 256 + f.num.val)

/-- An uncorrectable error on a host port, of a function's request or of the port itself (function 0): told to the host, and
recorded once with its Advanced Error Reporting status bit number (R83). -/
def pcieError (f : FnId) (aer : Nat) (d : Dev) : Dev :=
  report (srcPcie f.port.val) .contained caPcie (BitVec.ofNat 8 aer) (fnObject f) 1 (aerReport f aer d)

end Sys2Proof.Machine
end

