-- ==== Sys2Proof/Machine/Wire.lean ====
section
/-!
DEFINITION. Bytes on the fabric: what a packet, a Nib message or a link-local message is read from (R119, R120, R135,
R209, R301), and a flit's bytes and CRC-64 (R287, R289).
-/
namespace Sys2Proof.Machine

open Sys2Proof

/-- The little-endian number of n bytes from an offset. -/
def wnat (bs : List Byte) (off n : Nat) : Nat := leNat ((bs.drop off).take n)

/-- The 64-bit word at an offset. -/
def word (bs : List Byte) (off : Nat) : Word64 := BitVec.ofNat 64 (wnat bs off 8)

/-- LEN of the routing header (R119). -/
def wireLen (bs : List Byte) : Nat := fld (word bs 8) 32 13

/-- The routing header a packet's bytes begin with (R119). -/
def rhdrOf (bs : List Byte) : RHdr :=
  let a := word bs 0
  let b := word bs 8
  { dest := BitVec.ofNat 26 (fld a 0 26), src := BitVec.ofNat 26 (fld a 26 26), hop := BitVec.ofNat 3 (fld a 52 3)
    detour := BitVec.ofNat 4 (fld a 55 4), epoch := bit a 59, resp := bit a 60, det := bit a 61
    domain := BitVec.ofNat 16 (fld b 0 16), age := BitVec.ofNat 8 (fld b 16 8), tc := BitVec.ofNat 3 (fld b 24 3)
    rsv := BitVec.ofNat 26 (fld a 62 2 + fld b 27 5 * 4 + fld b 45 19 * 128) }

/-- A data packet from its bytes (R119, R120). -/
def packetOf (bs : List Byte) : Packet :=
  let a := word bs 16
  let b := word bs 24
  let k := word bs 40
  { rh := rhdrOf bs, ptype := BitVec.ofNat 8 (fld a 0 8), conn := BitVec.ofNat 24 (fld a 8 24)
    psn := BitVec.ofNat 24 (fld a 32 24), first := bit a 56, last := bit a 57, retx := bit a 58, void := bit a 59
    msn := BitVec.ofNat 24 (fld b 0 24), offset := BitVec.ofNat 32 (fld b 32 32), va := word bs 32
    key := BitVec.ofNat 32 (fld k 0 32), aux := BitVec.ofNat 32 (fld k 32 32)
    rsv := BitVec.ofNat 12 (fld a 60 4 + fld b 24 8 * 16)
    payload := (bs.drop 48).take (bs.length - 52), crc := BitVec.ofNat 32 (wnat bs (bs.length - 4) 4) }

/-- A tree packet from its bytes (R208, R209). -/
def treeOf (bs : List Byte) : TreePkt :=
  let a := word bs 16
  let b := word bs 24
  let c := word bs 32
  { rh := rhdrOf bs, ptype := BitVec.ofNat 8 (fld a 0 8), tree := BitVec.ofNat 14 (fld a 8 14), null := bit a 23
    flags := BitVec.ofNat 8 (fld a 24 8), chunk := BitVec.ofNat 32 (fld a 32 32), opn := BitVec.ofNat 16 (fld b 0 16)
    cop := BitVec.ofNat 8 (fld b 16 8), elem := BitVec.ofNat 8 (fld b 24 8), count := BitVec.ofNat 32 (fld b 32 32)
    scale := BitVec.ofNat 16 (fld c 0 16), raw256 := bit c 16, mismatch := bit c 17
    rsv := BitVec.ofNat 111 (fld a 22 1 + fld c 18 46 * 2 + (word bs 40).toNat * 2 ^ 47)
    payload := (bs.drop 48).take (bs.length - 52), crc := BitVec.ofNat 32 (wnat bs (bs.length - 4) 4) }

/-- A Nib message from its 32 bytes (R135). -/
def nibOf (bs : List Byte) : Nib :=
  let a := word bs 0
  let b := word bs 8
  { dest := BitVec.ofNat 26 (fld a 0 26), hop := BitVec.ofNat 3 (fld a 26 3), epoch := bit a 29
    detour := BitVec.ofNat 4 (fld a 30 4), age := BitVec.ofNat 8 (fld a 34 8), domain := BitVec.ofNat 16 (fld a 48 16)
    ntype := BitVec.ofNat 8 (fld b 0 8), conn := BitVec.ofNat 24 (fld b 8 24), psn := BitVec.ofNat 24 (fld b 32 24)
    reason := BitVec.ofNat 8 (fld b 56 8), value := word bs 16, crc := BitVec.ofNat 32 (wnat bs 24 4)
    info := BitVec.ofNat 32 (wnat bs 28 4), rsv := BitVec.ofNat 6 (fld a 42 6) }

/-- A link-local message from its 32 bytes (R301). -/
def linkOf (bs : List Byte) : LinkMsg :=
  let b := word bs 8
  { unitId := word bs 0, ntype := BitVec.ofNat 8 (fld b 0 8), token := BitVec.ofNat 8 (fld b 8 8)
    kind := BitVec.ofNat 4 (fld b 16 4), lane := bit b 20, rate := BitVec.ofNat 2 (fld b 21 2)
    switch := BitVec.ofNat 12 (fld b 24 12), value := word bs 16, crc := BitVec.ofNat 32 (wnat bs 24 4)
    info := BitVec.ofNat 32 (wnat bs 28 4), rsv := BitVec.ofNat 29 (fld b 23 1 + fld b 36 28 * 2) }

/-! ### Flits (R287, R289) -/

/-- The 248 bytes a flit's CRC covers (R287). -/
def flitBody (f : Flit) : List Byte :=
  leBytes 8 (f.ftype.toNat + f.fseq.toNat * 2 ^ 4 + f.ack.toNat * 2 ^ 16 + f.vc.toNat * 2 ^ 28 + f.valid.toNat * 2 ^ 33
    + b2n f.pool * 2 ^ 41 + f.crSel.toNat * 2 ^ 42 + f.crCount.toNat * 2 ^ 47 + b2n f.retry * 2 ^ 63)
  ++ f.payload ++ List.replicate (240 - f.payload.length) 0

/-- The CRC a flit must carry. -/
def flitCrc (f : Flit) : Word64 := crc64 (flitBody f)

/-- A flit with its CRC put in. -/
def sealFlit (f : Flit) : Flit := { f with crc := flitCrc f }

end Sys2Proof.Machine
end

