-- ==== Sys2Proof/Machine/Frames.lean ====
section
/-!
DEFINITION. Link frames: the RS(544,514) code and its correction, the line code, what a frame's lanes carry, its markers and
its trailer (R278, R280 to R285). The field polynomial, the generator, the order of a codeword's symbols and the line code are
those of the standard R278 names. (PRESUMED, log entry 145)
-/
namespace Sys2Proof.Machine

open Sys2Proof

/-! ### GF(2^10) and RS(544,514) (R278) -/

/-- Multiply by alpha: the field polynomial is x^10 + x^3 + 1. (PRESUMED, log entry 145) -/
def gfDouble (a : Sym) : Sym := if a.getLsbD 9 then (a <<< 1) ^^^ 0x009 else a <<< 1

/-- Product in GF(2^10). -/
def gfMul (a b : Sym) : Sym :=
  (List.range 10).foldl (fun t i => gfDouble t ^^^ (if b.getLsbD (9 - i) then a else 0)) 0

/-- Power in GF(2^10). -/
def gfPow (a : Sym) : Nat → Sym
  | 0 => 1
  | n + 1 => gfMul (gfPow a n) a

/-- alpha to the n-th. -/
def gfAlpha : Nat → Sym
  | 0 => 1
  | n + 1 => gfDouble (gfAlpha n)

/-- Inverse in GF(2^10): the 1,022nd power, by squaring; 0 of 0. -/
def gfInv (a : Sym) : Sym :=
  ((List.range 9).foldl (fun t _ => let q := gfMul t.1 t.1; (q, gfMul t.2 q)) (a, 1)).2

/-- Value of a polynomial, highest coefficient first. -/
def gfEval (p : List Sym) (x : Sym) : Sym := p.foldl (fun t c => gfMul t x ^^^ c) 0

/-- Sum of two polynomials, lowest coefficient first. -/
def gfAdd : List Sym → List Sym → List Sym
  | [], q => q
  | p, [] => p
  | a :: p, b :: q => (a ^^^ b) :: gfAdd p q

/-- The generator polynomial, highest coefficient first: its roots are alpha^0 to alpha^29. (PRESUMED, log entry 145) -/
def rsGen : List Sym :=
  (List.range 30).foldl (fun g i => List.zipWith (· ^^^ ·) (g ++ [0]) (0 :: g.map (gfMul (gfAlpha i)))) [1]

/-- The 30 parity symbols of 514 message symbols: the remainder of the message, first symbol highest, times x^30. -/
def rsParity (m : List Sym) : List Sym :=
  m.foldl (fun r s =>
    let f := s ^^^ r.headD 0
    List.zipWith (fun a g => a ^^^ gfMul f g) (r.drop 1 ++ [0]) (rsGen.drop 1)) (List.replicate 30 0)

/-- The 30 syndromes of a received codeword. -/
def rsSyndromes (c : List Sym) : List Sym := (List.range 30).map fun i => gfEval c (gfAlpha i)

/-- State of the error-locator iteration: locator, earlier locator, its discrepancy, its length, steps since. -/
structure RsIter where
  loc  : List Sym := [1]
  old  : List Sym := [1]
  disc : Sym := 1
  len  : Nat := 0
  gap  : Nat := 1

/-- One step of the Berlekamp-Massey iteration over the syndromes. -/
def rsStep (syn : List Sym) (t : RsIter) (n : Nat) : RsIter :=
  let d := (List.range (t.len + 1)).foldl (fun a i => a ^^^ gfMul (t.loc.getD i 0) (syn.getD (n - i) 0)) 0
  if d = 0 then { t with gap := t.gap + 1 }
  else
    let k := gfMul d (gfInv t.disc)
    let loc := gfAdd t.loc (List.replicate t.gap 0 ++ t.old.map (gfMul k))
    if 2 * t.len ≤ n then { loc := loc, old := t.loc, disc := d, len := n + 1 - t.len, gap := 1 }
    else { t with loc := loc, gap := t.gap + 1 }

/-- The error locator of the syndromes, lowest coefficient first, and its length. -/
def rsLocator (syn : List Sym) : List Sym × Nat :=
  let t := (List.range 30).foldl (rsStep syn) {}
  (t.loc, t.len)

/-- The error at codeword position i, counted from the first symbol: 0 where the locator has no root there. -/
def rsError (syn loc : List Sym) (len i : Nat) : Sym :=
  let x := gfAlpha (543 - i)
  let y := gfInv x
  if gfEval loc.reverse y ≠ 0 then 0
  else
    let omega := (List.range len).map fun k =>
      (List.range (k + 1)).foldl (fun a j => a ^^^ gfMul (loc.getD j 0) (syn.getD (k - j) 0)) 0
    let slope := (List.range loc.length).map fun k => if k % 2 = 0 then loc.getD (k + 1) 0 else 0
    gfMul x (gfMul (gfEval omega.reverse y) (gfInv (gfEval slope.reverse y)))

/-- Correct a received codeword of 544 symbols: the codeword within 15 symbols of it and how many were corrected; none where
there is no such codeword (R278). -/
def rsCorrect (c : List Sym) : Option (List Sym × Nat) :=
  let syn := rsSyndromes c
  if syn.all (· = 0) then some (c, 0)
  else
    let l := rsLocator syn
    let errs := (List.range 544).map (rsError syn l.1 l.2)
    let n := (errs.filter (· ≠ 0)).length
    let fixed := List.zipWith (· ^^^ ·) c errs
    if l.2 ≤ 15 ∧ n = l.2 ∧ (rsSyndromes fixed).all (· = 0) then some (fixed, n) else none

/-! ### Bytes, symbols and bits (R281, R284) -/

/-- Bytes as symbols: symbol j takes bits 10j to 10j + 9, bit 0 of byte 0 first (R281). -/
def bytesToSyms : List Byte → List Sym
  | a :: b :: c :: d :: e :: rest =>
    let n := leNat [a, b, c, d, e]
    ([0, 1, 2, 3].map fun i => BitVec.ofNat 10 (n >>> (10 * i))) ++ bytesToSyms rest
  | _ => []

/-- Symbols as bytes. -/
def symsToBytes : List Sym → List Byte
  | a :: b :: c :: d :: rest =>
    leBytes 5 (a.toNat + b.toNat * 2 ^ 10 + c.toNat * 2 ^ 20 + d.toNat * 2 ^ 30) ++ symsToBytes rest
  | _ => []

/-- A lane's bits from its symbols, lowest bit first (R282). -/
def symBits (ss : List Sym) : List Bool := ss.flatMap fun s => (List.range 10).map s.getLsbD

/-- BIP-8 of a lane's bits: bit i is the even parity of the bits at position i, modulo 8 (R284). -/
def bip8 (ss : List Sym) : Byte :=
  ((symBits ss).foldl (fun t b => ((t.1 + 1) % 8, if b then t.2 ^^^ BitVec.ofNat 8 (2 ^ t.1) else t.2)) (0, 0)).2

/-! ### The trailer and the markers (R283, R285) -/

/-- The marker of a link lane (R283). -/
def laneMarker (k : Nat) : BitVec 20 := if k = 0 then 0x3D5A6 else 0x94E27

/-- The trailer's symbols T0 to T7 (R283). -/
def trailerSyms (t : Trailer) : List Sym :=
  let w : Sym := BitVec.ofNat 10 (t.width + t.nextWidth * 2 ^ 2 + t.lane * 2 ^ 4 + t.nextLane * 2 ^ 5)
  [(laneMarker 0).setWidth 10, (laneMarker 1).setWidth 10, (laneMarker 0 >>> 10).setWidth 10,
   (laneMarker 1 >>> 10).setWidth 10, t.bip0.setWidth 10, t.bip1.setWidth 10, w, w]

/-- What a trailer's symbols T0 to T7 say; the width information is read from T6, or from T7 where T6 is of a codeword that
could not be corrected (R283). -/
def trailerOf (ts : List Sym) (t6 : Bool) : Trailer :=
  let w := (ts.getD (if t6 then 6 else 7) 0).toNat
  { width := w % 4, nextWidth := w / 4 % 4, lane := w / 16 % 2, nextLane := w / 32 % 2
    bip0 := (ts.getD 4 0).setWidth 8, bip1 := (ts.getD 5 0).setWidth 8 }

/-- What a marker pattern names: the link lane, none in frames of one-lane format, and whether the lane is inverted
(R283, R285). -/
def markOf (m : Mark) : Option (Option Nat × Bool) :=
  match m.second with
  | none =>
    if m.first = laneMarker 0 then some (some 0, false) else if m.first = laneMarker 1 then some (some 1, false)
    else if m.first = ~~~ laneMarker 0 then some (some 0, true) else if m.first = ~~~ laneMarker 1 then some (some 1, true)
    else none
  | some b =>
    if m.first = laneMarker 0 ∧ b = laneMarker 1 then some (none, false)
    else if m.first = ~~~ laneMarker 0 ∧ b = ~~~ laneMarker 1 then some (none, true)
    else none

/-- Frame lock of a lane from the markers found in successive frames, newest last: three frames with the same correct
markers (R285). -/
def lockOf (seen : List Mark) : Option (Option Nat × Bool) :=
  match seen.reverse with
  | a :: b :: c :: _ => if a = b ∧ b = c then markOf a else none
  | _ => none

/-- Four frames in succession without correct markers (R285). -/
def lockGone (seen : List Mark) : Bool := decide (4 ≤ seen.length) && (seen.reverse.take 4).all fun m => (markOf m).isNone

/-! ### What the lanes carry (R281, R282) -/

/-- The 514 message symbols of codeword c (R281). -/
def codeword (m : List Sym) (c : Nat) : List Sym := (List.range 514).map fun i => m.getD (4 * i + c) 0

/-- The message symbols of a frame: ten flits, then the trailer (R281). -/
def frameMsg (flits : List (List Byte)) (t : Trailer) : List Sym := bytesToSyms flits.flatten ++ trailerSyms t

/-- The symbols lane k carries of a frame, in order: at two-lane width the message symbols of its parity and the parity of its
two codewords, at one-lane width all of them (R282). -/
def laneSyms (width k : Nat) (m : List Sym) : List Sym :=
  let par := fun c => rsParity (codeword m c)
  if width = 2 then
    let p := par k
    let q := par (k + 2)
    ((List.range 1028).map fun i => m.getD (2 * i + k) 0) ++ (List.range 30).flatMap fun i => [p.getD i 0, q.getD i 0]
  else
    let ps := [0, 1, 2, 3].map par
    m ++ (List.range 30).flatMap fun i => ps.map fun p => p.getD i 0

/-! ### The line code (R278, R282) -/

/-- PAM4 levels of a lane's bits, a pair at a time, by the Gray mapping 00, 01, 11, 10, first bit first.
(PRESUMED, log entry 145) -/
def grayLevels : List Bool → List (Fin 4)
  | a :: b :: rest => (if a then (if b then 2 else 3) else if b then 1 else 0) :: grayLevels rest
  | _ => []

/-- 1/(1+D) precoding: each level less the level sent before it, modulo 4. (PRESUMED, log entry 145) -/
def precode : Fin 4 → List (Fin 4) → List (Fin 4)
  | _, [] => []
  | last, g :: rest => (g - last) :: precode (g - last) rest

/-- Levels a transmit lane sends for a frame's bits, and the last before inversion: NRZ at rung 1, else PAM4 with precoding
and inversion as its equalisation entry says (R278, R282, R286, R308). -/
def lineLevels (rung : Nat) (eq : Word64) (last : Fin 4) (bits : List Bool) : List (Fin 4) × Fin 4 :=
  let raw := if rung ≤ 1 then bits.map fun b => if b then 3 else 0 else grayLevels bits
  let ls := if decide (2 ≤ rung) && bit eq 40 then precode last raw else raw
  (if bit eq 41 then ls.map fun x => 3 - x else ls, ls.getLastD last)

/-! ### A received frame (R280, R281, R284) -/

/-- What a received frame decodes to. -/
structure RxFrame where
  /-- its ten flits, 256 bytes each -/
  flits : List (List Byte)
  /-- its trailer; none where neither codeword that carries the width could be corrected -/
  trailer : Option Trailer
  /-- symbols corrected in each of the four codewords; none: uncorrectable -/
  fixed : List (Option Nat)

/-- The four received codewords, from the symbols link lanes 0 and 1 brought, or the active lane's at one-lane width (R282). -/
def rxCodewords (width : Nat) (a b : List Sym) : List (List Sym) :=
  [0, 1, 2, 3].map fun c =>
    if width = 2 then
      let l := if c % 2 = 0 then a else b
      ((List.range 514).map fun i => l.getD (2 * i + c / 2) 0) ++ (List.range 30).map fun i => l.getD (1028 + 2 * i + c / 2) 0
    else ((List.range 514).map fun i => a.getD (4 * i + c) 0) ++ (List.range 30).map fun i => a.getD (2056 + 4 * i + c) 0

/-- Cut bytes into flits of 256. -/
def cutFlits : Nat → List Byte → List (List Byte)
  | 0, _ => []
  | n + 1, bs => bs.take 256 :: cutFlits n (bs.drop 256)

/-- Decode a frame. A codeword that cannot be corrected passes on as received (R278, R281). -/
def decodeFrame (width : Nat) (a b : List Sym) : RxFrame :=
  let rx := rxCodewords width a b
  let fixed := rx.map rsCorrect
  let cws := List.zipWith (fun (c : List Sym) r => match r with | some (x, _) => x | none => c) rx fixed
  let m := (List.range 2056).map fun j => (cws.getD (j % 4) []).getD (j / 4) 0
  let ok := fun c => ((fixed.getD c none).isSome)
  { flits := cutFlits 10 (symsToBytes (m.take 2048))
    trailer := if ok 2 || ok 3 then some (trailerOf (m.drop 2048) (ok 2)) else none
    fixed := fixed.map fun r => r.map (·.2) }

/-- A flit's 256 bytes (R287). -/
def flitBytes (f : Flit) : List Byte := flitBody f ++ leBytes 8 f.crc.toNat

/-- The flit 256 bytes spell (R287). -/
def flitOf (bs : List Byte) : Flit :=
  let w := word bs 0
  { ftype := BitVec.ofNat 4 (fld w 0 4), fseq := BitVec.ofNat 12 (fld w 4 12), ack := BitVec.ofNat 12 (fld w 16 12)
    vc := BitVec.ofNat 5 (fld w 28 5), valid := BitVec.ofNat 8 (fld w 33 8), pool := bit w 41
    crSel := BitVec.ofNat 5 (fld w 42 5), crCount := BitVec.ofNat 16 (fld w 47 16), retry := bit w 63
    payload := (bs.drop 8).take 240, crc := word bs 248 }

end Sys2Proof.Machine
end

