-- ==== Sys2Proof/Machine/Arith.lean ====
section
/-!
DEFINITION. The arithmetic of collectives: integer operations (R219), floating operations in the element's own format
(R220), and exact sum (R222 to R225).
-/
namespace Sys2Proof.Machine

open Sys2Proof

/-- A binary floating format by its fraction and exponent widths (R202, R225). -/
structure Fmt where
  fb : Nat
  eb : Nat
deriving DecidableEq, Repr

def fmt64 : Fmt := { fb := 52, eb := 11 }
def fmt32 : Fmt := { fb := 23, eb := 8 }
def fmtB16 : Fmt := { fb := 7, eb := 8 }
def fmt16 : Fmt := { fb := 10, eb := 5 }

/-- The exponent bias, which is also emax; emin is 1 - bias (R225). -/
def Fmt.bias (F : Fmt) : Nat := 2 ^ (F.eb - 1) - 1
/-- All exponent bits set. -/
def Fmt.emask (F : Fmt) : Nat := 2 ^ F.eb - 1
/-- The sign bit's weight. -/
def Fmt.sign (F : Fmt) : Nat := 2 ^ (F.fb + F.eb)
/-- Positive infinity. -/
def Fmt.inf (F : Fmt) : Nat := F.emask * 2 ^ F.fb
/-- The default quiet NaN (R220). -/
def Fmt.nan (F : Fmt) : Nat := F.inf + 2 ^ (F.fb - 1)

/-- The exponent field. -/
def Fmt.exp (F : Fmt) (x : Nat) : Nat := x / 2 ^ F.fb % 2 ^ F.eb
/-- The fraction field. -/
def Fmt.frac (F : Fmt) (x : Nat) : Nat := x % 2 ^ F.fb
/-- The sign. -/
def Fmt.neg (F : Fmt) (x : Nat) : Bool := decide (x / F.sign % 2 = 1)
/-- Not a number. -/
def Fmt.isNan (F : Fmt) (x : Nat) : Bool := F.exp x == F.emask && F.frac x != 0
/-- An infinity. -/
def Fmt.isInf (F : Fmt) (x : Nat) : Bool := F.exp x == F.emask && F.frac x == 0
/-- The integer m of |x| = m * 2^q (R223). -/
def Fmt.m (F : Fmt) (x : Nat) : Nat := if F.exp x = 0 then F.frac x else 2 ^ F.fb + F.frac x
/-- The exponent q of |x| = m * 2^q (R223). -/
def Fmt.q (F : Fmt) (x : Nat) : Int := ((max 1 (F.exp x) : Nat) : Int) - (F.bias : Int) - (F.fb : Int)

/-- v / 2^n rounded to nearest, ties to even. -/
def halfEven (v n : Nat) : Nat :=
  if n = 0 then v
  else
    let r := v % 2 ^ n
    let k := v / 2 ^ n
    if 2 ^ (n - 1) < r then k + 1
    else if r = 2 ^ (n - 1) then k + k % 2
    else k

/-- What a rounding came to: the bits, whether it was inexact, whether it overflowed. -/
structure Rounded where
  bits : Nat
  inexact : Bool := false
  overflow : Bool := false
deriving DecidableEq, Repr

/-- Round v * 2^s to a format, to nearest with ties to even (R225). -/
def Fmt.round (F : Fmt) (neg : Bool) (v : Nat) (s : Int) : Rounded :=
  let sg := if neg then F.sign else 0
  if v = 0 then { bits := sg }
  else
    let emin : Int := 1 - (F.bias : Int)
    let e : Int := max ((Nat.log2 v : Int) + s) emin
    let k : Int := e - (F.fb : Int)
    let r := if k ≤ s then v * 2 ^ (s - k).toNat else halfEven v (k - s).toNat
    let inexact := decide (s < k ∧ v % 2 ^ (k - s).toNat ≠ 0)
    let r1 := if r = 2 ^ (F.fb + 1) then 2 ^ F.fb else r
    let e1 := if r = 2 ^ (F.fb + 1) then e + 1 else e
    if (F.bias : Int) < e1 then { bits := sg + F.inf, inexact := true, overflow := true }
    else if r1 < 2 ^ F.fb then { bits := sg + r1, inexact := inexact }
    else { bits := sg + (e1 + (F.bias : Int)).toNat * 2 ^ F.fb + (r1 - 2 ^ F.fb), inexact := inexact }

/-- IEEE 754 addition, to nearest with ties to even (R220). -/
def Fmt.add (F : Fmt) (x y : Nat) : Nat :=
  if F.isNan x || F.isNan y then F.nan
  else if F.isInf x then (if F.isInf y && F.neg x != F.neg y then F.nan else x)
  else if F.isInf y then y
  else
    let q := min (F.q x) (F.q y)
    let a : Int := (F.m x * 2 ^ (F.q x - q).toNat : Nat)
    let b : Int := (F.m y * 2 ^ (F.q y - q).toNat : Nat)
    let t := (if F.neg x then -a else a) + (if F.neg y then -b else b)
    if t = 0 then (if F.neg x && F.neg y then F.sign else 0)
    else (F.round (decide (t < 0)) t.natAbs q).bits

/-- The place of a number in the order in which -0 lies below +0 (R220). -/
def Fmt.key (F : Fmt) (x : Nat) : Int :=
  if F.neg x then -((x % F.sign : Nat) : Int) - 1 else ((x % F.sign : Nat) : Int)

/-- IEEE 754-2019 minimum (R220). -/
def Fmt.min (F : Fmt) (x y : Nat) : Nat :=
  if F.isNan x || F.isNan y then F.nan else if F.key x ≤ F.key y then x else y

/-- IEEE 754-2019 maximum (R220). -/
def Fmt.max (F : Fmt) (x y : Nat) : Nat :=
  if F.isNan x || F.isNan y then F.nan else if F.key x ≤ F.key y then y else x

/-! ### Element types and operations (R202, R203) -/

/-- Bytes of an element type (R202). -/
def elemSize : Nat → Nat
  | 0x01 | 0x02 | 0x03 => 8
  | 0x04 => 4
  | 0x05 | 0x06 => 2
  | 0x07 => 1
  | _ => 0

/-- The floating format of an element type. -/
def elemFmt : Nat → Option Fmt
  | 0x03 => some fmt64
  | 0x04 => some fmt32
  | 0x05 => some fmtB16
  | 0x06 => some fmt16
  | _ => none

/-- The pair of COP and ELEM_TYPE is one of R203's. -/
def validPair (cop elem : Nat) : Bool :=
  match cop with
  | 0x01 | 0x02 | 0x03 => decide (1 ≤ elem ∧ elem ≤ 6)
  | 0x04 | 0x05 | 0x06 => elem == 1 || elem == 2
  | 0x07 => elem == 3 || elem == 4
  | 0x08 => elem == 0
  | 0x09 => decide (1 ≤ elem ∧ elem ≤ 7)
  | _ => false

/-- Bytes of an in-tree element (R203). -/
def treeElem (cop elem : Nat) : Nat := if cop = 0x07 then 32 else elemSize elem

/-- Elements in a chunk (R203). -/
def chunkElems (cop elem : Nat) : Nat := if treeElem cop elem = 0 then 1 else 2048 / treeElem cop elem

/-- Bytes of a result element at RECV_VA (R203). -/
def resultElem (cop elem : Nat) (raw : Bool) : Nat := if cop = 0x07 && raw then 32 else elemSize elem

/-- One combining step on one element (R219, R220, R224). -/
def combineElem (cop elem x y : Nat) : Nat :=
  match cop with
  | 0x01 =>
    match elemFmt elem with
    | some F => F.add x y
    | none => (x + y) % 2 ^ 64
  | 0x02 =>
    match elemFmt elem with
    | some F => F.min x y
    | none => if elem = 1 then (if signed 64 x ≤ signed 64 y then x else y) else min x y
  | 0x03 =>
    match elemFmt elem with
    | some F => F.max x y
    | none => if elem = 1 then (if signed 64 x ≤ signed 64 y then y else x) else max x y
  | 0x04 => x &&& y
  | 0x05 => x ||| y
  | 0x06 => x ^^^ y
  | 0x07 => (x + y) % 2 ^ 256
  | _ => x

/-- A list of bytes as little-endian elements of n bytes; fuel bounds the elements. -/
def elemsOf (n : Nat) : Nat → List Byte → List Nat
  | 0, _ => []
  | fuel + 1, bs => if bs.isEmpty then [] else leNat (bs.take n) :: elemsOf n fuel (bs.drop n)

/-- Elements as bytes again. -/
def elemBytes (n : Nat) (xs : List Nat) : List Byte := xs.flatMap (leBytes n)

/-- Combine two contributions of one chunk elementwise (R213). -/
def combineBytes (cop elem : Nat) (a b : List Byte) : List Byte :=
  let n := treeElem cop elem
  elemBytes n (List.zipWith (combineElem cop elem) (elemsOf n a.length a) (elemsOf n b.length b))

/-! ### Exact sum (R223, R225); flags are bits 0 INEXACT, 1 OVERFLOW, 2 INVALID, 3 ROUNDED, 4 RESULT_INF (R218) -/

/-- A leaf's conversion of one input to 256-bit two's complement at scale s, with its flags (R223). -/
def toFixed (F : Fmt) (s : Int) (x : Nat) : Nat × Nat :=
  if F.isNan x then (0, 4)
  else if F.isInf x then (0, 2)
  else
    let m := F.m x
    let q := F.q x
    if m = 0 then (0, 0)
    else if s + 236 ≤ (Nat.log2 m : Int) + q then (0, 2)
    else
      let v := if s ≤ q then m * 2 ^ (q - s).toNat else m / 2 ^ (s - q).toNat
      let inexact := if s ≤ q then false else m % 2 ^ (s - q).toNat != 0
      ((if F.neg x then (2 ^ 256 - v) % 2 ^ 256 else v), b2n inexact)

/-- The root's conversion of one sum, with its flags (R225). -/
def fromFixed (F : Fmt) (s : Int) (x : Nat) : Nat × Nat :=
  let neg := decide (2 ^ 255 ≤ x)
  let v := if neg then 2 ^ 256 - x else x
  if v = 0 then (0, 0)
  else
    let r := F.round neg v s
    (r.bits, b2n r.inexact * 8 + b2n r.overflow * 16)

/-- A leaf's in-tree form of one chunk of input (R203, R213): exact sum converts, every other operation keeps it. -/
def leafForm (cop elem : Nat) (s : Int) (bs : List Byte) : List Byte × Nat :=
  if cop = 0x07 then
    match elemFmt elem with
    | none => (bs, 0)
    | some F =>
      let xs := (elemsOf (elemSize elem) bs.length bs).map (toFixed F s)
      (elemBytes 32 (xs.map (·.1)), (xs.map (·.2)).foldl (· ||| ·) 0)
  else (bs, 0)

/-- The root's result form of one chunk (R214, R226). -/
def resultForm (cop elem : Nat) (s : Int) (raw : Bool) (bs : List Byte) : List Byte × Nat :=
  if cop = 0x07 && !raw then
    match elemFmt elem with
    | none => (bs, 0)
    | some F =>
      let xs := (elemsOf 32 bs.length bs).map (fromFixed F s)
      (elemBytes (elemSize elem) (xs.map (·.1)), (xs.map (·.2)).foldl (· ||| ·) 0)
  else (bs, 0)

end Sys2Proof.Machine
end

