-- ==== Sys2Proof/Machine/Operands.lean ====
section
/-!
DEFINITION. The fields of every operand form: admin entries (R59, R62, R90, R108, R114, R117, R155, R163, R333,
R336), work descriptors (R72), and the register fields commands consult.
-/
namespace Sys2Proof

open Machine

/-! ### Common to admin entries and work descriptors (R59, R72) -/

/-- OPCODE. -/
def Desc.opcode (d : Desc) : Nat := d.f 0 0 8
/-- SEQ. -/
def Desc.seq (d : Desc) : Nat := d.f 0 8 8
/-- CMD_ID of an admin entry. -/
def Desc.cmdId (d : Desc) : Word16 := BitVec.ofNat 16 (d.f 0 16 16)
/-- TARGET_FN of an admin entry. -/
def Desc.targetFn (d : Desc) : Nat := d.f 0 32 8
/-- SIGNAL of a work descriptor. -/
def Desc.signal (d : Desc) : Bool := bit d.w0 16
/-- CONN of a work descriptor. -/
def Desc.conn (d : Desc) : Nat := d.f 0 32 24
/-- USER_CTX of a work descriptor. -/
def Desc.userCtx (d : Desc) : Word64 := d.w1

/-! ### Work descriptors (R72) -/

/-- LOCAL_VA, RESULT_VA, BUF_VA or SEND_VA. -/
def Desc.localVa (d : Desc) : Nat := d.w2.toNat
/-- LOCAL_KEY, RESULT_KEY, BUF_KEY or SEND_KEY. -/
def Desc.localKey (d : Desc) : Word32 := d.w3.setWidth 32
/-- LENGTH, or COUNT of a COLL. -/
def Desc.length (d : Desc) : Nat := fld d.w3 32 32
/-- REMOTE_VA, TAG, or RECV_VA of a COLL. -/
def Desc.remoteVa (d : Desc) : Word64 := d.w4
/-- REMOTE_KEY, or RECV_KEY of a COLL. -/
def Desc.remoteKey (d : Desc) : Word32 := d.w5.setWidth 32
/-- IMM of a PUT_FLAG. -/
def Desc.imm (d : Desc) : Word32 := BitVec.ofNat 32 (fld d.w5 32 32)
/-- AOP of an ATOMIC. -/
def Desc.aop (d : Desc) : Nat := fld d.w3 32 4
/-- OPERAND of an ATOMIC. -/
def Desc.operand (d : Desc) : Word64 := d.w6
/-- COMPARE of an ATOMIC. -/
def Desc.compare (d : Desc) : Word64 := d.w7
/-- DEST of a NOTE. -/
def Desc.dest (d : Desc) : Ep := BitVec.ofNat 26 (fld d.w5 0 26)
/-- DEST_MCTX of a SEND_TAGGED or NOTE. -/
def Desc.destMctx (d : Desc) : Nat := fld d.w5 32 16
/-- IGNORE of a POST_RECV. -/
def Desc.ignore (d : Desc) : Word64 := d.w5
/-- SOURCE of a POST_RECV. -/
def Desc.source (d : Desc) : Ep := BitVec.ofNat 26 (fld d.w6 0 26)
/-- ANY_SOURCE of a POST_RECV. -/
def Desc.anySource (d : Desc) : Bool := bit d.w6 26
/-- MCTX of a POST_RECV. -/
def Desc.mctx (d : Desc) : Nat := fld d.w6 32 16
/-- SCALE of a COLL. -/
def Desc.scale (d : Desc) : Int := signed 16 (fld d.w5 32 16)
/-- ELEM_TYPE of a COLL. -/
def Desc.elemType (d : Desc) : Nat := fld d.w5 48 8
/-- COP of a COLL. -/
def Desc.cop (d : Desc) : Nat := fld d.w5 56 8
/-- TREE of a COLL. -/
def Desc.tree (d : Desc) : Nat := fld d.w6 0 14
/-- RAW256 of a COLL. -/
def Desc.raw256 (d : Desc) : Bool := bit d.w6 16

end Sys2Proof

namespace Sys2Proof.Machine

open Sys2Proof

/-! ### Register fields that commands consult -/

/-- The fields of RT_COORD, RT_WIN_CTL, RT_HP_DRAIN and EPOCH_CTL stand in the register file by base-copy offset. -/
def rtCoordWord (d : Dev) : Word64 := regInForce d 0x20040 0
/-- RT_COORD.VALID (R273). -/
def coordValid (d : Dev) : Bool := bit (rtCoordWord d) 16
/-- RT_COORD.COORD (R273). -/
def coord (d : Dev) : Nat := fld (rtCoordWord d) 0 16
/-- RT_WIN_CTL (R275). -/
def winCtl (d : Dev) : Word64 := regInForce d 0x20050 (2 ^ 63 + 0x100)
/-- Window in bytes: values below 8 KiB act as 8 KiB (R275). -/
def windowBytes (d : Dev) : Nat := max 8 (fld (winCtl d) 0 14) * 1024
/-- TC_CTL.OVERHEAD (R344), 24 where the register has failed its parity (R490). -/
def overhead (d : Dev) : Nat := if d.cfg.hit.contains (6, 0x30000) then 24 else fld (regInForce d 0x30000 0x18) 0 8
/-- MTC_POOL_CTL.UNEXP_GIB in blocks of 4 KiB (R182). -/
def poolBlocks (d : Dev) : Nat := fld (regInForce d 0x310 0x10) 0 6 * 262144
/-- TRE_SLOT_CTL.SLOT_GIB in slots of 2 KiB (R236). -/
def slotArea (d : Dev) : Nat := fld (regInForce d 0x330 1) 0 5 * 524288

/-- The host domain of a port is drained: by RT_HP_DRAIN (R265) or by Drain mode. -/
def portDrained (d : Dev) (p : Fin 4) : Bool := d.rt.drain.testBit p.val || decide (d.mode = .drain)

/-- HOLD_CAUSE as the island shows it (R397). -/
def islandCause (i : Isl) : Nat :=
  b2n (decide (2880 ≤ (i.blocks.filter fun b => b.signed && decide (i.acked < b.seq)).length))
  + b2n i.timeUnset * 2
  + b2n (decide (32768 < i.audit.length + 256)) * 4
  + b2n i.flashHeld * 8
  + b2n (!i.silent.isEmpty) * 16

/-- HOLD_CAUSE as the device sees it: ABSENT while the island is unpowered (R382, R397). -/
def holdCause (d : Dev) : Nat := if d.isl.powered then islandCause d.isl else 32

/-- The meter is full (R399): operations are refused. A device without metering never is (R2). -/
def meterFull (d : Dev) : Bool := d.fuse.meter && (d.isl.full || !d.isl.powered)

/-- The meter holds (R398): new activations are refused. -/
def meterHold (d : Dev) : Bool := d.fuse.meter && holdCause d != 0

/-- Admin commands the present mode refuses (R448). -/
def modeRefusesAdmin (d : Dev) (op : Nat) : Bool :=
  (d.mode = .configure || d.mode = .replay) && (op == 0x10 || op == 0x18 || op == 0x28 || op == 0x39)

/-- Admin commands a meter hold refuses (R398). -/
def meterRefusesAdmin (op : Nat) : Bool := op == 0x39

/-- Host queues run in the present mode (R5). -/
def queuesRun (d : Dev) : Bool := d.mode = .worker || d.mode = .manager || d.mode = .drain

/-- The endpoint address of a local function. -/
def selfEp (d : Dev) (f : FnId) : Ep := epOf (coord d) f

/-- The reachability bit of an endpoint: index bits [25:8] of its address (R254). -/
def reachable (d : Dev) (e : Ep) : Bool :=
  let idx := e.toNat / 256
  bit ((tget d.rt.reach (idx / 64)).getD 0) (idx % 64)

end Sys2Proof.Machine
end

