-- ==== Sys2Proof/Machine/Record.lean ====
section
/-!
DEFINITION. What Inkwell records of its unit as it works (R473 to R475): the inputs that open operations, memory read responses,
arbitration tokens and output hashes; and the checkpoint that holds the unit's inputs.
-/
namespace Sys2Proof.Machine

open Sys2Proof

/-- The slot an engine serves, if it serves one. -/
def servedSlot (d : Dev) (k : Nat) : Option Nat :=
  if k < 32 then (if thas d.eng.slotMpe k || d.eng.lost.testBit k || d.eng.grafting.any (fun g => g.1 == k) then none else some k)
  else match d.eng.slotMpe.find? (fun e => e.2 == k) with
    | some e => if d.eng.lost.testBit e.1 then none else some e.1
    | none => (d.eng.grafting.find? (fun g => g.2.2 == k)).map (·.1)

/-- The recorded unit is the engine of a slot. -/
def slotRecorded (d : Dev) (s : Nat) : Bool := decide (d.ink.unit < 34) && servedSlot d d.ink.unit == some s

/-- The recorded unit is this Trellis unit. -/
def tuRecorded (d : Dev) (u : Nat) : Bool := d.ink.unit == 0x40 + u

/-- A checkpoint runs: the recorded unit takes no new inputs (R475). -/
def inkHolds (d : Dev) : Bool := d.ink.st == 1 || (d.ink.st == 2 && d.ink.ckpt)

/-! ### Records (R473) -/

/-- A record's bytes: its header, its payload, padded to 8. -/
def recBytes (r : InkRec) : List Byte :=
  leBytes 8 (r.kind + r.data.length % 2 ^ 16 * 2 ^ 16 + r.time.toNat * 2 ^ 32) ++ r.data
  ++ List.replicate ((8 - r.data.length % 8) % 8) 0

/-- The bytes of a segment (R473, R475). -/
def segBytes (s : Seg) : List Byte := s.head ++ s.recs.flatMap recBytes

/-- Write a record into the segment in progress. -/
def addRec (kind : Nat) (data : List Byte) (d : Dev) : Dev :=
  if d.ink.st = 2 then
    { d with ink := { d.ink with segs := tmod d.ink.segs d.ink.current fun s => { s with
        recs := s.recs ++ [{ kind := kind, time := BitVec.ofNat 32 (fld d.clk.tsc 2 32), data := data }] } } }
  else d

/-- A merge point of the unit has decided: eight tokens make a record. Which merge points a unit has the specification does not
say: a free value. (DESIGN CHOICE, log entry 120) -/
def addToken (d : Dev) : Dev :=
  let v := takeFree d
  let toks := d.ink.toks ++ [v.1.setWidth 8]
  if toks.length < 8 then { v.2 with ink := { v.2.ink with toks := toks } }
  else addRec 3 toks { v.2 with ink := { v.2.ink with toks := [] } }

/-- The unit takes an input, which opens an operation (R473, R474). -/
def inkInput (kind : Nat) (key : InkKey) (data : List Byte) (d : Dev) : Dev :=
  if d.ink.st = 2 && !d.ink.ckpt then
    let d1 := addToken (addRec kind data d)
    { d1 with ink := { d1.ink with ops := d1.ink.ops + 1, opened := d1.ink.opened ++ [(d1.ink.ops, key)] } }
  else d

/-- The unit takes a memory read response. -/
def inkRead (addr : Nat) (data : List Byte) (d : Dev) : Dev := addRec 2 (leBytes 8 addr ++ data) d

/-- Operations retire: the output hash of each, over its outputs as tile-network beats, is recorded (R474). The form of a beat is not
stated: free bytes. (DESIGN CHOICE, log entry 120) -/
def inkRetire (p : Nat × InkKey → Bool) (d : Dev) : Dev :=
  (d.ink.opened.filter p).foldl (fun d o =>
    addRec 4 (leBytes 8 o.1 ++ leBytes 8 (crc64 (Config.freeBytes d.free)).toNat) { d with free := d.free + 1 })
    { d with ink := { d.ink with opened := d.ink.opened.filter fun o => !p o } }

/-- A started descriptor has ended. -/
def inkEnded (f : FnId) (sq : Nat) (cnt : Word32) (d : Dev) : Dev := inkRetire (fun o => o.2 == .work f sq cnt) d

/-! ### Operations of packets -/

/-- Accesses past their key check and not ended: asked for, walking, waiting for the data of their reads or for an atomic's
word, or held for a graft (R91, R110). A suspended access holds no translation and is none of them (R105). -/
def running (d : Dev) : List Access :=
  d.xl.todo ++ d.xl.walks.map (·.acc)
  ++ (d.xpt.reads.filterMap fun r => match r.why with | .payload a => some a | .walk _ => none)
  ++ d.xpt.atomWait ++ d.xl.heldAcc ++ d.xl.heldReads.map (·.1)

/-- The connection an access is made for. -/
def contConn : Cont → Option Nat
  | .txPayload n _ | .place n _ | .getRead n _ _ | .dupRead n _ | .atomRead n _ | .getPlace n _ _ _ _ | .atomResult n _ _ => some n
  | .noteRead .. | .collRead .. | .collPlace .. | .copy .. | .notePlace .. => none

/-- At the end of a command's effect: an operation that a packet opened retires once no access of its connection is under way.
(DESIGN CHOICE, log entry 120) -/
def inkRest (d : Dev) : Dev :=
  if d.ink.opened.isEmpty then d
  else
    let busy := (running d).filterMap fun a => contConn a.cont
    inkRetire (fun o => match o.2 with | .conn n => !busy.contains n | .once => true | .work .. => false) d

end Sys2Proof.Machine
end

