-- ==== Sys2Proof/Machine/Xlate.lean ====
section
/-!
DEFINITION. Memory regions and address translation: key checks (R86 to R89), the caches (R96, R97), walks
(R94, R99, R100), accessed and dirty marks (R103) and trap slots (R104 to R106).
-/
namespace Sys2Proof.Machine

open Sys2Proof

/-! ### Keys and regions -/

/-- Index of a region key (R86). -/
def keyIndex (k : Word32) : Nat := k.toNat / 256

/-- Generation of a region key (R86). -/
def keyGen (k : Word32) : Nat := k.toNat % 256

/-- The region a key names, for the function named: the first check of R89. -/
def regionOf (d : Dev) (f : FnId) (key : Word32) : Option Region :=
  match tget d.xl.regions (keyIndex key) with
  | some r => if r.gen = keyGen key ∧ r.fn = f then some r else none
  | none => none

/-- The region grants a right (R88). -/
def grants (r : Region) : Right → Bool
  | .localRead => true
  | .localWrite => r.lw
  | .remoteRead => r.rr
  | .remoteWrite => r.rw
  | .remoteAtomic => r.ra

/-- The access writes (R94, R103). -/
def Right.writes : Right → Bool
  | .localWrite | .remoteWrite | .remoteAtomic => true
  | .localRead | .remoteRead => false

/-- The first three checks of R89, in their order; a zero-length access makes the first two only. -/
def checkRegion (d : Dev) (f : FnId) (key : Word32) (va len : Nat) (right : Right) : Except Status Region :=
  match regionOf d f key with
  | none => .error .keyInvalid
  | some r =>
    if !grants r right then .error .accessDenied
    else if len = 0 then .ok r
    else if r.va ≤ va ∧ va + len ≤ r.va + r.len then .ok r
    else .error .bounds

/-! ### Caches -/

/-- Address bits below a page of the given leaf level (R92). -/
def pageShift (level : Nat) : Nat := 12 + 9 * (level - 1)

/-- The translation tile of a function's host port (R22). -/
def tileOf (f : FnId) : Nat := f.port.val / 2

/-- A cached leaf covers an address (R97). -/
def leafCovers (f : FnId) (asn va : Nat) (l : Leaf) : Bool :=
  decide (l.fn = f) && decide (l.asn = asn) && decide (l.page = va / 2 ^ pageShift l.level)

/-- The lookaside buffer of a tile. -/
def tlbOf (d : Dev) (tile : Nat) : List Leaf := (tget d.xl.tlb tile).getD []

/-- The walk cache of a tile. -/
def wcOf (d : Dev) (tile : Nat) : List Node := (tget d.xl.wcache tile).getD []

/-- XL_L2_CTL in force (R98). -/
def xlL2Ctl (d : Dev) : Word64 := regInForce d 0x200 0

/-- Entries the HBM translation cache takes: 0 while it is not enabled (R98) or is bypassed by a fence (R490). -/
def l2Cap (d : Dev) : Nat := if bit (xlL2Ctl d) 63 && !fencedBlk d 0 then 2 ^ fld (xlL2Ctl d) 0 5 else 0

/-- Two leaves with one tag. -/
def sameTag (a b : Leaf) : Bool := a.fn = b.fn && a.asn = b.asn && a.level = b.level && a.page = b.page

/-- Put a leaf into the lookaside buffer; the entry it drives out goes to the HBM cache where that is enabled (R97).
(DESIGN CHOICE, log entry 46) -/
def insertLeaf (l : Leaf) (d : Dev) : Dev :=
  let tile := tileOf l.fn
  let old := (tlbOf d tile).filter (fun x => !sameTag x l)
  let l2 := d.xl.l2.filter (fun x => !sameTag x l)
  match old with
  | [] => { d with xl := { d.xl with tlb := tput d.xl.tlb tile [l], l2 := l2 } }
  | o :: rest =>
    if old.length < 32768 then { d with xl := { d.xl with tlb := tput d.xl.tlb tile (old ++ [l]), l2 := l2 } }
    else
      let l2' := if l2Cap d = 0 then l2 else (l2 ++ [o]).drop ((l2.length + 1) - l2Cap d)
      { d with xl := { d.xl with tlb := tput d.xl.tlb tile (rest ++ [l]), l2 := l2' } }

/-- Remove a leaf from every cache that holds it. -/
def removeLeaf (l : Leaf) (d : Dev) : Dev :=
  { d with xl := { d.xl with
      tlb := tput d.xl.tlb (tileOf l.fn) ((tlbOf d (tileOf l.fn)).filter (fun x => !sameTag x l))
      l2 := d.xl.l2.filter (fun x => !sameTag x l) } }

/-- Put a non-leaf entry into the walk cache of its tile; beyond 2,048 entries the oldest goes. -/
def insertNode (n : Node) (d : Dev) : Dev :=
  let tile := tileOf n.fn
  let old := (wcOf d tile).filter (fun x => !(x.fn = n.fn && x.asn = n.asn && x.level = n.level && x.pfx = n.pfx))
  let l := old ++ [n]
  { d with xl := { d.xl with wcache := tput d.xl.wcache tile (l.drop (l.length - 2048)) } }

/-- The cached leaf for an address: the lookaside buffer first, then the HBM cache (R96). -/
def findLeaf (d : Dev) (f : FnId) (asn va : Nat) : Option Leaf :=
  match (tlbOf d (tileOf f)).find? (leafCovers f asn va) with
  | some l => some l
  | none => if fencedBlk d 0 then none else d.xl.l2.find? (leafCovers f asn va)

/-- The walk-cache entry of one level for an address (R96, R97). -/
def findNode (d : Dev) (f : FnId) (asn va level : Nat) : Option Node :=
  (wcOf d (tileOf f)).find? fun n =>
    decide (n.fn = f) && decide (n.asn = asn) && decide (n.level = level) && decide (n.pfx = va / 2 ^ pageShift level)

/-- The index into the table of a level (R92). -/
def tableIndex (va level : Nat) : Nat := va / 2 ^ pageShift level % 512

/-- Where a walk starts: level to read, table address, W above it (R96). -/
def walkStart (d : Dev) (f : FnId) (asn va : Nat) : Option (Nat × Nat × Bool) :=
  match findNode d f asn va 2 with
  | some n => some (1, n.addr, n.w)
  | none =>
    match findNode d f asn va 3 with
    | some n => some (2, n.addr, n.w)
    | none =>
      match findNode d f asn va 4 with
      | some n => some (3, n.addr, n.w)
      | none =>
        match tget (getFn d f).roots asn with
        | some r => some (4, r.toNat, true)
        | none => none

/-! ### Protected windows (R100 to R102) -/

/-- Eight bytes at addr touch [base, base + size). -/
def touches (addr base size : Nat) : Bool := decide (addr < base + size ∧ base < addr + 8)

/-- The BAR sizes of a function (R53). -/
def barSize (vf : Bool) : Nat → Nat
  | 0 => if vf then 0x4000 else 0x100000
  | 2 => 0x200000
  | _ => 0x10000

/-- A walk-exclusion range in force (R101). -/
def exclRange (d : Dev) (p i : Nat) : Option (Nat × Nat) :=
  let b := regInForce d (0x400 + p * 0x100 + i * 0x10) 0
  let l := regInForce d (0x408 + p * 0x100 + i * 0x10) 0
  if bit b 0 then some (fld b 12 52 * 4096, fld l 12 52 * 4096 + 0xFFF) else none

/-- The protected range a read would touch, as kind and function or index (R100, R102); of several the physical function's BARs
come first, then the virtual functions', then the exclusion ranges. (DEDUCED, log entry 49) -/
def windowHit (d : Dev) (p : Fin 4) (addr : Nat) : Option (Nat × Nat) :=
  let h := getHp d p
  let pf := [0, 2, 4].findSome? fun b =>
    match tget h.barPf b with
    | some a => if touches addr a.toNat (barSize false b) then some (b, 0) else none
    | none => none
  let vf := [0, 2, 4].findSome? fun b =>
    match tget h.barVf b with
    | some a =>
      if h.numVfs ≠ 0 ∧ touches addr a.toNat (barSize true b * h.numVfs) then
        some (b, (addr + 7 - a.toNat) / barSize true b + 1)
      else none
    | none => none
  let ex := (List.range 8).findSome? fun i =>
    match exclRange d p.val i with
    | some (lo, hi) => if lo ≤ hi ∧ addr ≤ hi ∧ lo < addr + 8 then some (7, i) else none
    | none => none
  match pf with
  | some x => some x
  | none => match vf with
    | some x => some x
    | none => ex

/-! ### Walks -/

/-- What one turn of an access came to. -/
inductive XRes where
  /-- every page is translated -/
  | done (a : Access)
  /-- the access fails with a status -/
  | fail (s : Status) (a : Access)
  /-- a mark is missing: leaf level, page and which mark (true: dirty) -/
  | trap (a : Access) (level page : Nat) (dirty : Bool)
  /-- a host read is under way -/
  | wait
  /-- look again -/
  | again (a : Access)
deriving DecidableEq, Repr

/-- Suppress a read that hits a protected window: event and record (R100, R102). -/
def suppressRead (a : Access) (addr : Nat) (hit : Nat × Nat) (level : Nat) (d : Dev) : Dev :=
  report (srcXl (tileOf a.fn)) .contained caWalkTarget 0 (BitVec.ofNat 24 (keyIndex a.key)) 1
    (postEvent a.fn .walkTargetDevice a.key (BitVec.ofNat 64 addr)
      (BitVec.ofNat 64 (hit.1 + hit.2 % 256 * 8 + level * 2 ^ 16)) d)

/-- An occurrence on an access, with its function and key (R462). -/
def accOcc (ev : Nat) (a : Access) : Occ := { ev := ev, fn := some a.fn, key := some (keyIndex a.key), va := some a.va }

/-- Issue the read of one table entry through HPn.0, unless it hits a protected window (R94, R100) or block 0 is fenced
(R490); what range the event names under a fence is not stated: a free value. Where DMA is stopped nothing is read (R410). -/
def issueWalk (w : Walk) (d : Dev) : XRes × Dev :=
  let level := if w.reread.isSome then 0 else w.level
  if dmaStopped d w.acc.fn then (.wait, d)
  else if fencedBlk d 0 then
    let v := takeFree d
    (.fail .walkTargetDevice w.acc, suppressRead w.acc w.table (v.1.toNat % 8, v.1.toNat / 8) level v.2)
  else match windowHit d w.acc.fn.port w.table with
  | some hit => (.fail .walkTargetDevice w.acc, suppressRead w.acc w.table hit level d)
  | none =>
    let id := d.xpt.nextId
    let d1 := { d with
      xl := { d.xl with walks := d.xl.walks ++ [{ w with id := id }] }
      xpt := { d.xpt with
        nextId := id + 1
        reads := d.xpt.reads ++ [{ id := id, fn := w.acc.fn, half := false, addr := w.table, len := 8, why := .walk id }] } }
    (.wait, emit (.hostRead id w.acc.fn.port false [(w.table, 8)]) (occur (accOcc 0x0D w.acc) d1))

/-- Start the walk for the page an access is at. -/
def startWalk (a : Access) (d : Dev) : XRes × Dev :=
  let va := a.va + a.pos
  match walkStart d a.fn a.asn va with
  | none => (.fail .accessDenied a, d)
  | some (level, table, w) =>
    issueWalk { acc := a, level := level, w := w, table := table + 8 * tableIndex va level } d

/-- The mark an access lacks in a leaf (R103): none, or which one (true: dirty); A is named first where both are missing.
(DEDUCED, log entry 139) -/
def missingMark (a : Access) (l : Leaf) : Option Bool :=
  if a.noMarks then none
  else if !l.a then some false
  else if a.right.writes && !l.d then some true
  else none

/-- One turn of an access: the page at its position (R89, R96, R103). A write whose cached leaf lacks W is denied before its
mark is looked at. (DEDUCED, log entry 138) -/
def turn (a : Access) (d : Dev) : XRes × Dev :=
  if !a.checked then
    match checkRegion d a.fn a.key a.va a.len a.right with
    | .error s => (.fail s a, d)
    | .ok r => (.again { a with checked := true, asn := r.asn, noMarks := r.noMarks }, d)
  else if a.len ≤ a.pos then (.done a, d)
  else
    let va := a.va + a.pos
    let d := if (tlbOf d (tileOf a.fn)).any (leafCovers a.fn a.asn va) then d else occur (accOcc 0x0C a) d
    match findLeaf d a.fn a.asn va with
    | none => startWalk a d
    | some l =>
      if a.right.writes && !l.w then (.fail .accessDenied a, d)
      else
        match missingMark a l with
        | some _ =>
          issueWalk { acc := a, level := l.level, w := l.wUp, table := l.ea, reread := some l } d
        | none =>
          let size := 2 ^ pageShift l.level
          let n := min (a.len - a.pos) (size - va % size)
          let a1 := { a with pos := a.pos + n, segs := a.segs ++ [(l.addr + va % size, n)] }
          (if a1.len ≤ a1.pos then .done a1 else .again a1, insertLeaf l d)

/-- An entry with V = 1 is malformed at a level (R94). -/
def malformed (e : Word64) (level : Nat) : Bool :=
  let leaf := bit e 2
  decide (fld e 52 12 ≠ 0) || bit e 3 || (leaf && level == 4)
  || (leaf && level == 2 && decide (fld e 12 9 ≠ 0)) || (leaf && level == 3 && decide (fld e 12 18 ≠ 0))

/-- The entry maps a page at its level (R93). -/
def isLeaf (e : Word64) (level : Nat) : Bool := level == 1 || bit e 2

/-- ADDR of an entry as an address (R93). -/
def entryAddr (e : Word64) : Nat := fld e 12 40 * 4096

/-- The entry a walk read brought back (R94, R99); a stale walk's page is looked up afresh (R110). -/
def walkEntry (w : Walk) (e : Word64) (d : Dev) : XRes × Dev :=
  let a := w.acc
  let va := a.va + a.pos
  if w.stale then (.again a, d)
  else if !bit e 0 then (.fail .accessDenied a, d)
  else if malformed e w.level then (.fail .walkError a, d)
  else if isLeaf e w.level then
    let l : Leaf := { fn := a.fn, asn := a.asn, level := w.level, page := va / 2 ^ pageShift w.level,
                      addr := entryAddr e, w := w.w && bit e 1, wUp := w.w, a := bit e 4, d := bit e 5, ea := w.table }
    (.again a, insertLeaf l (w.nodes.foldl (fun d n => insertNode n d) d))
  else
    let n : Node := { fn := a.fn, asn := a.asn, level := w.level, pfx := va / 2 ^ pageShift w.level,
                      addr := entryAddr e, w := w.w && bit e 1 }
    issueWalk { w with level := w.level - 1, w := n.w, nodes := w.nodes ++ [n],
                       table := entryAddr e + 8 * tableIndex va (w.level - 1) } d

/-- The leaf entry a mark re-read brought back (R103). A write that finds W = 0 and no mark traps.
(DEDUCED, log entry 138) -/
def rereadEntry (w : Walk) (l : Leaf) (e : Word64) (d : Dev) : XRes × Dev :=
  let a := w.acc
  if w.stale then (.again a, d)
  else if !bit e 0 then (.fail .accessDenied a, removeLeaf l d)
  else if malformed e l.level then (.fail .walkError a, removeLeaf l d)
  else if !isLeaf e l.level then (.again a, removeLeaf l d)
  else
    let l1 : Leaf := { l with addr := entryAddr e, w := l.wUp && bit e 1, a := bit e 4, d := bit e 5 }
    match missingMark a l1 with
    | none => (.again a, insertLeaf l1 d)
    | some m => (.trap a l.level l.page m, d)

/-! ### Trap slots (R104 to R106) -/

/-- The access is an incoming remote packet's, answered with RNR_NAK MARK when it traps (R105, R177). -/
def Access.remote (a : Access) : Bool :=
  match a.cont with
  | .place .. | .getRead .. | .dupRead .. | .atomRead .. => true
  | _ => false

/-- The slot in use for a key (R104). (DEDUCED, log entry 47) -/
def slotFor (x : Fn) (asn level page : Nat) (dirty : Bool) : Option Nat :=
  (x.traps.find? fun e => decide (e.2.asn = asn) && decide (e.2.level = level) && decide (e.2.page = page)
    && decide (e.2.dirty = dirty)).map (·.1)

/-- The lowest free slot (R104). -/
def freeSlot (x : Fn) : Option Nat := leastFrom (fun i => !thas x.traps i) 16 0

/-- Take a new slot, with the accesses that wait on it, and announce it (R104, R106). -/
def takeSlot (a : Access) (waiters : List Access) (level page : Nat) (dirty : Bool) (slot : Nat) (d : Dev) : Dev :=
  let t : Trap := { asn := a.asn, page := page, level := level, dirty := dirty,
                    remote := a.remote, waiters := waiters }
  postEvent a.fn .translationMark a.key (BitVec.ofNat 64 (a.va + a.pos))
    (BitVec.ofNat 64 (slot + b2n dirty * 16 + b2n a.remote * 32 + (level - 1) * 64 + a.asn * 256
      + (if a.remote then a.conn else a.sq) * 2 ^ 16))
    (updFn a.fn (fun x => { x with traps := tput x.traps slot t }) d)

/-- An access from its beginning: what has been translated is given up (R105). -/
def Access.afresh (a : Access) : Access := { a with pos := 0, segs := [] }

/-- Record a trap: join the slot of its key, take a new slot, or wait unannounced (R104); a suspended access holds no
translation (R105). -/
def trapAccess (a : Access) (level page : Nat) (dirty : Bool) (d : Dev) : Dev :=
  let x := getFn d a.fn
  match slotFor x a.asn level page dirty with
  | some i =>
    setFn a.fn { x with traps := tmod x.traps i fun t =>
      if a.remote then { t with remote := true } else { t with waiters := t.waiters ++ [a.afresh] } } d
  | none =>
    match freeSlot x with
    | some i => takeSlot a (if a.remote then [] else [a.afresh]) level page dirty i d
    | none =>
      if a.remote then d
      else setFn a.fn { x with trapQ := x.trapQ ++ [{ acc := a, level := level, page := page, dirty := dirty }] } d

/-- Two accesses are for responses to one request, which is sent again once where both are discarded (R105). -/
def Access.sameResp (a b : Access) : Bool :=
  match a.cont, b.cont with
  | .getPlace n m _ _ _, .getPlace n' m' _ _ _ => n == n' && m == m'
  | .atomResult n m _, .atomResult n' m' _ => n == n' && m == m'
  | _, _ => false

/-- A response to the same request waits already for the slot a trap would join or take (R105). -/
def respWaits (d : Dev) (a : Access) (level page : Nat) (dirty : Bool) : Bool :=
  let x := getFn d a.fn
  (match (slotFor x a.asn level page dirty).bind (tget x.traps) with
    | some t => t.waiters.any a.sameResp
    | none => false)
  || x.trapQ.any fun u => u.acc.asn = a.asn && u.level == level && u.page == page && u.dirty == dirty && a.sameResp u.acc

/-- Two waiting accesses have one key (R104). -/
def TrapWait.sameKey (u v : TrapWait) : Bool :=
  u.acc.asn = v.acc.asn && u.level = v.level && u.page = v.page && u.dirty = v.dirty

/-- Waiting accesses take the slots that have become free, in order of trapping; those of one key share a slot (R104). -/
def fillSlots (f : FnId) : Nat → Dev → Dev
  | 0, d => d
  | fuel + 1, d =>
    let x := getFn d f
    match x.trapQ, freeSlot x with
    | u :: rest, some i =>
      fillSlots f fuel (takeSlot u.acc (((u :: rest).filter u.sameKey).map (·.acc.afresh)) u.level u.page u.dirty i
        (setFn f { x with trapQ := rest.filter fun v => !u.sameKey v } d))
    | _, _ => d

/-- Announce the trap of an access that does not wait for it (R104, R177). -/
def announceTrap (a : Access) (level page : Nat) (dirty : Bool) (d : Dev) : Dev :=
  let x := getFn d a.fn
  match slotFor x a.asn level page dirty, freeSlot x with
  | none, some i => takeSlot a [] level page dirty i d
  | _, _ => d

/-- Ask for an access: its lookup is made when the command that asks ends. -/
def askAccess (a : Access) (d : Dev) : Dev :=
  { d with
    xl := { d.xl with todo := d.xl.todo ++ [{ a with id := d.xpt.nextId }] }
    xpt := { d.xpt with nextId := d.xpt.nextId + 1 } }

/-- Ask for an access whose first three checks its region has passed. -/
def askChecked (a : Access) (r : Region) (d : Dev) : Dev :=
  askAccess { a with checked := true, asn := r.asn, noMarks := r.noMarks } d

end Sys2Proof.Machine
end

