-- ==== Sys2Proof/Machine/Observe.lean ====
section
/-!
DEFINITION. What the device observes of itself as it works: filter sets (R463), occurrences of counted events (R462),
tagged samples (R471, R472).
-/
namespace Sys2Proof.Machine

open Sys2Proof

/-! ### Filter sets (R463) -/

/-- A register of a filter set in force: 0 A, 1 B, 2 LO, 3 HI. -/
def filtWord (d : Dev) (j i : Nat) : Word64 := (tget d.pmu.filt (0x40100 + 32 * j + 8 * i)).getD 0

/-- An attribute that a field of the set needs, and what it must satisfy. -/
def needs {α : Type} (on : Bool) (a : Option α) (p : α → Bool) : Bool :=
  !on || match a with | some x => p x | none => false

/-- An occurrence passes a filter set (R463). -/
def passes (d : Dev) (j : Nat) (o : Occ) : Bool :=
  let a := filtWord d j 0
  let priv := fld a 61 2
  needs (bit a 63) o.fn (fun f => decide (f.port.val * 256 + f.num.val = fld a 48 10))
  && needs (priv == 1) o.fn (fun f => f.num.val == 0)
  && needs (priv == 2) o.fn (fun f => f.num.val != 0)
  && needs (bit a 17) o.key (fun k => k == fld (filtWord d j 1) 0 24)
  && needs (bit a 16) o.va (fun v => decide (fld (filtWord d j 2) 0 48 ≤ v ∧ v ≤ fld (filtWord d j 3) 0 48))
  && needs (fld a 0 10 != 0) o.op (fun x => decide (x < 10) && bit a x)
  && needs (fld a 18 19 != 0) o.vc (fun x => decide (x < 19) && bit a (18 + x))
  && needs (fld a 40 8 != 0) o.tc (fun x => decide (x < 8) && bit a (40 + x))

/-! ### Occurrences of operations and packets (R462) -/

/-- The attributes of an operation, from its descriptor; NOP and FENCE name no region. -/
def opOcc (ev : Nat) (f : FnId) (e : Desc) (tc : Option Nat) : Occ :=
  if e.opcode = 0 || e.opcode = 9 || decide (9 < e.opcode) then { ev := ev, fn := some f, op := some e.opcode }
  else { ev := ev, fn := some f, key := some (keyIndex e.localKey), va := some e.localVa, op := some e.opcode, tc := tc }

/-- The work opcode a packet stands for (R462). -/
def pktOpcode (t : Byte) : Nat :=
  if t = ptPut then 0x01 else if t = ptPutFlag then 0x02 else if t = ptGetReq || t = ptGetResp then 0x03
  else if t = ptAtomicReq then 0x04 else if t = ptSend then 0x05 else if t = ptNote then 0x07 else 0x08

/-- A packet that names a region and an address in it: a SEND and a NOTE carry a match context and a tag there. -/
def namesRegion (t : Byte) : Bool := t ≠ ptSend && t ≠ ptNote

/-- The attributes of a packet. -/
def pktOcc (ev : Nat) (f : FnId) (p : Packet) : Occ :=
  let r := namesRegion p.ptype
  { ev := ev, fn := some f, key := if r then some (keyIndex p.key) else none, va := if r then some p.va.toNat else none
    op := some (pktOpcode p.ptype), tc := some p.rh.tc.toNat }

/-- A data packet is formed here: PKT_SENT, BYTES_SENT and, for a copy, PKT_RETRANSMIT. -/
def occSent (f : FnId) (p : Packet) (d : Dev) : Dev :=
  let vc := some (p.rh.hop.toNat + (if p.rh.resp then 8 else 0))
  let d1 := occur { pktOcc 0x06 f p with n := pktLen p, vc := vc } (occur { pktOcc 0x05 f p with vc := vc } d)
  if p.retx then occur { ev := 0x09, fn := some f, op := some (pktOpcode p.ptype), tc := some p.rh.tc.toNat } d1 else d1

/-! ### Tagged samples (R471, R472) -/

/-- One step of the tag LFSR: 32-bit Galois with feedback mask 0x8020_0003. -/
def lfsrStep (x : Word32) : Word32 := if x.getLsbD 0 then (x >>> 1) ^^^ 0x80200003 else x >>> 1

/-- PMU_TAG_CTL. -/
def tagCtl (d : Dev) : Word64 := regInForce d 0x40030 0x0010080000000001

/-- A submission queue has started an operation: it may be tagged, with stages 0 to 2 passed. -/
def tagStart (f : FnId) (sq : Nat) (x : Fetched) (tc : Option Nat) (d : Dev) : Dev :=
  let c := tagCtl d
  if !d.pmu.tag.running || fencedBlk d 7 || (bit c 58 && !passes d (fld c 59 4) (opOcc 0x01 f x.d tc)) then d
  else
    let l := lfsrStep d.pmu.lfsr
    let d1 := { d with pmu := { d.pmu with lfsr := l } }
    if l.toNat % 2 ^ (min 24 (fld c 48 5)) = 0 then
      let s : Sample := { fn := f, sq := sq, cnt := x.cnt, t := [(0, x.tdb), (1, x.t0), (2, d.clk.tsc)] }
      { d1 with pmu := { d1.pmu with samples := d1.pmu.samples ++ [s] } }
    else d1

/-- A tagged operation passes a stage; `first` keeps an earlier time. -/
def tagStage (f : FnId) (sq : Nat) (cnt : Word32) (stage : Nat) (first : Bool) (d : Dev) : Dev :=
  { d with pmu := { d.pmu with samples := d.pmu.samples.map fun s =>
      if s.fn = f && s.sq == sq && s.cnt == cnt && !(first && thas s.t stage) then { s with t := tput s.t stage d.clk.tsc }
      else s } }

/-- DELTA of a stage in units of 4 ns. -/
def sampleDelta (s : Sample) (stage : Nat) : Nat :=
  match tget s.t stage, tget s.t 0 with
  | some t, some t0 => min 0xFFFFFFFE ((t - t0).toNat / 4)
  | _, _ => 0xFFFFFFFF

/-- The bytes of a sample record (R472). (DEDUCED, log entry 164) -/
def sampleBytes (s : Sample) (e : Desc) (st : Status) (conn : Nat) (phase : Bool) : List Byte :=
  leBytes 8 ((tget s.t 0).getD 0).toNat
  ++ leBytes 8 (e.opcode + (statusCode st).toNat * 2 ^ 8 + s.fn.num.val * 2 ^ 16 + s.fn.port.val * 2 ^ 24 + s.sq * 2 ^ 32)
  ++ leBytes 8 (conn + e.length * 2 ^ 32)
  ++ leBytes 4 0 ++ ((List.range 7).flatMap fun i => leBytes 4 (sampleDelta s (i + 1)))
  ++ leBytes 8 (b2n phase * 2 ^ 63)

/-- The stages an operation has passed: one that fails before it sends has none of stages 3 to 6 (R472). -/
def sampleStages (s : Sample) (st : Status) : Tbl Word64 :=
  if st ≠ .success && !thas s.t 4 then s.t.filter fun x => x.1 ≤ 2 else s.t

/-- A tagged operation completes: its record goes into the sample ring, or is dropped and counted where the ring is full; a write
that the device's DMA does not make stops the ring, whose EN is cleared at the tick (R469, R472). (DEDUCED, log entry 165) -/
def tagEnd (f : FnId) (sq : Nat) (x : Fetched) (st : Status) (conn : Nat) (d : Dev) : Dev :=
  match d.pmu.samples.find? fun s => s.fn = f && s.sq == sq && s.cnt == x.cnt with
  | none => d
  | some s0 =>
    let s := { s0 with t := tput (sampleStages s0 st) 7 d.clk.tsc }
    let r := d.pmu.tag
    let d1 := { d with pmu := { d.pmu with samples := d.pmu.samples.erase s0 } }
    if !r.running then d1
    else if dmaStopped d1 r.fn then
      { d1 with pmu := { d1.pmu with tag := { r with running := false, stop := 2 } } }
    else if (r.written - (regInForce d 0x40040 0).setWidth 32).toNat < 2 ^ r.log2 then
      let d2 := hostWrite r.fn false (r.base + 64 * ringSlot r.log2 r.written)
        (sampleBytes s x.d st conn (ringPhase r.log2 r.written)) false d1
      { d2 with pmu := { d2.pmu with tag := { r with written := r.written + 1 } } }
    else { d1 with pmu := { d1.pmu with tag := { r with missed := satAdd 0xFFFF r.missed 1 } } }

end Sys2Proof.Machine
end

