-- ==== Sys2Proof/Machine/Xport.lean ====
section
/-!
DEFINITION. The sending half of the transport: source windows (R252, R253), admission by the shapers (R331, R332),
operations and their packets (R123), the pump that sends them, and completion in MSN order (R128).
-/
namespace Sys2Proof.Machine

open Sys2Proof

/-! ### Connections and slots -/

/-- A connection by number. -/
def getConn (d : Dev) (n : Nat) : Option Conn := tget d.xpt.conns n

/-- Set a connection. -/
def setConn (n : Nat) (c : Conn) (d : Dev) : Dev := { d with xpt := { d.xpt with conns := tput d.xpt.conns n c } }

/-- Change a connection that exists. -/
def updConn (n : Nat) (g : Conn → Conn) (d : Dev) : Dev :=
  { d with xpt := { d.xpt with conns := tmod d.xpt.conns n g } }

/-- Home slot of a connection (R187). -/
def connSlot (n : Nat) : Nat :=
  (n % 32) ^^^ (n / 32 % 32) ^^^ (n / 1024 % 32) ^^^ (n / 32768 % 32) ^^^ (n / 1048576 % 16)

/-- Home slot of a match context (R187). -/
def mctxSlot (m : Nat) : Nat := (m % 32) ^^^ (m / 32 % 32) ^^^ (m / 1024 % 32) ^^^ (m / 32768 % 2)

/-- The slot is fenced for a graft (R190). -/
def slotGrafting (d : Dev) (s : Nat) : Bool := d.eng.grafting.any fun g => g.1 == s

/-- The slot is lost (R192). -/
def slotLost (d : Dev) (s : Nat) : Bool := d.eng.lost.testBit s

/-! ### Source windows (R252, R253) -/

/-- The window entry of a key. -/
def winFind (d : Dev) (src : Ep) (dest : Nat) : Option WinEnt :=
  d.rt.win.find? fun e => e.src == src && e.dest == dest

/-- An entry that holds bytes, or will when its shaper admits a packet. -/
def WinEnt.busy (e : WinEnt) : Bool := e.bytes + e.held != 0

/-- The table is full of entries that hold bytes. -/
def winTableFull (d : Dev) : Bool := decide (8192 ≤ d.rt.win.length) && d.rt.win.all (·.busy)

/-- A charge fits (R253), beside the packets whose charge waits for their shaper (R332). (DEDUCED, log entry 58) -/
def winFits (d : Dev) (src : Ep) (dest n : Nat) : Bool :=
  if !bit (winCtl d) 63 then true
  else
    match winFind d src dest with
    | some e => !e.busy || decide (e.bytes + e.held + n ≤ windowBytes d)
    | none => !winTableFull d

/-- The least recently used entry that holds 0 bytes makes room, where the table is full: none where every entry holds
bytes. -/
def winMakeRoom (w : List WinEnt) : Option (List WinEnt) :=
  if w.length < 8192 then some w else (w.find? fun e => !e.busy).map fun e => w.erase e

/-- Bytes of a packet on its way to its admission point: they will be charged when its shaper admits it (R252, R332). Where the
table refuses nothing and holds no room, they are not counted. (DEDUCED, log entry 58) -/
def winHold (src : Ep) (dest n : Nat) (d : Dev) : Dev :=
  match winFind d src dest with
  | some e => { d with rt := { d.rt with win := d.rt.win.erase e ++ [{ e with held := e.held + n }] } }
  | none =>
    match winMakeRoom d.rt.win with
    | some w => { d with rt := { d.rt with win := w ++ [{ src := src, dest := dest, held := n }] } }
    | none => d

/-- The held bytes of an admitted packet are charged, or let go where its connection no longer waits for it (R252). -/
def winCharge (src : Ep) (dest n : Nat) (live : Bool) (d : Dev) : Dev :=
  match winFind d src dest with
  | some e =>
    { d with rt := { d.rt with win := d.rt.win.erase e ++
        [{ e with held := e.held - n, bytes := if live then e.bytes + min n e.held else e.bytes }] } }
  | none => d

/-- Release bytes from an entry (R252). -/
def winRelease (src : Ep) (dest n : Nat) (d : Dev) : Dev :=
  { d with rt := { d.rt with win := d.rt.win.map (fun e =>
      if e.src == src && e.dest == dest then { e with bytes := e.bytes - n } else e) } }

/-! ### Towards the router -/

/-- Hand a packet or Nib message formed here to routing (R248, R251). -/
def queueRoute (it : Item) (d : Dev) : Dev :=
  { d with rt := { d.rt with routeQ := d.rt.routeQ ++ [{ item := it, ingress := 64, since := d.clk.now }] } }

/-- Send a transport Nib message from a function (R135); it takes the stamped epoch as it is formed (R257). -/
def sendNib (f : FnId) (dest : Ep) (conn : Psn) (ntype : Byte) (psn : Psn) (value : Word64) (reason : Byte)
    (info : Word32) (d : Dev) : Dev :=
  queueRoute (.nib (sealNib
    { dest := dest, epoch := d.rt.stamp, domain := (getFn d f).domain, ntype := ntype,
      conn := conn, psn := psn, reason := reason, value := value, info := info })) d

/-! ### Completion of work -/

/-- The traffic class of an operation that names no connection: its submission queue's CLASS, for a NOTE and a COLL (R127, R330). -/
def classOf (d : Dev) (f : FnId) (sq : Nat) (e : Desc) : Option Nat :=
  if e.opcode = 7 || e.opcode = 8 then (tget (getFn d f).sqs sq).map (·.cls) else none

/-- What the end of a work descriptor is counted as: OPS_COMPLETED, OPS_FAILED and RMA_OPS (R388, R462), and the end
of a tagged operation (R472). -/
def noteEnd (f : FnId) (sq : Nat) (x : Fetched) (e : Cqe) (d : Dev) : Dev :=
  let op := e.opcode.toNat
  let tc := if 1 ≤ op ∧ op ≤ 5 then (tget d.xpt.conns e.conn.toNat).map (·.tc.toNat) else classOf d f sq x.d
  let d1 := occur (opOcc 0x02 f x.d tc) d
  let d2 := if e.status = .success then d1 else occur (opOcc 0x03 f x.d tc) d1
  let d3 := if e.status = .success && ((1 ≤ op && op ≤ 5) || op == 7) then tally f 2 1 d2 else d2
  tagEnd f sq x e.status e.conn.toNat d3

/-- End a started work descriptor: it leaves its queue's list, and its completion is posted or, for a silent success,
only its place in flight is given back (R70, R73, R77). A completion that waits in a full queue's buffer no longer counts as in
flight for DESTROY_SQ. (DESIGN CHOICE, log entry 134) -/
def endWork (f : FnId) (sq : Nat) (cnt : Word32) (cq : Nat) (signal : Bool) (e : Cqe) (d : Dev) : Dev :=
  let x := ((tget (getFn d f).sqs sq).bind fun q => q.inflight.find? fun x => x.cnt == cnt).getD {}
  let d0 := inkEnded f sq cnt (noteEnd f sq x e d)
  let d1 := updFn f (fun x => { x with sqs := tmod x.sqs sq fun q => { q with inflight := q.inflight.filter fun y => y.cnt != cnt } }) d0
  if signal || e.status ≠ .success then postCqe f cq true e d1 else cqRelease f cq d1

/-! ### Shapers (R331, R332) and the outbound policer (R335) -/

/-- Length a decision measures (R329, R330). -/
def chargedLen (d : Dev) (it : TxItem) : Nat :=
  (if it.coll.isSome then 2048 else pktLen it.pkt) + overhead d

/-- The outbound policer's verdict on a NOTE, and the bucket after it (R335). -/
def police (b : Option Bucket) (len : Nat) : Bool × Option Bucket :=
  match b with
  | none => (true, none)
  | some b => if (len * 1000 : Nat) ≤ b.t then (true, some { b with t := b.t - (len * 1000 : Nat) }) else (false, some b)

/-- A NOTE its shaper has released: policed, then handed over, and completed either way (R127, R335). -/
def releaseNote (it : TxItem) (sq : Nat) (cnt : Word32) (e : Desc) (d : Dev) : Dev :=
  let x := getFn d it.fn
  let cq := ((tget x.sqs sq).map (·.cq)).getD 0
  let r := police x.polOut (chargedLen d it)
  let cqe : Cqe := { userCtx := e.userCtx, opcode := 0x07, queue := BitVec.ofNat 16 sq }
  if r.1 then
    endWork it.fn sq cnt cq e.signal { cqe with len := BitVec.ofNat 32 e.length }
      (queueRoute (.data it.pkt) (occSent it.fn it.pkt
        (tagStage it.fn sq cnt 5 false (tagStage it.fn sq cnt 4 true (setFn it.fn { x with polOut := r.2 } d)))))
  else
    endWork it.fn sq cnt cq e.signal { cqe with status := .policed }
      (setFn it.fn { x with polOut := r.2, polOutDrop := x.polOutDrop + 1 } d)

/-- Stages 4 and 5 of the operation a released packet belongs to (R471). -/
def tagHanded (it : TxItem) (d : Dev) : Dev :=
  match (tget d.xpt.conns it.conn).bind fun c => c.ops.find? fun o => decide ((it.pkt.psn - o.psn0).toNat < o.npk) with
  | some o => if o.serves.isSome then d else tagStage o.fn o.sq o.cnt 5 false (tagStage o.fn o.sq o.cnt 4 true d)
  | none => d

/-- A packet as its host tile forms it for the fabric: stamped with the epoch in force, its CRC computed (R251, R257).
(DEDUCED, log entry 140) -/
def formNow (d : Dev) (p : Packet) : Packet := sealPkt { p with rh := { p.rh with epoch := d.rt.stamp } }

/-- The operation of a connection that an admitted packet belongs to, where the connection still waits for the packet. -/
def liveOp (d : Dev) (it : TxItem) : Option (Conn × Op) :=
  match getConn d it.conn with
  | none => none
  | some c =>
    if c.st ≠ .active || decide ((c.next - c.una).toNat ≤ (it.pkt.psn - c.una).toNat) then none
    else (c.ops.find? fun o => decide ((it.pkt.psn - o.psn0).toNat < o.npk)).map fun o => (c, o)

/-- The window charge of an admitted packet: its LEN is held until UNA passes it, the rest until its GET ends (R252). -/
def chargeItem (it : TxItem) (d : Dev) : Dev :=
  let src := it.pkt.rh.src
  let dest := epCoord it.pkt.rh.dest
  if it.charge = 0 || !(winFind d src dest).any (fun e => decide (it.charge ≤ e.held)) then d
  else
    match liveOp d it with
    | none => winCharge src dest it.charge false d
    | some (c, o) =>
      let extra := if o.written then 0 else it.charge - pktLen it.pkt
      let n := pktLen it.pkt + extra
      setConn it.conn { c with
        charged := c.charged ++ [(it.pkt.psn, pktLen it.pkt)]
        ops := c.ops.map fun x => if x.msn == o.msn && x.npk != 0 then { x with charge := extra } else x }
        (winCharge src dest n true (winCharge src dest (it.charge - n) false d))

/-- What a shaper does with an item it admits: a contribution is read, a NOTE is policed, any other packet is formed, charged
to its source window, where its connection still waits for it, and handed to routing (R252, R332). -/
def releaseItem (it : TxItem) (d : Dev) : Dev :=
  match it.coll with
  | some a => askAccess a d
  | none =>
    let it := { it with pkt := formNow d it.pkt }
    match it.note with
    | some (sq, cnt, e) => releaseNote it sq cnt e d
    | none => queueRoute (.data it.pkt) (occSent it.fn it.pkt (tagHanded it (chargeItem it d)))

/-- Bring an item to its class's admission point (R331, R332). -/
def submit (cls : Nat) (it : TxItem) (d : Dev) : Dev :=
  let x := getFn d it.fn
  match tget x.shapers cls with
  | none => releaseItem it d
  | some b =>
    let q := (tget x.admPt cls).getD []
    if q.isEmpty && decide (0 < b.t) then
      releaseItem it (setFn it.fn { x with shapers := tput x.shapers cls { b with t := b.t - (chargedLen d it * 1000 : Nat) } } d)
    else setFn it.fn { x with admPt := tput x.admPt cls (q ++ [it]) } d

/-- Admit waiting items of a class while its bucket allows it (R331); a class without a bucket admits them all (R333). -/
def drainClass (f : FnId) (cls : Nat) : Nat → Dev → Dev
  | 0, d => d
  | fuel + 1, d =>
    let x := getFn d f
    match tget x.admPt cls with
    | none => d
    | some [] => setFn f { x with admPt := tdel x.admPt cls } d
    | some (it :: rest) =>
      match tget x.shapers cls with
      | none => drainClass f cls fuel (releaseItem it (setFn f { x with admPt := tput x.admPt cls rest } d))
      | some b =>
        if 0 < b.t then
          drainClass f cls fuel (releaseItem it (setFn f { x with
            admPt := tput x.admPt cls rest
            shapers := tput x.shapers cls { b with t := b.t - (chargedLen d it * 1000 : Nat) } } d))
        else d

/-! ### Context tiers (R152 to R154) -/

/-- Position of a PSN above BASE. -/
def psnDist (c : Conn) (q : Psn) : Nat := (q - c.base).toNat

/-- The context of a connection is in the on-die cache. -/
def isOnDie (d : Dev) (n : Nat) : Bool := d.xpt.onDie.contains n

/-- The context of a connection is being written out. -/
def inWriting (d : Dev) (n : Nat) : Bool := d.xpt.writing.any fun w => w.1 == n

/-- A packet of the connection is in execution: accepted and not executed, or a response being placed (R153). -/
def executing (d : Dev) (n : Nat) : Bool :=
  match getConn d n with
  | some c => (c.acc.any fun p => !c.held.contains p.psn && !c.exec.getLsbD (psnDist c p.psn)) || c.ops.any fun o => o.placing != 0
  | none => false

/-- The other contexts in the cache of a connection's engine, least recently used first. -/
def neighbours (d : Dev) (n : Nat) : List Nat := d.xpt.onDie.filter fun m => connSlot m == connSlot n && m != n

/-- The context is on die, or can be brought there: it is not being written out, and its engine's cache has room or one with no
packet in execution (R153, R154). -/
def ctxReady (d : Dev) (n : Nat) : Bool :=
  !inWriting d n && (isOnDie d n || decide ((neighbours d n).length < 2048) || (neighbours d n).any fun m => !executing d m)

/-- Make a context the most recently used. -/
def touchCtx (n : Nat) (d : Dev) : Dev := { d with xpt := { d.xpt with onDie := d.xpt.onDie.filter (· != n) ++ [n] } }

/-- Bring a context into the on-die cache: 2,048 an engine, 65,536 in all; the least recently used one of the engine
that has no packet in execution is written out to HBM (R152, R153, R154). -/
def loadCtx (n : Nat) (d : Dev) : Dev :=
  if (neighbours d n).length < 2048 then touchCtx n d
  else
    match (neighbours d n).find? (fun m => !executing d m) with
    | none => d
    | some m =>
      let d1 := touchCtx n d
      { d1 with xpt := { d1.xpt with
        onDie := d1.xpt.onDie.filter (· != m), writing := d1.xpt.writing ++ [(m, false)] } }

/-- An engine uses a context to send or for a Nib message: it is on die then, the most recently used (R152, R153).
(DESIGN CHOICE, log entry 141) A recorded unit reads one that is not there from HBM (R475); its address and layout are no part of
the interface (R118): free values. -/
def useCtx (n : Nat) (d : Dev) : Dev :=
  if slotRecorded d (connSlot n) && !d.xpt.onDie.contains n then
    let v := takeFree d
    loadCtx n (inkRead v.1.toNat (Config.freeBytes d.free) v.2)
  else loadCtx n d

/-! ### Operations and their packets (R123) -/

/-- Byte position of the first packet's start within its 4,096-byte boundary (R123): the target address for PUT, the
message's own offset for SEND. -/
def opPhase (o : Op) : Nat :=
  match o.kind with
  | .put | .putFlag => o.desc.remoteVa.toNat % 4096
  | _ => 0

/-- Bytes of the first packet of len bytes that start at phase ph (R123). -/
def firstLen (ph len : Nat) : Nat := min len (4096 - ph)

/-- Packets of an operation of len bytes that starts at phase ph (R123). -/
def packetsOf (ph len : Nat) : Nat := if len = 0 then 1 else 1 + (len - firstLen ph len + 4095) / 4096

/-- Offset of packet i (R123). -/
def pktOff (ph len i : Nat) : Nat := if i = 0 then 0 else firstLen ph len + (i - 1) * 4096

/-- Payload bytes of packet i (R123). -/
def pktPay (ph len i : Nat) : Nat := if i = 0 then firstLen ph len else min 4096 (len - pktOff ph len i)

/-- The operation carries its payload in packets read from host memory. -/
def OpKind.bulk : OpKind → Bool
  | .put | .putFlag | .sendEager => true
  | _ => false

/-- Packets (PSNs) an operation takes. -/
def opPackets (kind : OpKind) (ph len : Nat) : Nat := if kind.bulk then packetsOf ph len else 1

/-- The index of a PSN within an operation. -/
def opIndex (o : Op) (q : Psn) : Nat := (q - o.psn0).toNat

/-- The outstanding operation that holds a PSN. -/
def opOf (c : Conn) (q : Psn) : Option Op := c.ops.find? fun o => decide (opIndex o q < o.npk)

/-- Change the operation with a given MSN. -/
def updOp (msn : Psn) (g : Op → Op) (c : Conn) : Conn :=
  { c with ops := c.ops.map fun o => if o.msn == msn && o.npk != 0 then g o else o }

/-- Every PSN of the operation is acknowledged. -/
def opAcked (c : Conn) (o : Op) : Bool :=
  let k := (c.una - o.psn0).toNat
  decide (o.npk ≤ k ∧ k < 2 ^ 23)

/-- Packet i of an operation is sent VOID (R146). (DEDUCED, log entry 61) -/
def opVoid (o : Op) (i : Nat) : Bool :=
  o.fail.isSome || (match o.voidFrom with | some v => decide (v ≤ i) | none => false)

/-- The packet type of packet i (R121). -/
def opPtype (o : Op) (i : Nat) : Byte :=
  match o.kind with
  | .put => ptPut
  | .putFlag => if i + 1 = o.npk then ptPutFlag else ptPut
  | .get => ptGetReq
  | .atomic => ptAtomicReq
  | .sendEager | .sendRts | .finish => ptSend

/-- REMOTE_KEY of the transport header (R120, R166). -/
def opKey (o : Op) : Word32 :=
  match o.kind with
  | .sendEager => BitVec.ofNat 32 o.desc.destMctx
  | .sendRts => BitVec.ofNat 32 (o.desc.destMctx + 2 ^ 16)
  | .finish => BitVec.ofNat 32 (o.desc.destMctx + 2 * 2 ^ 16 + (statusCode o.finStatus).toNat * 2 ^ 24)
  | _ => o.desc.remoteKey

/-- AUX of the transport header of packet i (R120, R166). -/
def opAux (o : Op) (i : Nat) : Word32 :=
  match o.kind with
  | .put => 0
  | .putFlag => if i + 1 = o.npk then o.desc.imm else 0
  | .get => BitVec.ofNat 32 o.len
  | .atomic => BitVec.ofNat 32 o.desc.aop
  | .sendEager | .sendRts => BitVec.ofNat 32 o.len
  | .finish => o.rtsMsn.setWidth 32

/-- REMOTE_VA or TAG of the transport header. -/
def opVa (o : Op) : Word64 :=
  match o.kind with
  | .finish => 0
  | _ => o.desc.remoteVa

/-- Payload the engine forms itself: the operands of an ATOMIC (R121), the source of a rendezvous request (R167). -/
def opInline (o : Op) : List Byte :=
  match o.kind with
  | .atomic => leBytes 8 o.desc.operand.toNat ++ leBytes 8 o.desc.compare.toNat
  | .sendRts => leBytes 8 o.desc.localVa ++ leBytes 4 o.desc.localKey.toNat ++ leBytes 4 0
  | _ => []

/-- Packet i of an operation of connection n (R119, R120, R257). -/
def formPkt (d : Dev) (c : Conn) (o : Op) (i : Nat) (retx : Bool) (pay : List Byte) : Packet :=
  let void := opVoid o i
  sealPkt
    { rh := { dest := c.peer, src := selfEp d c.fn, epoch := d.rt.stamp, det := c.strict,
              domain := (getFn d c.fn).domain, tc := c.tc }
      ptype := opPtype o i
      conn := c.peerConn
      psn := o.psn0 + BitVec.ofNat 24 i
      first := i == 0
      last := i + 1 == o.npk
      retx := retx
      void := void
      msn := o.msn
      offset := BitVec.ofNat 32 (if o.kind.bulk then pktOff (opPhase o) o.len i else 0)
      va := opVa o
      key := opKey o
      aux := opAux o i
      payload := if void then [] else pay }

/-! ### Completion in MSN order (R128) -/

/-- How far a GET's data has been placed without a gap: its list of (offset, length) stands in rising order (R125). -/
def placedUpTo (l : List (Nat × Nat)) : Nat := l.foldl (fun k g => if g.1 ≤ k then max k (g.1 + g.2) else k) 0

/-- The status an operation has finished with, if it has (R124, R125, R126, R142, R146, R168). -/
def opFinished (c : Conn) (o : Op) : Option Status :=
  match o.finished with
  | some s => some s
  | none =>
    match o.fail with
    | some s => some s
    | none =>
      if o.kind = .atomic then (if o.resp then some .success else none)
      else if !opAcked c o then none
      else
        match o.kind with
        | .put | .putFlag | .sendEager | .finish => some .success
        | .get => if o.placing = 0 ∧ o.len ≤ placedUpTo o.got then some .success else none
        | .atomic => none
        | .sendRts => if o.resp then some o.finStatus else none

/-- Write the completion of one operation of connection n (R74, R524); an internal GET and a rendezvous finish have
none, and the receive an internal GET serves is noted (R179). -/
def writeOp (n : Nat) (c : Conn) (o : Op) (s : Status) (d : Dev) : Dev :=
  let d1 := if o.charge = 0 then d else winRelease (selfEp d c.fn) (epCoord c.peer) o.charge d
  match o.serves with
  | some r => { d1 with mtc := { d1.mtc with ended := d1.mtc.ended ++ [(r, s)] } }
  | none =>
    match o.kind with
    | .finish => d1
    | _ =>
      endWork o.fn o.sq o.cnt o.cq o.desc.signal
        { userCtx := o.desc.userCtx
          len := if s ≠ .success then 0 else if o.kind = .atomic then 8 else BitVec.ofNat 32 o.len
          status := s
          opcode := BitVec.ofNat 8 o.desc.opcode
          queue := BitVec.ofNat 16 o.sq
          conn := BitVec.ofNat 24 n } d1

/-- Write the completions of the longest finished prefix of the operations (R128). -/
def writeFinished (n : Nat) (c : Conn) : List Op → Dev → List Op × Dev
  | [], d => ([], d)
  | o :: os, d =>
    if o.written then
      let r := writeFinished n c os d
      (o :: r.1, r.2)
    else
      match opFinished c o with
      | none => (o :: os, d)
      | some s =>
        let r := writeFinished n c os (writeOp n c o s d)
        ({ o with written := true, finished := some s, charge := 0 } :: r.1, r.2)

/-- An operation has every acknowledgement or response it needs; a GET's responses are noted as they come (R471). -/
def answered (c : Conn) (o : Op) : Bool :=
  match o.kind with
  | .put | .putFlag | .sendEager => opAcked c o
  | .atomic | .sendRts => o.resp
  | .get => o.len = 0 && opAcked c o
  | .finish => false

/-- Stage 6 of the operations that are answered (R471). -/
def tagAnswered (c : Conn) (d : Dev) : Dev :=
  c.ops.foldl (fun d o =>
    if !o.written && o.fail.isNone && o.serves.isNone && answered c o then tagStage o.fn o.sq o.cnt 6 true d else d) d

/-- Write what has finished, and forget operations that are written and acknowledged. -/
def retire (n : Nat) (d : Dev) : Dev :=
  match getConn d n with
  | none => d
  | some c =>
    let r := writeFinished n c c.ops (tagAnswered c d)
    setConn n { c with ops := r.1.filter fun o => !(o.written && opAcked c o) } r.2

/-! ### The pump -/

/-- The bytes a new packet of an operation is charged: its LEN, and for a GET the responses it will bring (R252).
(DEDUCED, log entry 57) -/
def opCharge (o : Op) (p : Packet) : Nat :=
  pktLen p + (match o.kind with
    | .get => o.len + 52 * (if o.len = 0 then 0 else packetsOf (o.desc.remoteVa.toNat % 4096) o.len)
    | _ => 0)

/-- Send packet q of operation o with its payload: a new packet takes NEXT, and its charge is held until its shaper admits it;
a resent one leaves the resend round (R123, R141, R252, R332). -/
def sendNow (n : Nat) (c : Conn) (o : Op) (q : Psn) (retx : Bool) (pay : List Byte) (d : Dev) : Dev :=
  let p := formPkt d c o (opIndex o q) retx pay
  let c1 : Conn :=
    if retx then { c with resendQ := c.resendQ.erase q, reading := none }
    else
      updOp o.msn (fun o => { o with sent := o.sent + 1 }) { c with next := c.next + 1, reading := none, winWait := false }
  let d1 := useCtx n (setConn n c1 d)
  submit o.cls { fn := c.fn, pkt := p, conn := n, charge := if retx then 0 else opCharge o p }
    (if retx then d1 else winHold p.rh.src (epCoord p.rh.dest) (opCharge o p) d1)

/-- An ATOMIC waits for the result of the sixteenth before it (R126). -/
def atomicHeld (c : Conn) (o : Op) : Bool :=
  o.kind = .atomic && decide (16 ≤ ((c.ops.filter fun x => x.kind = .atomic && decide (0 < x.sent)).dropWhile
    fun x => x.resp || x.fail.isSome).length)

/-- The connection may send at all: active, in no receiver-not-ready wait, no packet being read, no round stopped, its
slot not being grafted, its context to be had (R115, R141, R144, R152, R190). -/
def maySend (d : Dev) (n : Nat) (c : Conn) : Bool :=
  c.st = .active && c.rnrWait.isNone && c.reading.isNone && !c.stopped && !slotGrafting d (connSlot n)
  && !(getFn d c.fn).inFlr && ctxReady d n

/-- A packet that carries payload read from host memory. -/
def needsRead (o : Op) (i : Nat) : Bool :=
  o.kind.bulk && !opVoid o i && decide (0 < pktPay (opPhase o) o.len i)

/-- Ask for the payload of packet i (R123, R146). A region that no longer allows it fails the operation: this packet and
every later one is VOID. -/
def askPayload (n : Nat) (c : Conn) (o : Op) (q : Psn) (retx : Bool) (d : Dev) : Bool × Dev :=
  let i := opIndex o q
  let va := o.desc.localVa + pktOff (opPhase o) o.len i
  let len := pktPay (opPhase o) o.len i
  match checkRegion d c.fn o.desc.localKey va len .localRead with
  | .error s => (false, setConn n (updOp o.msn (fun o => { o with fail := some (o.fail.getD s), voidFrom := some i }) c) d)
  | .ok r =>
    (true, askChecked { fn := c.fn, key := o.desc.localKey, va := va, len := len, right := .localRead, sq := o.sq,
                        conn := n, cont := .txPayload n q } r
      (useCtx n (setConn n { c with reading := some (q, retx) } d)))

/-- The first operation of a connection with a packet not yet sent. -/
def unsentOp (c : Conn) : Option Op := c.ops.find? fun o => decide (o.sent < o.npk)

/-- What the next new packet of an operation will be charged (R252). -/
def nextCharge (d : Dev) (c : Conn) (o : Op) : Nat :=
  let i := opIndex o c.next
  opCharge o (formPkt d c o i false
    (List.replicate (if needsRead o i then pktPay (opPhase o) o.len i else (opInline o).length) 0))

/-- The next new packet's charge fits its source window (R253). -/
def chargeFits (d : Dev) (c : Conn) (o : Op) : Bool := winFits d (selfEp d c.fn) (epCoord c.peer) (nextCharge d c o)

/-- A packet waits for its source window; a wait for a full table is counted as it begins (R253). -/
def holdWin (n : Nat) (c : Conn) (d : Dev) : Dev :=
  let d1 := setConn n { c with reading := none, winWait := true } d
  if !c.winWait && (winFind d (selfEp d c.fn) (epCoord c.peer)).isNone then
    { d1 with rt := { d1.rt with fullWaits := d1.rt.fullWaits.add 1 } }
  else d1

/-- A connection has a packet it may send or form now. -/
def canGo (d : Dev) (n : Nat) (c : Conn) : Bool :=
  maySend d n c && (!c.resendQ.isEmpty ||
    (match unsentOp c with
      | none => false
      | some o => decide ((c.next - c.una).toNat < 1024) && !atomicHeld c o && chargeFits d c o))

/-- Send what the connection may send (R131, R141, R253). -/
def pump : Nat → Nat → Dev → Dev
  | 0, _, d => d
  | fuel + 1, n, d =>
    match getConn d n with
    | none => d
    | some c =>
      if !maySend d n c then d
      else
        match c.resendQ with
        | q :: rest =>
          match opOf c q with
          | none => pump fuel n (setConn n { c with resendQ := rest } d)
          | some o =>
            if needsRead o (opIndex o q) then
              let r := askPayload n c o q true d
              if r.1 then r.2 else pump fuel n r.2
            else pump fuel n (sendNow n c o q true (opInline o) d)
        | [] =>
          match unsentOp c with
          | none => d
          | some o =>
            let q := c.next
            if 1024 ≤ (c.next - c.una).toNat || atomicHeld c o then d
            else if !chargeFits d c o then holdWin n c d
            else if needsRead o (opIndex o q) then
              let r := askPayload n c o q false d
              if r.1 then r.2 else pump fuel n r.2
            else pump fuel n (sendNow n c o q false (opInline o) d)

/-- The fuel of one run of the pump: more than one window's packets and one resend round. -/
def pumpFuel : Nat := 4096

/-- Start an operation: it takes the next MSN and the next PSNs (R123), and is sent as far as the windows allow. -/
def startOp (n : Nat) (o : Op) (d : Dev) : Dev :=
  match getConn d n with
  | none => d
  | some c =>
    let npk := opPackets o.kind (opPhase o) o.len
    let o1 : Op := { o with msn := c.nextMsn, psn0 := c.assign, npk := npk }
    retire n (pump pumpFuel n (setConn n { c with
      ops := c.ops ++ [o1], nextMsn := c.nextMsn + 1, assign := c.assign + BitVec.ofNat 24 npk } d))

/-- The payload of the packet being formed has arrived (R123): a resent copy stays one, whatever has become of the round since
it was asked for (R141). Where the context has left the die meanwhile, the packet waits and is formed afresh (R152). -/
def payloadArrived (n : Nat) (q : Psn) (data : List Byte) (d : Dev) : Dev :=
  match getConn d n with
  | none => d
  | some c =>
    match c.reading with
    | none => d
    | some (r, retx) =>
      if r ≠ q then d
      else if !ctxReady d n then setConn n { c with reading := none } d
      else
        match opOf c q with
        | none => retire n (pump pumpFuel n (setConn n { c with reading := none } d))
        | some o =>
          if retx && !c.resendQ.contains q then retire n (pump pumpFuel n (setConn n { c with reading := none } d))
          else if !retx && !chargeFits d c o then holdWin n c d
          else retire n (pump pumpFuel n (sendNow n c o q retx data d))

/-- Forming a packet has failed (R146): it and every later packet of its operation are VOID. -/
def payloadFailed (n : Nat) (q : Psn) (s : Status) (d : Dev) : Dev :=
  match getConn d n with
  | none => d
  | some c =>
    match opOf c q with
    | none => setConn n { c with reading := none } d
    | some o =>
      retire n (pump pumpFuel n (setConn n (updOp o.msn
        (fun o => { o with fail := some (o.fail.getD s), voidFrom := some (min (opIndex o q) (o.voidFrom.getD (opIndex o q))) })
        { c with reading := none, stopped := false }) d))

end Sys2Proof.Machine
end

