-- ==== Sys2Proof/Machine/Match.lean ====
section
/-!
DEFINITION. Tagged matching: hand-over and selection (R172 to R175), message records (R176), placement and completion
of receives (R177 to R179), and the failing of a connection with everything on it (R142, R147, R177).
-/
namespace Sys2Proof.Machine

open Sys2Proof

/-! ### Records and contexts -/

/-- A match context by number. -/
def getMctx (d : Dev) (m : Nat) : Option Mctx := tget d.mtc.ctxs m

/-- Set a match context. -/
def setMctx (m : Nat) (x : Mctx) (d : Dev) : Dev := { d with mtc := { d.mtc with ctxs := tput d.mtc.ctxs m x } }

/-- A message record by the model's number. -/
def getMsg (d : Dev) (id : Nat) : Option MsgRec := d.mtc.recs.find? fun r => r.id == id

/-- The record of a message of a connection. -/
def msgOf (d : Dev) (conn : Nat) (msn : Psn) : Option MsgRec :=
  d.mtc.recs.find? fun r => decide (r.conn = some conn) && r.msn == msn && r.gone.isNone

/-- Change a record. -/
def updMsg (id : Nat) (g : MsgRec → MsgRec) (d : Dev) : Dev :=
  { d with mtc := { d.mtc with recs := d.mtc.recs.map fun r => if r.id == id then g r else r } }

/-- Remove a record. -/
def dropMsg (id : Nat) (d : Dev) : Dev := { d with mtc := { d.mtc with recs := d.mtc.recs.filter fun r => r.id != id } }

/-- Message records that lie in HBM: not those of a parked function (R156 step 3). -/
def recsInHbm (d : Dev) : List MsgRec := d.mtc.recs.filter fun r => (getFn d r.fn).park ≠ .parked

/-- Unexpected-message entries reserved or in use (R183). -/
def entriesUsed (d : Dev) : Nat := ((recsInHbm d).filter (·.entry)).length

/-- Pool blocks reserved or in use (R183). -/
def blocksUsed (d : Dev) : Nat := ((recsInHbm d).map (·.blocks)).sum

/-- Entries and blocks of one context. -/
def ctxEntries (d : Dev) (m : Nat) : Nat := (d.mtc.recs.filter fun r => r.mctx == m && r.entry).length
def ctxBlocks (d : Dev) (m : Nat) : Nat := ((d.mtc.recs.filter fun r => r.mctx == m).map (·.blocks)).sum

/-- Pool blocks can be reserved in a context (R177, R184). -/
def canBlocks (d : Dev) (m : Nat) (x : Mctx) (blocks : Nat) : Bool :=
  decide (blocksUsed d + blocks ≤ poolBlocks d) && (x.maxBlocks == 0 || decide (ctxBlocks d m + blocks ≤ x.maxBlocks))

/-- A message of len bytes can reserve its record, entry and blocks in a context (R176, R184). -/
def canReserve (d : Dev) (m : Nat) (x : Mctx) (blocks : Nat) (record : Bool) : Bool :=
  (!record || decide (((recsInHbm d).filter fun r => r.conn.isSome).length < 65536))
  && decide (entriesUsed d < 4194304) && (x.maxUnexp == 0 || decide (ctxEntries d m < x.maxUnexp))
  && canBlocks d m x blocks

/-- Blocks a message needs (R176). -/
def blocksFor (rts : Bool) (len : Nat) : Nat := if rts then 0 else (len + 4095) / 4096

/-! ### Entries as they lie in HBM (R170, R178) -/

/-- The index after an entry's in a list, and whether there is one. -/
def nextIx {α : Type} (ix : α → Nat) (me : α → Bool) (l : List α) : Nat × Bool :=
  match (l.dropWhile fun x => !me x).drop 1 with
  | x :: _ => (ix x, true)
  | [] => (0, false)

/-- The eight words of a posted entry, as a recording carries them (R170): STATE is 1 while it is posted and 2 once it is matched. -/
def postedWords (p : Posted) (state : Nat) (next : Nat × Bool) : List Word64 :=
  [p.tag, p.ignore, p.va, ins 0 p.key.toNat ||| ins 32 p.len,
   ins 0 p.source.toNat ||| ins 26 (b2n p.anySource) ||| ins 27 (b2n p.wild) ||| ins 28 state ||| ins 32 p.mctx ||| ins 48 p.sq,
   BitVec.ofNat 64 p.seq, p.userCtx, ins 0 next.1 ||| ins 22 (b2n next.2)]

/-- The eight words of an unexpected-message entry (R178). -/
def unexpectedWords (r : MsgRec) (nextBin nextList : Nat × Bool) : List Word64 :=
  [r.tag, ins 0 r.src.toNat ||| ins 32 (r.conn.getD 0) ||| ins 56 (if r.conn.isNone then 2 else b2n r.rts),
   ins 0 r.len ||| ins 32 r.arrived, ins 0 r.msn.toNat ||| ins 24 r.mctx, BitVec.ofNat 64 r.arrSeq,
   if r.rts then r.srcVa else r.blockAt, ins 0 r.srcKey.toNat,
   ins 0 nextBin.1 ||| ins 22 (b2n nextBin.2) ||| ins 23 nextList.1 ||| ins 45 (b2n nextList.2)]

/-! ### Selection (R172, R173) -/

/-- A wildcard receive accepts a message (R172). -/
def wildAccepts (p : Posted) (src : Ep) (tag : Word64) : Bool :=
  (p.anySource || p.source == src) && ((p.tag ^^^ tag) &&& ~~~ p.ignore) == 0

/-- A posted receive accepts a message. -/
def accepts (p : Posted) (src : Ep) (tag : Word64) : Bool :=
  if p.wild then wildAccepts p src tag else p.source == src && p.tag == tag

/-- The entry an arriving message selects: the lower POST_SEQ of the first in its bin and the first on the wildcard
list (R172). -/
def selectPosted (x : Mctx) (src : Ep) (tag : Word64) : Option Posted :=
  let e1 := x.posted.find? fun p => !p.wild && accepts p src tag
  let e2 := x.posted.find? fun p => p.wild && accepts p src tag
  match e1, e2 with
  | some a, some b => if a.seq < b.seq then some a else some b
  | some a, none => some a
  | none, b => b

/-- The hash bin of a key (R171). -/
def hashBin (m : Nat) (src : Ep) (tag : Word64) : Nat :=
  (crc32c (leBytes 8 tag.toNat ++ leBytes 4 src.toNat ++ leBytes 2 m ++ leBytes 2 0)).toNat % 1048576

/-- Entries up to and with the first one that p accepts. (DEDUCED, log entry 64) -/
def examined {α : Type} (p : α → Bool) (l : List α) : Nat := min l.length ((l.takeWhile fun x => !p x).length + 1)

/-- Posted entries an arriving message's search examines, in its bin and on its context's wildcard list (R172, R462). -/
def postedExamined (m : Nat) (x : Mctx) (src : Ep) (tag : Word64) : Nat :=
  examined (fun p => accepts p src tag) (x.posted.filter fun p => !p.wild && hashBin m p.source p.tag == hashBin m src tag)
  + examined (fun p => accepts p src tag) (x.posted.filter (·.wild))

/-- MATCH_ENTRIES (R462). -/
def noteSearch (f : FnId) (n : Nat) (d : Dev) : Dev := if n = 0 then d else occur { ev := 0x0E, fn := some f, n := n } d

/-- The oldest unexpected message of a context that a receive accepts (R173). -/
def selectMsg (d : Dev) (m : Nat) (p : Posted) : Option MsgRec :=
  (d.mtc.recs.filter fun r => r.mctx == m && r.st = .unexpected && accepts p r.src r.tag).foldl
    (fun best r => match best with
      | none => some r
      | some b => if r.arrSeq < b.arrSeq then some r else some b) none

/-- Messages a receive's search examines: those in its bin, or for a wildcard those on its context's list (R173). -/
def msgsExamined (d : Dev) (m : Nat) (p : Posted) : Nat :=
  let l := (d.mtc.recs.filter fun r => r.mctx == m && r.st = .unexpected
    && (p.wild || hashBin m r.src r.tag == hashBin m p.source p.tag)).mergeSort fun a b => decide (a.arrSeq ≤ b.arrSeq)
  examined (fun r => accepts p r.src r.tag) l

/-- The entries of a context's wildcard list, or of a bin over all contexts, in the order they were appended to its tail
(R170). -/
def postedChain (d : Dev) (p : Posted) : List Posted :=
  (d.mtc.ctxs.flatMap fun e => e.2.posted.filter fun q =>
    if p.wild then q.wild && q.mctx == p.mctx
    else !q.wild && hashBin q.mctx q.source q.tag == hashBin p.mctx p.source p.tag).mergeSort fun a b => decide (a.app ≤ b.app)

/-- A posted entry is still on its list: no message has matched it (R172). -/
def isPosted (d : Dev) (p : Posted) : Bool := (getMctx d p.mctx).any fun x => x.posted.any fun q => q.seq == p.seq

/-- A posted entry as it lies in HBM, on its list or matched (R170, R172). -/
def postedEntry (d : Dev) (p : Posted) : List Word64 :=
  if isPosted d p then
    postedWords p 1 (nextIx (·.ix) (fun q => q.mctx == p.mctx && q.seq == p.seq) (postedChain d p))
  else postedWords p 2 (0, false)

/-- Entries of a context that a message has matched and whose receive has not completed. (DEDUCED, log entry 65) -/
def matchedOf (d : Dev) (m : Nat) : Nat := (d.mtc.recs.filter fun r => r.mctx == m && r.recv.isSome && !r.closed).length

/-- The unexpected messages in hand-over order. -/
def unexpectedList (d : Dev) : List MsgRec :=
  (d.mtc.recs.filter fun r => r.st = .unexpected).mergeSort fun a b => decide (a.arrSeq ≤ b.arrSeq)

/-- An unexpected-message entry as it lies in HBM (R173, R178). -/
def unexpectedEntry (d : Dev) (r : MsgRec) : List Word64 :=
  let me := fun (q : MsgRec) => q.id == r.id
  unexpectedWords r
    (nextIx (·.entryIx) me ((unexpectedList d).filter fun q => hashBin q.mctx q.src q.tag == hashBin r.mctx r.src r.tag))
    (nextIx (·.entryIx) me ((unexpectedList d).filter fun q => q.mctx == r.mctx))

/-! ### Completion of a receive (R177) -/

/-- Write the completion of a receive; `conn` is the receiving connection, 0 for a NOTE. -/
def completeRecv (r : MsgRec) (p : Posted) (s : Status) (placed : Nat) (d : Dev) : Dev :=
  endWork p.fn p.sq p.cnt p.cq true
    { userCtx := p.userCtx
      tag := r.tag
      len := BitVec.ofNat 32 (if s = .success ∨ s = .truncated then placed else 0)
      source := r.src
      status := s
      opcode := 0x06
      queue := BitVec.ofNat 16 p.sq
      conn := BitVec.ofNat 24 (r.conn.getD 0) } d

/-- Complete a posted entry that no message has matched (R165, R192). -/
def completePosted (p : Posted) (s : Status) (d : Dev) : Dev :=
  endWork p.fn p.sq p.cnt p.cq true
    { userCtx := p.userCtx, status := s, opcode := 0x06, queue := BitVec.ofNat 16 p.sq } d

/-- Write a receive's completion once every byte that is not discarded is in place (R177), and free the record once the
whole message has arrived. -/
def settleMsg (id : Nat) (d : Dev) : Dev :=
  match getMsg d id with
  | none => d
  | some r =>
    match r.recv with
    | none => d
    | some p =>
      if r.rts then d
      else if r.closed then (if r.len ≤ r.arrived ∧ r.copying = 0 then dropMsg id d else d)
      else
        let close := fun d1 =>
          if r.len ≤ r.arrived ∧ r.copying = 0 then dropMsg id d1
          else updMsg id (fun r => { r with closed := true, seg := [], entry := false, blocks := 0 }) d1
        match r.fail with
        | some s => close (completeRecv r p s 0 d)
        | none =>
          if min r.len p.len ≤ r.placed ∧ r.copying = 0 then
            close (completeRecv r p (if p.len < r.len then .truncated else .success) r.placed d)
          else if r.copying = 0 ∧ r.entry then updMsg id (fun r => { r with entry := false, blocks := 0 }) d
          else d

/-- Ask for the placement of bytes of a matched message into its receive buffer, as far as the buffer reaches (R177).
True where an access was asked for. -/
def askPlace (r : MsgRec) (p : Posted) (off : Nat) (data : List Byte) (cont : List Byte → Cont) (conn : Nat) (d : Dev) :
    Bool × Dev :=
  let keep := data.take (p.len - off)
  if keep.isEmpty then (false, d)
  else
    match checkRegion d p.fn p.key (p.va.toNat + off) keep.length .localWrite with
    | .error s => (false, updMsg r.id (fun r => { r with fail := some (r.fail.getD s) }) d)
    | .ok g =>
      (true, askChecked { fn := p.fn, key := p.key, va := p.va.toNat + off, len := keep.length, right := .localWrite,
                          sq := p.sq, conn := conn, cont := cont keep } g d)

/-- Copy every staged segment of a record that has just been matched (R176, R177). -/
def copyStaged (r : MsgRec) (p : Posted) : List (Nat × List Byte × Bool) → Dev → Dev
  | [], d => d
  | (off, data, det) :: rest, d =>
    let a := askPlace r p off data (fun keep => .copy r.id off keep det) 0 d
    copyStaged r p rest (if a.1 then updMsg r.id (fun r => { r with copying := r.copying + 1 }) a.2 else a.2)

/-- The descriptor of the internal GET that pulls a rendezvous message (R179). (DEDUCED, log entry 67) -/
def pullDesc (r : MsgRec) (p : Posted) (len : Nat) : Desc :=
  { w0 := 0x03
    w1 := p.userCtx
    w2 := p.va
    w3 := BitVec.ofNat 64 (p.key.toNat + len * 2 ^ 32)
    w4 := r.srcVa
    w5 := r.srcKey.setWidth 64 }

/-- The class a submission queue belongs to (R330). -/
def sqClass (d : Dev) (f : FnId) (sq : Nat) : Nat := ((tget (getFn d f).sqs sq).map (·.cls)).getD 0

/-- A record and a posted entry have met: staged bytes are copied, or the rendezvous data is pulled (R177, R179). Where the
message's connection has failed before all of it arrived, the receive ends with the status noted then. (DEDUCED, log entry 54) -/
def joinMsg (id : Nat) (p : Posted) (d : Dev) : Dev :=
  match getMsg d id with
  | none => d
  | some r =>
    let d1 := updMsg id (fun r => { r with st := .matched, recv := some p, seg := [] }) d
    if r.rts then
      let len := min r.len p.len
      let d2 := updMsg id (fun r => { r with entry := false }) d1
      match r.gone with
      | some s => dropMsg id (completeRecv r p s 0 d2)
      | none => startOp (r.conn.getD 0)
        { kind := .get, fn := r.fn, sq := p.sq, cnt := p.cnt, cls := sqClass d p.fn p.sq, cq := p.cq,
          desc := pullDesc r p len, len := len, serves := some id } d2
    else match r.gone.filter fun _ => decide (r.arrived < r.len) with
      | some s => settleMsg id (updMsg id (fun r => { r with fail := some s, arrived := r.len }) d1)
      | none => settleMsg id (copyStaged r p r.seg d1)

/-- Hand a message's header to matching: one indivisible step of the home engine (R172, R174, R178). -/
def matchMsg (id : Nat) (d : Dev) : Dev :=
  match getMsg d id with
  | none => d
  | some r =>
    match getMctx d r.mctx with
    | none => d
    | some x =>
      let d := noteSearch r.fn (postedExamined r.mctx x r.src r.tag) d
      match selectPosted x r.src r.tag with
      | some p => joinMsg id p (setMctx r.mctx { x with posted := x.posted.erase p } d)
      | none =>
        updMsg id (fun r => { r with st := .unexpected, arrSeq := x.arrSeq })
          (setMctx r.mctx { x with arrSeq := x.arrSeq + 1 } (occur { ev := 0x0F, fn := some r.fn } d))

/-- The internal GET of a record has ended: the receive completes, and the rendezvous finish is sent (R179). -/
def pullEnded (id : Nat) (s : Status) (d : Dev) : Dev :=
  match getMsg d id with
  | none => d
  | some r =>
    match r.recv with
    | none => dropMsg id d
    | some p =>
      let st := if s ≠ .success then s else if p.len < r.len then .truncated else .success
      let d1 := dropMsg id (completeRecv r p st (min r.len p.len) d)
      let n := r.conn.getD 0
      match getConn d1 n with
      | none => d1
      | some c =>
        if c.st ≠ .active then d1
        else
          startOp n
            { kind := .finish, fn := r.fn, sq := p.sq, cls := sqClass d p.fn p.sq, rtsMsn := r.msn,
              finStatus := if s = .success then .success else .remoteAccess,
              desc := { w5 := BitVec.ofNat 64 (r.mctx * 2 ^ 32) } } d1

/-! ### A connection fails (R142, R147, R159, R160, R177) -/

/-- Give every operation that lacks its completion a status: the oldest one, then the rest; the GET that serves a rendezvous
receive takes the connection's failure status, which the receive ends with (R142, R177, R179). A rendezvous finish or such a GET
that stands first takes the place of the oldest. (DEDUCED, log entry 153) -/
def condemn (oldest later broken : Status) : List Op → List Op
  | [] => []
  | o :: os => if o.written then o :: condemn oldest later broken os
               else { o with finished := some (if o.serves.isSome then broken else oldest) } :: condemn later later broken os

/-- End the matched receives of a connection that still lack bytes, and forget its Pending records and those whose receive has
ended: nothing more of their messages comes (R176, R177). (DEDUCED, log entry 66) -/
def breakMsgs (n : Nat) (s : Status) (d : Dev) : Dev :=
  d.mtc.recs.foldl (fun d r =>
    if r.conn ≠ some n then d
    else
      match r.st with
      | .pending => dropMsg r.id d
      | .matched =>
        if r.closed then (if r.copying = 0 then dropMsg r.id d else updMsg r.id (fun r => { r with arrived := r.len }) d)
        else if r.rts || decide (r.len ≤ r.arrived) then d
        else settleMsg r.id (updMsg r.id (fun r => { r with fail := some (r.fail.getD s), arrived := r.len, seg := [] }) d)
      | .unexpected => updMsg r.id (fun r => { r with gone := some s }) d) d

/-- Release every window charge of a connection (R252). -/
def releaseCharges (c : Conn) (d : Dev) : Dev :=
  c.charged.foldl (fun d x => winRelease (selfEp d c.fn) (epCoord c.peer) x.2 d) d

/-- CONN_BROKEN (R159), after REMOTE_FUNC_RESET where R160 asks for it. -/
def postBroken (n : Nat) (c : Conn) (s : Status) (d : Dev) : Dev :=
  let d1 :=
    if s = .remoteFuncReset ∧ c.peer ∉ (getFn d c.fn).resetPeers then
      postEvent c.fn .remoteFuncReset 0 (c.peer.setWidth 64) 0
        (updFn c.fn (fun x => { x with resetPeers := x.resetPeers ++ [c.peer] }) d)
    else d
  postEvent c.fn .connBroken (BitVec.ofNat 32 n) ((statusCode s).setWidth 64)
    (BitVec.ofNat 64 (c.una.toNat + c.base.toNat * 2 ^ 24)) d1

/-- Move a connection to Error (R115, R142): outstanding operations complete in MSN order, its charges are released,
matched receives that lack bytes end, CONN_BROKEN is posted, and the peer is told once where `reset` says so. -/
def failConn (n : Nat) (oldest later ev : Status) (reset : Bool) (d : Dev) : Dev :=
  match getConn d n with
  | none => d
  | some c =>
    if c.st = .error then d
    else
      let c1 := { c with ops := condemn oldest later ev c.ops }
      let d1 := retire n (setConn n c1 d)
      let d2 := releaseCharges c d1
      let d3 := setConn n { c with
        st := .error, ops := [], charged := [], resendQ := [], reading := none, rnrWait := none, stopped := false,
        respTraps := [], acc := [], held := [], ackDue := false } d2
      let d4 := postBroken n c ev (breakMsgs n ev d3)
      if reset then sendNib c.fn c.peer c.peerConn ntConnReset 0 0 0 0 d4 else d4

end Sys2Proof.Machine
end

