-- ==== Sys2Proof/Machine/Recv.lean ====
section
/-!
DEFINITION. The receiving half of the transport and the sender's reactions: the receive window (R132), execution and
duplicates (R133, R134), refusals (R143, R145), acknowledgements (R137, R138), loss and back-off (R141, R144).
-/
namespace Sys2Proof.Machine

open Sys2Proof

/-! ### Answers -/

/-- Answer a data packet from its connection: to the record's PEER and PEER_CONN (R147). -/
def answer (c : Conn) (ntype : Byte) (psn : Psn) (value : Word64) (reason : Byte) (info : Word32) (d : Dev) : Dev :=
  sendNib c.fn c.peer c.peerConn ntype psn value reason info d

/-- The 64-bit summary of a bitmap: bit i for sixteen marked packets (R136). -/
def summaryOf (m : BitVec 1024) : Word64 :=
  (List.range 64).foldl (fun w i => if (m >>> (16 * i)).setWidth 16 = 0xFFFF#16 then w ||| ins i 1 else w) 0

/-- Send an ACK, NAK or RNR_NAK: it covers the acceptances its PSN has passed, since those alone end an operation (R136, R137,
R138; DEDUCED, log entry 22); BASE's advance is counted from the last ACK alone (R137). -/
def sendCover (n : Nat) (ntype : Byte) (reason : Byte) (info : Word32) (d : Dev) : Dev :=
  match getConn d n with
  | none => d
  | some c =>
    answer c ntype c.base (summaryOf c.bitmap) reason info (setConn n { c with
      lastAck := if ntype = ntAck then c.base else c.lastAck, ackDue := decide (c.bitmap ≠ 0) } d)

/-- Send an ACK. -/
def sendAck (n : Nat) (d : Dev) : Dev := sendCover n ntAck 0 0 d

/-- Send a NAK, at most one per value of BASE (R130, R139). -/
def sendNak (n : Nat) (d : Dev) : Dev :=
  match getConn d n with
  | none => d
  | some c => if c.nakFor = some c.base then d else sendCover n ntNak 0 0 (setConn n { c with nakFor := some c.base } d)

/-- Refuse with receiver-not-ready (R143). -/
def sendRnr (n : Nat) (r : Rnr) (d : Dev) : Dev :=
  sendCover n ntRnrNak (rnrCode r) (BitVec.ofNat 32 (rnrWaitUs r)) (occur { ev := 0x0A, fn := (getConn d n).map (·.fn) } d)

/-- Refuse a packet with ACCESS_NAK (R145). -/
def sendAccessNak (n : Nat) (psn : Psn) (d : Dev) : Dev :=
  match getConn d n with
  | none => d
  | some c => answer c ntAccessNak psn 0 0 0 d

/-- An ACK a duplicate causes: at most one per 2 us (R134). -/
def dupAck (n : Nat) (d : Dev) : Dev :=
  match getConn d n with
  | none => d
  | some c =>
    match c.dupAckAt with
    | some t => if d.clk.now < t + 2000 then d else sendAck n (setConn n { c with dupAckAt := some d.clk.now } d)
    | none => sendAck n (setConn n { c with dupAckAt := some d.clk.now } d)

/-! ### The window (R132) -/

/-- Mark a packet accepted. -/
def markPkt (c : Conn) (p : Packet) : Conn :=
  { c with
    bitmap := c.bitmap ||| (1#1024 <<< psnDist c p.psn)
    acc := c.acc ++ [p]
    ackDue := true }

/-- Take a packet's mark back: it is refused after all, and stays unmarked (R143, R145). -/
def unmark (n : Nat) (q : Psn) (d : Dev) : Dev :=
  updConn n (fun c =>
    if psnDist c q < 1024 then
      { c with bitmap := c.bitmap &&& ~~~ (1#1024 <<< psnDist c q), acc := c.acc.filter (fun p => p.psn != q),
               held := c.held.filter (· != q) }
    else c) d

/-- Count an executed packet: PKT_EXECUTED and BYTES_RX (R388, R462). -/
def noteExec (c : Conn) (q : Psn) (d : Dev) : Dev :=
  match c.acc.find? fun p => p.psn == q with
  | some p => tally c.fn 1 (pktLen p) (occur (pktOcc 0x07 c.fn p) d)
  | none => d

/-- Note that an accepted packet has been executed; it is counted once (R388, R462). -/
def markExec (n : Nat) (q : Psn) (d : Dev) : Dev :=
  match getConn d n with
  | none => d
  | some c =>
    if 1024 ≤ psnDist c q || c.exec.getLsbD (psnDist c q) then d
    else noteExec c q (setConn n { c with exec := c.exec ||| (1#1024 <<< psnDist c q) } d)

/-- The target's notification of a PUT_FLAG (R124). -/
def notifyFlag (n : Nat) (c : Conn) (p : Packet) (d : Dev) : Dev :=
  postCqe c.fn c.cq false
    { userCtx := p.va, tag := p.aux.setWidth 64, len := p.offset + BitVec.ofNat 32 p.payload.length,
      source := c.peer, opcode := 0x82, conn := BitVec.ofNat 24 n } d

/-- Ask for the placement of a PUT or PUT_FLAG packet at its target (R89, R132). (DEDUCED, log entry 45) -/
def askPut (n : Nat) (c : Conn) (p : Packet) (d : Dev) : Dev :=
  let va := p.va.toNat + p.offset.toNat
  match checkRegion d c.fn p.key va p.payload.length .remoteWrite with
  | .error _ => sendAccessNak n p.psn (unmark n p.psn d)
  | .ok r =>
    askChecked { fn := c.fn, key := p.key, va := va, len := p.payload.length, right := .remoteWrite, conn := n,
                 cont := .place n p } r d

/-- A GET at its target: its whole range is translated before anything is read (R105, R125). -/
def askGet (n : Nat) (c : Conn) (p : Packet) (d : Dev) : Dev :=
  match checkRegion d c.fn p.key p.va.toNat p.aux.toNat .remoteRead with
  | .error _ => sendAccessNak n p.psn (unmark n p.psn d)
  | .ok r =>
    askChecked { fn := c.fn, key := p.key, va := p.va.toNat, len := p.aux.toNat, right := .remoteRead, conn := n,
                 cont := .getRead n p 0 } r d

/-- Ask for the read of an ATOMIC's word (R126). -/
def askAtomic (n : Nat) (c : Conn) (p : Packet) (d : Dev) : Dev :=
  match checkRegion d c.fn p.key p.va.toNat 8 .remoteAtomic with
  | .error _ => sendAccessNak n p.psn (unmark n p.psn d)
  | .ok r =>
    askChecked { fn := c.fn, key := p.key, va := p.va.toNat, len := 8, right := .remoteAtomic, conn := n,
                 cont := .atomRead n p } r d

/-- SKIND of a SEND (R166). -/
def skind (p : Packet) : Nat := p.key.toNat / 2 ^ 16 % 4

/-- MCTX of a SEND or NOTE (R166). -/
def pktMctx (p : Packet) : Nat := p.key.toNat % 2 ^ 16

/-- A rendezvous finish ends its send at the initiator (R175, R179). -/
def finishSend (n : Nat) (p : Packet) (d : Dev) : Dev :=
  match getConn d n with
  | none => d
  | some c =>
    let msn : Psn := p.aux.setWidth 24
    if c.ops.any (fun o => o.kind = .sendRts && o.msn == msn && !o.resp && !o.written) then
      let st : Status := if p.key.toNat / 2 ^ 24 = 0 then .success else .remoteAccess
      retire n (setConn n (updOp msn (fun o => if o.kind = .sendRts then { o with resp := true, finStatus := st } else o) c) d)
    else { d with xpt := { d.xpt with stray := d.xpt.stray.add 1 } }

/-- Execute a SEND packet of SKIND 0 or 1: placed, staged or discarded, as its record stands (R175 to R178). -/
def execSend (n : Nat) (p : Packet) (d : Dev) : Dev :=
  match msgOf d n p.msn with
  | none => markExec n p.psn d
  | some r =>
    let stage := markExec n p.psn (updMsg r.id (fun r =>
      { r with arrived := r.arrived + p.payload.length, seg := r.seg ++ [(p.offset.toNat, p.payload, p.rh.det)] }) d)
    let discard := settleMsg r.id (markExec n p.psn (updMsg r.id (fun r =>
      { r with arrived := r.arrived + p.payload.length }) d))
    if skind p = 1 then markExec n p.psn d
    else
      match r.recv with
      | none => stage
      | some q =>
        if r.closed || r.fail.isSome then discard
        else
          let a := askPlace r q p.offset.toNat p.payload
            (fun _ => .place n p) n d
          if a.1 then a.2
          else settleMsg r.id (markExec n p.psn (updMsg r.id (fun r => { r with arrived := r.arrived + p.payload.length }) a.2))

/-- Hand the header of a FIRST packet to matching, after the check against EXP_MSN (R175). -/
def handOver (n : Nat) (p : Packet) (d : Dev) : Dev :=
  match getConn d n with
  | none => d
  | some c =>
    match msgOf d n p.msn with
    | none => d
    | some r =>
      if r.st ≠ .pending then d
      else if p.msn ≠ c.expMsn then
        let k := (tget d.eng.slotMpe (connSlot n)).getD (connSlot n)
        failConn n .connError .connError .connError false
          (report (srcMpe k) .contained caProtocol 0 (BitVec.ofNat 24 n) 1 d)
      else matchMsg r.id d

/-- Execute an accepted packet (R132): flagged packets above BASE are held before this is reached. -/
def execPkt (n : Nat) (c : Conn) (p : Packet) (d : Dev) : Dev :=
  if p.void then markExec n p.psn d
  else if p.ptype = ptGetReq then
    if p.aux = 0 then markExec n p.psn d else askGet n c p d
  else if p.ptype = ptAtomicReq then askAtomic n c p d
  else if p.ptype = ptSend then
    if skind p = 2 then finishSend n p (markExec n p.psn d)
    else
      let d1 := if p.first && decide (psnDist c p.psn = 0) then handOver n p d else d
      execSend n p d1
  else askPut n c p d

/-- A packet whose header goes to matching (R175). -/
def headerOf (p : Packet) : Bool := p.first && p.ptype == ptSend && !p.void && decide (skind p < 2)

/-- Move BASE past executed packets: a held packet is executed when BASE reaches it, a staged header is handed over
before BASE passes it, unless its context's slot is fenced and the hand-over is held (R189), and EXP_MSN follows every FIRST
packet passed (R132, R133, R175). -/
def advance : Nat → Nat → Dev → Dev
  | 0, _, d => d
  | fuel + 1, n, d =>
    match getConn d n with
    | none => d
    | some c =>
      if c.st = .error || !c.bitmap.getLsbD 0 then d
      else
        match c.acc.find? (fun p => p.psn == c.base) with
        | none => d
        | some p =>
          if c.held.contains c.base then
            let d1 := setConn n { c with held := c.held.filter (· != c.base) } d
            if p.void then advance fuel n (markExec n p.psn d1) else execPkt n c p d1
          else if !c.exec.getLsbD 0 then d
          else if headerOf p && slotGrafting d (mctxSlot (pktMctx p)) then d
          else
            let d1 := if headerOf p then handOver n p d else d
            match getConn d1 n with
            | none => d1
            | some c1 =>
              if c1.st = .error then d1
              else
                advance fuel n (setConn n { c1 with
                  bitmap := c1.bitmap >>> 1
                  exec := c1.exec >>> 1
                  base := c1.base + 1
                  acc := c1.acc.filter (fun x => x.psn != c1.base)
                  expMsn := if p.first then p.msn + 1 else c1.expMsn } d1)

/-- After execution: BASE moves, and an ACK is sent once BASE has advanced by 16 since the last, or at once where
`now` says so (R137). -/
def afterExec (n : Nat) (now : Bool) (d : Dev) : Dev :=
  let d1 := advance 2048 n d
  match getConn d1 n with
  | none => d1
  | some c =>
    if c.st = .error then d1
    else if now || decide (16 ≤ (c.base - c.lastAck).toNat ∧ c.ackDue) then sendAck n d1
    else d1

/-! ### Refusals before a packet is marked (R143, R145, R180) -/

/-- Flagged packets held, over the device (R133); a parked function's have left HBM (R156 step 3). -/
def heldFlags (d : Dev) : Nat :=
  ((d.xpt.conns.filter fun e => (getFn d e.2.fn).park ≠ .parked).map fun e => e.2.held.length).sum

/-- The outcome of the checks made before a packet is marked. -/
inductive Refuse where
  | none
  | rnr (r : Rnr)
  | access
deriving DecidableEq, Repr

/-- A page of leaf level `level` holds a byte of [va, va + len). -/
def pageTouches (level page va len : Nat) : Bool :=
  decide (va / 2 ^ pageShift level ≤ page ∧ page * 2 ^ pageShift level < va + len)

/-- A slot released with ABORT = 1 after it had refused a remote packet covers a page of a range (R107). -/
def pageAborted (x : Fn) (asn va len : Nat) : Option (Nat × Nat × Nat) :=
  x.aborted.find? fun e => decide (e.1 = asn) && pageTouches e.2.1 e.2.2 va len

/-- Where a SEND packet of a matched message is placed: the receiving function's address space, the address and the bytes
(R177). -/
def sendPlace (d : Dev) (n : Nat) (p : Packet) : Option (FnId × Nat × Nat × Nat) :=
  match (msgOf d n p.msn).bind (·.recv) with
  | none => none
  | some q =>
    (regionOf d q.fn q.key).map fun g =>
      (q.fn, g.asn, q.va.toNat + p.offset.toNat, min p.payload.length (q.len - p.offset.toNat))

/-- The refusal of a range for its pages: for a retried packet one aborted (R107), then a slot still in use that has refused a
remote packet for one of them (R105). -/
def refusePages (d : Dev) (f : FnId) (retx : Bool) (asn va len : Nat) : Refuse :=
  let x := getFn d f
  if len = 0 then .none
  else if retx && (pageAborted x asn va len).isSome then .access
  else if x.traps.any (fun e => e.2.remote && decide (e.2.asn = asn) && pageTouches e.2.level e.2.page va len) then .rnr .mark
  else .none

/-- The refusal that applies to a SEND of SKIND 0 or 1 (R105, R107, R176, R177, R180). -/
def refuseSend (d : Dev) (n : Nat) (c : Conn) (p : Packet) : Refuse :=
  match getMctx d (pktMctx p) with
  | none => .access
  | some x =>
    if x.fn ≠ c.fn ∨ x.st = .lost then .access
    else if x.st = .parked then .rnr .parked
    else if slotGrafting d (mctxSlot (pktMctx p)) then .rnr .grafting
    else if (msgOf d n p.msn).isSome then
      match sendPlace d n p with
      | some (f, asn, va, len) => refusePages d f p.retx asn va len
      | none => .none
    else if canReserve d (pktMctx p) x (blocksFor (decide (skind p = 1)) p.aux.toNat) true then .none
    else .rnr .unexpectedFull

/-- The refusal that applies to an access of a packet: R89, then an aborted page (R107), then a slot still in use
that has refused a remote packet for its page (R105); zero length translates nothing. -/
def refuseAccess (d : Dev) (c : Conn) (retx : Bool) (key : Word32) (va len : Nat) (right : Right) : Refuse :=
  match checkRegion d c.fn key va len right with
  | .error _ => .access
  | .ok r => refusePages d c.fn retx r.asn va len

/-- The refusal that applies to a packet, in order (R78, R133, R143, R145, R147, R190). -/
def refusal (d : Dev) (n : Nat) (c : Conn) (p : Packet) : Refuse :=
  let x := getFn d c.fn
  if (match tget x.cqs c.cq with | some q => cqFull q | none => false) then .rnr .cqFull
  else if x.park = .parked || x.park = .unparking then .rnr .parked
  else if slotGrafting d (connSlot n) then .rnr .grafting
  else if p.ptype = ptPutFlag ∧ p.void ∧ psnDist c p.psn ≠ 0 ∧ 65536 ≤ heldFlags d then .rnr .flagHoldFull
  else if p.void then .none
  else if p.ptype = ptGetReq then refuseAccess d c p.retx p.key p.va.toNat p.aux.toNat .remoteRead
  else if p.ptype = ptAtomicReq then
    if 2 < p.aux.toNat % 16 then .access else refuseAccess d c p.retx p.key p.va.toNat 8 .remoteAtomic
  else if p.ptype = ptSend then
    if skind p = 3 then .access else if skind p = 2 then .none else refuseSend d n c p
  else
    match refuseAccess d c p.retx p.key (p.va.toNat + p.offset.toNat) p.payload.length .remoteWrite with
    | .none => if p.ptype = ptPutFlag ∧ psnDist c p.psn ≠ 0 ∧ 65536 ≤ heldFlags d then .rnr .flagHoldFull else .none
    | r => r

/-- The range of host addresses a packet reads or writes: function, address space, address and length. -/
def pktRange (d : Dev) (n : Nat) (c : Conn) (p : Packet) : Option (FnId × Nat × Nat × Nat) :=
  if p.ptype = ptSend then sendPlace d n p
  else
    (regionOf d c.fn p.key).map fun r =>
      if p.ptype = ptGetReq then (c.fn, r.asn, p.va.toNat, p.aux.toNat)
      else if p.ptype = ptAtomicReq then (c.fn, r.asn, p.va.toNat, 8)
      else (c.fn, r.asn, p.va.toNat + p.offset.toNat, p.payload.length)

/-- An aborted page is refused once, to a retried packet (R107). -/
def clearAborted (n : Nat) (c : Conn) (p : Packet) (d : Dev) : Dev :=
  match (pktRange d n c p).filter fun _ => p.retx with
  | none => d
  | some (f, asn, va, len) =>
    updFn f (fun x => match pageAborted x asn va len with
      | some e => { x with aborted := x.aborted.erase e }
      | none => x) d

/-! ### Arrival (R132, R134) -/

/-- A duplicate GET_REQ: its data is read and sent again, once its range is allowed and translated as an incoming GET's is; the
packet keeps its mark, whatever becomes of the answer (R105, R107, R134). (DEDUCED, log entry 52) -/
def answerGet (n : Nat) (c : Conn) (p : Packet) (d : Dev) : Dev :=
  match refuseAccess d c p.retx p.key p.va.toNat p.aux.toNat .remoteRead, checkRegion d c.fn p.key p.va.toNat p.aux.toNat .remoteRead with
  | .rnr r, _ => sendRnr n r d
  | .access, _ | .none, .error _ => sendAccessNak n p.psn (clearAborted n c p d)
  | .none, .ok r =>
    askChecked { fn := c.fn, key := p.key, va := p.va.toNat, len := p.aux.toNat, right := .remoteRead, conn := n,
                 cont := .dupRead n p } r d

/-- Answer a duplicate (R134). -/
def answerDup (n : Nat) (c : Conn) (p : Packet) (d : Dev) : Dev :=
  if p.void then dupAck n d
  else if p.ptype = ptGetReq then (if p.aux = 0 then dupAck n d else answerGet n c p d)
  else if p.ptype = ptAtomicReq then
    match c.atoms.find? (fun a => a.1 == p.psn) with
    | some a => answer c ntAtomicResp p.psn a.2.1 0 0 d
    | none => dupAck n d
  else dupAck n d

/-- Reserve the record of a message whose first packet to arrive is being accepted (R176). -/
def reserveMsg (n : Nat) (c : Conn) (p : Packet) (d : Dev) : Dev :=
  if p.ptype ≠ ptSend ∨ p.void ∨ 2 ≤ skind p ∨ (msgOf d n p.msn).isSome then d
  else
    let rts := decide (skind p = 1)
    let ix := takeFree d
    let at_ := takeFree ix.2
    let d := at_.2
    let r : MsgRec :=
      { id := d.xpt.nextId, entryIx := ix.1.toNat % 2 ^ 22, blockAt := at_.1, conn := some n, fn := c.fn, msn := p.msn, src := c.peer, tag := p.va, mctx := pktMctx p,
        rts := rts, len := p.aux.toNat, blocks := blocksFor rts p.aux.toNat,
        srcVa := if rts then BitVec.ofNat 64 (leNat (p.payload.take 8)) else 0,
        srcKey := if rts then BitVec.ofNat 32 (leNat ((p.payload.drop 8).take 4)) else 0 }
    { d with
      xpt := { d.xpt with nextId := d.xpt.nextId + 1 }
      mtc := { d.mtc with recs := d.mtc.recs ++ [r] } }

/-- An arriving data packet of an Active or Parked connection, past the checks of R147 (R132). -/
def recvData (n : Nat) (c : Conn) (p : Packet) (d : Dev) : Dev :=
  let k := psnDist c p.psn
  if 2 ^ 23 ≤ k ∨ (k < 1024 ∧ c.bitmap.getLsbD k = true) then answerDup n c p (occur { ev := 0x08, fn := some c.fn, op := some (pktOpcode p.ptype) } d)
  else if 1024 ≤ k then { d with xpt := { d.xpt with outWindow := d.xpt.outWindow.add 1 } }
  else if p.rh.det ∧ k ≠ 0 then sendNak n d
  else
    match refusal d n c p with
    | .rnr r => sendRnr n r d
    | .access => sendAccessNak n p.psn (clearAborted n c p d)
    | .none =>
      let d1 := setConn n (markPkt c p) (reserveMsg n c p d)
      if p.ptype = ptPutFlag ∧ k ≠ 0 then
        updConn n (fun c => { c with held := c.held ++ [p.psn] }) d1
      else
        match getConn d1 n with
        | none => d1
        | some c1 => afterExec n false (execPkt n c1 p d1)

/-! ### The sender's reactions (R138, R141, R144) -/

/-- An operation whose request is below UNA and whose response is incomplete (R141). -/
def awaitsResp (c : Conn) (o : Op) : Bool :=
  (o.kind = .get || o.kind = .atomic) && opAcked c o && !o.written && (opFinished c o).isNone

/-- The PSNs of a resend round: incomplete requests first, then UNA to NEXT - 1 without full summary groups (R141). -/
def resendList (c : Conn) : List Psn :=
  (c.ops.filter (awaitsResp c)).map (·.psn0)
  ++ ((List.range (c.next - c.una).toNat).filter fun i => !c.summary.getLsbD (i / 16) || decide (1024 ≤ i)).map
      fun i => c.una + BitVec.ofNat 24 i

/-- Begin a resend round (R141), after the check of the peer's reachability bit (R255). (DEDUCED, log entry 55) -/
def resend (n : Nat) (d : Dev) : Dev :=
  match getConn d n with
  | none => d
  | some c =>
    if c.st ≠ .active then d
    else if !reachable d c.peer then
      failConn n .destDown .destDown .destDown false
        { d with rt := { d.rt with reachRefused := d.rt.reachRefused.add 1 } }
    else
      retire n (pump pumpFuel n (setConn n { c with resendQ := resendList c, reading := none, stopped := false } d))

/-- A loss (R141). -/
def loss (n : Nat) (d : Dev) : Dev :=
  match getConn d n with
  | none => d
  | some c =>
    let d1 := setConn n { c with retries := min 15 (c.retries + 1) } d
    if c.retryLimit < c.retries + 1 then failConn n .retryExceeded .connError .retryExceeded true d1 else resend n d1

/-- The wait of the k-th refusal in a row, in nanoseconds (R144). -/
def rnrWaitNs (c : Conn) (info k : Nat) : Nat := min 8000000 (max (info * 1000) (c.rnrMin * 10000) * 2 ^ (k - 1))

/-- A receiver-not-ready refusal that arrives outside a wait; a payload still being read is not sent during the wait (R144). -/
def backOff (n : Nat) (info : Nat) (d : Dev) : Dev :=
  match getConn d n with
  | none => d
  | some c =>
    if c.rnrWait.isSome then d
    else if c.rnrLimit ≠ 15 ∧ c.rnrLimit < c.rnr + 1 then
      failConn n .rnrExceeded .connError .rnrExceeded true (setConn n { c with rnr := c.rnr + 1 } d)
    else setConn n { c with rnr := min 15 (c.rnr + 1), rnrWait := some (rnrWaitNs c info (c.rnr + 1)), reading := none } d

/-- The charges of packets that UNA has passed. -/
def passedCharges (una : Psn) (l : List (Psn × Nat)) : List (Psn × Nat) := l.filter fun x => decide ((una - x.1).toNat - 1 < 2 ^ 23 ∧ una ≠ x.1)

/-- ACK, NAK and RNR_NAK move UNA, release what it passes, and complete what is acknowledged (R138, R252). -/
def ackTo (n : Nat) (c : Conn) (b : Psn) (s : Word64) (d : Dev) : Dev :=
  if b = c.una then setConn n { c with summary := s } d
  else
    let gone := passedCharges b c.charged
    let d1 := gone.foldl (fun d x => winRelease (selfEp d c.fn) (epCoord c.peer) x.2 d) d
    retire n (setConn n { c with
      una := b, retries := 0, rnr := 0, summary := s
      charged := c.charged.filter fun x => !gone.contains x
      resendQ := c.resendQ.filter fun q => decide (2 ^ 23 ≤ (b - q).toNat ∨ b = q) || (c.ops.any fun o => o.psn0 == q
        && (o.kind = .get || o.kind = .atomic)) } d1)

/-- A Nib message's PSN lies in [UNA, NEXT] (R138). -/
def ackInRange (c : Conn) (b : Psn) : Bool := decide ((b - c.una).toNat ≤ (c.next - c.una).toNat)

/-- Change an operation's failure (R146) and let the connection go on. -/
def failOp (n : Nat) (msn : Psn) (s : Status) (d : Dev) : Dev :=
  match getConn d n with
  | none => d
  | some c => retire n (setConn n (updOp msn (fun o => { o with fail := some (o.fail.getD s) }) c) d)

end Sys2Proof.Machine
end

