-- ==== Sys2Proof/Machine/Trellis.lean ====
section
/-!
DEFINITION. Collectives at this node: tree entries (R195), the course of an operation (R211 to R217), how a node ends
one (R215, R228), and the members' side (R204 to R207, R230).
-/
namespace Sys2Proof.Machine

open Sys2Proof

/-! ### Tree entries (R195) -/

def TreeWords.role (t : TreeWords) : Nat := fld t.w0 0 2
def TreeWords.parent (t : TreeWords) : Nat := fld t.w0 2 6
def TreeWords.tu (t : TreeWords) : Nat := fld t.w0 8 3
def TreeWords.depth (t : TreeWords) : Nat := fld t.w0 16 6
def TreeWords.domain (t : TreeWords) : Dom := BitVec.ofNat 16 (fld t.w0 32 16)
def TreeWords.childFabric (t : TreeWords) (p : Nat) : Bool := bit t.w1 p
def TreeWords.childHost (t : TreeWords) (n : Nat) : Bool := bit t.w2 n
def TreeWords.hostFn (t : TreeWords) (n : Nat) : Nat := fld t.w2 (8 + 8 * n) 8
/-- The entry is in force as root or interior. -/
def TreeWords.present (t : TreeWords) : Bool := t.role == 1 || t.role == 2
/-- Fabric children, by ascending port (R199). -/
def TreeWords.fabricChildren (t : TreeWords) : List Nat := (List.range 64).filter t.childFabric
/-- Host children, by ascending host port. -/
def TreeWords.hostChildren (t : TreeWords) : List Nat := (List.range 4).filter t.childHost
/-- All children in combining order; a host port n is 64 + n (R199). -/
def TreeWords.children (t : TreeWords) : List Nat := t.fabricChildren ++ t.hostChildren.map (64 + ·)
/-- Slots an entry reserves (R196). -/
def TreeWords.slots (t : TreeWords) : Nat := if t.present then t.depth * (t.children.length + 1) else 0

/-- The entry of a tree in a bank (false: A). -/
def treeEntry (d : Dev) (bank : Bool) (tree : Nat) : TreeWords := (tget (if bank then d.rt.trB else d.rt.trA) tree).getD {}

/-- State of a bank. -/
def bankState (d : Dev) (bank : Bool) : BankSt := if bank then d.rt.bankB else d.rt.bankA

/-- The node of a tree. -/
def getNode (d : Dev) (tree : Nat) : TreeNode := (tget d.tre.nodes tree).getD {}

/-- Set the node of a tree. -/
def setNode (tree : Nat) (x : TreeNode) (d : Dev) : Dev := { d with tre := { d.tre with nodes := tput d.tre.nodes tree x } }

/-- Change the operation in progress. -/
def updOpn (tree : Nat) (g : TreeOp → TreeOp) (d : Dev) : Dev :=
  let x := getNode d tree
  setNode tree { x with op := x.op.map g } d

/-- An operation of the tree is bound to a bank (R232). -/
def boundTo (d : Dev) (tree : Nat) (bank : Bool) : Bool :=
  match (getNode d tree).op with
  | some o => if bank then o.bindB else o.bindA
  | none => false

/-- The entry that serves tree packets of an epoch: its bank ARMED, or RETIRING with an operation bound to it (R233, R258). -/
def entryFor (d : Dev) (tree : Nat) (epoch : Bool) : Option TreeWords :=
  let t := treeEntry d epoch tree
  let usable := bankState d epoch = .armed || (bankState d epoch = .retiring && boundTo d tree epoch)
  if usable && t.present then some t else none

/-- The entry of a tree in the bank the device stamps (R200, R204). -/
def stampedEntry (d : Dev) (tree : Nat) : Option TreeWords :=
  let t := treeEntry d d.rt.stamp tree
  if t.present then some t else none

/-- Operations in progress bound to a bank (R235). -/
def opsBound (d : Dev) (bank : Bool) : Nat :=
  (d.tre.nodes.filter fun e => match e.2.op with | some o => if bank then o.bindB else o.bindA | none => false).length

/-- A RETIRING bank becomes IDLE when no operation is bound to it (R259). -/
def retireBanks (d : Dev) : Dev :=
  let d1 := if d.rt.bankA = .retiring && opsBound d false == 0 then { d with rt := { d.rt with bankA := .idle } } else d
  if d1.rt.bankB = .retiring && opsBound d1 true == 0 then { d1 with rt := { d1.rt with bankB := .idle } } else d1

/-- Slots reserved by tree entries of both banks (R196, R236). -/
def slotsUsed (d : Dev) : Nat :=
  (d.rt.trA.map fun e => e.2.slots).sum + (d.rt.trB.map fun e => e.2.slots).sum

/-! ### Sending (R208, R209) -/

/-- The port map entry of a bank that names a port (R239). -/
def portEntry (d : Dev) (bank : Bool) (p : Nat) : Option (Nat × Word64) :=
  (if bank then d.rt.pmB else d.rt.pmA).find? fun e =>
    (bit e.2 6 && fld e.2 0 6 == p) || (bit e.2 14 && fld e.2 8 6 == p)

/-- The coordinate of the neighbour a port leads to, by the port map of a bank, or by the other bank's where that one does not
name the port (R239). -/
def neighbour (d : Dev) (bank : Bool) (p : Nat) : Nat :=
  match (portEntry d bank p).or (portEntry d (!bank) p) with
  | none => 0
  | some e =>
    let dim := e.1 / 16
    let old := coord d / 16 ^ dim % 16
    coord d - old * 16 ^ dim + e.1 % 16 * 16 ^ dim

/-- Queue an item for transmission on a port. -/
def queuePort (p : Nat) (it : QItem) (d : Dev) : Dev :=
  { d with rt := { d.rt with egress := tput d.rt.egress p ((tget d.rt.egress p).getD [] ++ [it]) } }

/-- Send a tree packet on a port to a router (R208). -/
def sendTreeTo (dest : Ep) (p : Nat) (t : TreePkt) (dom : Dom) (epoch : Bool) (d : Dev) : Dev :=
  queuePort p { item := .tree (sealTree { t with rh :=
    { dest := dest, src := BitVec.ofNat 26 (coord d * 1024), epoch := epoch, domain := dom } }), ingress := 64, since := d.clk.now } d

/-- Send a tree packet on a port to the router it leads to (R208). -/
def sendTree (p : Nat) (t : TreePkt) (dom : Dom) (epoch : Bool) (d : Dev) : Dev :=
  sendTreeTo (BitVec.ofNat 26 (neighbour d epoch p * 1024)) p t dom epoch d

/-- Answer a tree packet on the port it came on: to the router that sent it (R208). -/
def answerTree (p : Nat) (k t : TreePkt) (dom : Dom) (d : Dev) : Dev := sendTreeTo k.rh.src p t dom k.rh.epoch d

/-- The header fields of an operation in a packet (R209). -/
def hdrPkt (tree : Nat) (opn : Nat) (h : Option CollHdr) (ptype : Byte) : TreePkt :=
  let h := h.getD {}
  { ptype := ptype, tree := BitVec.ofNat 14 tree, opn := BitVec.ofNat 16 opn, cop := BitVec.ofNat 8 h.cop,
    elem := BitVec.ofNat 8 h.elem, count := BitVec.ofNat 32 h.count, scale := BitVec.ofInt 16 h.scale, raw256 := h.raw }

/-- A TREE_ABORT carrying a status (R209, R228). -/
def abortPkt (tree opn : Nat) (s : Status) (mismatch : Bool) : TreePkt :=
  { hdrPkt tree opn none ptTreeAbort with chunk := (statusCode s).setWidth 32, mismatch := mismatch }

/-- Send TREE_ABORT to the parent and to every fabric child except some ports (R228). -/
def sendAborts (t : TreeWords) (tree opn : Nat) (s : Status) (mismatch : Bool) (except : List Nat) (epoch : Bool) (d : Dev) : Dev :=
  let ports := (if t.role = 2 then [t.parent] else []) ++ t.fabricChildren
  ports.foldl (fun d p => if except.contains p then d else sendTree p (abortPkt tree opn s mismatch) t.domain epoch d) d

/-- A port leads to the parent or to a child (R195). -/
def TreeWords.onEdge (t : TreeWords) (port : Nat) : Bool := t.childFabric port || (t.role = 2 && t.parent = port)

/-! ### Members (R205, R215, R230) -/

/-- The member function of a tree at a host port, by the entry. -/
def memberFn (t : TreeWords) (n : Nat) : FnId := { port := Fin.ofNat 4 n, num := Fin.ofNat 256 (t.hostFn n) }

/-- Write a member's completion (R215, R230); a result without elements is whole from the start. (DEDUCED, log entry 144) -/
def completeColl (tree : Nat) (r : CollReq) (s : Status) (mismatch : Bool) (d : Dev) : Dev :=
  let flags := r.flags.toNat % 32 + b2n mismatch * 32 + b2n (s ≠ .success && (r.allPlaced || r.desc.length == 0)) * 64
  endWork r.fn r.sq r.cnt r.cq r.desc.signal
    { userCtx := r.desc.userCtx
      tag := BitVec.ofNat 64 (flags + r.opn * 256 + b2n r.epoch * 2 ^ 24)
      len := if s = .success then BitVec.ofNat 32 r.bytes else 0
      status := s
      opcode := 0x08
      queue := BitVec.ofNat 16 r.sq }
    (updFn r.fn (fun x => { x with trees := tmod x.trees tree fun m => { m with cur := none } })
      (if s = .success then tagStage r.fn r.sq r.cnt 6 false d else d))

/-- The COLL in progress of a member. -/
def collOf (d : Dev) (f : FnId) (tree : Nat) : Option CollReq := (tget (getFn d f).trees tree).bind (·.cur)

/-- Change the COLL in progress of a member. -/
def updColl (f : FnId) (tree : Nat) (g : CollReq → CollReq) (d : Dev) : Dev :=
  updFn f (fun x => { x with trees := tmod x.trees tree fun m => { m with cur := m.cur.map g } }) d

/-- Complete the COLL of every host child of a tree (R215, R228). -/
def completeMembers (t : TreeWords) (tree opn : Nat) (s : Status) (mismatch : Bool) (d : Dev) : Dev :=
  t.hostChildren.foldl (fun d n =>
    match collOf d (memberFn t n) tree with
    | some r => if r.opn = opn then completeColl tree r s mismatch d else d
    | none => d) d

/-! ### Ending an operation (R215, R228) -/

/-- Record an operation's end: its status is kept, the number advances, its slots are free (R205, R228). -/
def closeOp (tree : Nat) (s : Status) (mismatch : Bool) (d : Dev) : Dev :=
  let x := getNode d tree
  retireBanks (setNode tree { opn := (x.opn + 1) % 65536, op := none, ended := tput x.ended x.opn (s, mismatch) } d)

/-- The entry an operation in progress goes by: the bank of its epoch, else whichever bank has one. -/
def opEntry (d : Dev) (tree : Nat) : TreeWords :=
  let e := match (getNode d tree).op with | some o => o.epoch | none => d.rt.stamp
  let t := treeEntry d e tree
  if t.present then t else treeEntry d (!e) tree

/-- The epoch stamped on what an operation in progress sends, contributions combined apart: that of the first bank it was bound
to. (DESIGN CHOICE, log entry 158) -/
def opEpoch (d : Dev) (tree : Nat) : Bool := match (getNode d tree).op with | some o => o.epoch | none => d.rt.stamp

/-- The entries an operation in progress is bound to, with their epochs (R232). -/
def opEntries (d : Dev) (tree : Nat) : List (TreeWords × Bool) :=
  match (getNode d tree).op with
  | none => []
  | some o => ((if o.bindA then [false] else []) ++ (if o.bindB then [true] else [])).filterMap fun e =>
      if (treeEntry d e tree).present then some (treeEntry d e tree, e) else none

/-- Abort along each entry and complete its members, no port or member twice (R228). -/
def abortAlong (tree opn : Nat) (s : Status) (mismatch : Bool) : List Nat → List (TreeWords × Bool) → Dev → Dev
  | _, [], d => d
  | except, (t, e) :: rest, d =>
    abortAlong tree opn s mismatch (except ++ (if t.role = 2 then [t.parent] else []) ++ t.fabricChildren) rest
      (completeMembers t tree opn s mismatch (sendAborts t tree opn s mismatch except e d))

/-- End the current operation of a tree with a failure (R228): along the entries it is bound to and `more`, that of the packet or
member that ends it. -/
def endOpBy (more : List (TreeWords × Bool)) (tree : Nat) (s : Status) (mismatch : Bool) (except : Nat) (d : Dev) : Dev :=
  closeOp tree s mismatch (abortAlong tree (getNode d tree).opn s mismatch [except] (opEntries d tree ++ more) d)

/-- End the current operation of a tree along its own entries; one not begun goes by the entry in the stamped bank, or in the
other. -/
def endOp (tree : Nat) (s : Status) (mismatch : Bool) (except : Nat) (d : Dev) : Dev :=
  endOpBy (if (opEntries d tree).isEmpty then [(opEntry d tree, opEpoch d tree)] else []) tree s mismatch except d

/-- End the operation in progress, if there is one. -/
def endIfRunning (tree : Nat) (s : Status) (d : Dev) : Dev :=
  if (getNode d tree).op.isSome then endOp tree s false 64 d else d

/-- End the operation with success, passing TREE_DONE down (R215). -/
def endDone (tree : Nat) (t : TreeWords) (d : Dev) : Dev :=
  let x := getNode d tree
  let e := opEpoch d tree
  let h := x.op.bind (·.hdr)
  let d1 := t.fabricChildren.foldl (fun d p => sendTree p (hdrPkt tree x.opn h ptTreeDone) t.domain e d) d
  closeOp tree .success false (completeMembers t tree x.opn .success false d1)

/-! ### The course of an operation (R211 to R217) -/

/-- Chunks of an operation (R211). -/
def nChunks (h : CollHdr) : Nat := if h.count = 0 then 0 else (h.count + chunkElems h.cop h.elem - 1) / chunkElems h.cop h.elem

/-- Elements of chunk i (R211). -/
def chunkCount (h : CollHdr) (i : Nat) : Nat := min (chunkElems h.cop h.elem) (h.count - i * chunkElems h.cop h.elem)

/-- The contribution of a child to a chunk. -/
def contribOf (o : TreeOp) (ch i : Nat) : Option Contrib :=
  match o.contribs.find? (fun c => c.child == ch && c.chunk == i) with
  | some c => some c
  | none => o.nulls.find? fun c => c.child == ch

/-- Contributions of every child to a chunk, in combining order (R199, R213). -/
def gather (o : TreeOp) (t : TreeWords) (i : Nat) : Option (List Contrib) := t.children.mapM fun ch => contribOf o ch i

/-- Two contributions of a chunk combined: NULL is the identity (R213, R217). -/
def combine2 (h : CollHdr) (a b : Contrib) : Contrib :=
  let f := a.flags ||| b.flags
  if a.null then { b with flags := f }
  else if b.null then { a with flags := f }
  else { a with data := combineBytes h.cop h.elem a.data b.data, flags := f }

/-- A chunk's contributions folded in order (R213). -/
def combineAll (h : CollHdr) : List Contrib → Contrib
  | [] => {}
  | c :: cs => cs.foldl (combine2 h) c

/-- A BROADCAST contribution carries data where another child's of the same chunk does (R206, R217). -/
def secondSource (h : CollHdr) (o : TreeOp) (c : Contrib) : Bool :=
  h.cop == 0x09 && !c.null && o.contribs.any fun x => x.chunk == c.chunk && !x.null && x.child != c.child

/-- Two contributions of one BROADCAST chunk carry data (R217). -/
def twoSources (h : CollHdr) (cs : List Contrib) : Bool := h.cop == 0x09 && decide (1 < (cs.filter fun c => !c.null).length)

/-- The tagged operations of this node's members pass a stage (R471). -/
def tagMembers (tree : Nat) (t : TreeWords) (stage : Nat) (first : Bool) (d : Dev) : Dev :=
  t.hostChildren.foldl (fun d n =>
    match collOf d (memberFn t n) tree with
    | some r => if r.opn = (getNode d tree).opn then tagStage r.fn r.sq r.cnt stage first d else d
    | none => d) d

/-- Send a combined chunk to the parent, or hold it for credit (R212); the one NULL that stands for every chunk needs none. -/
def sendUp (tree : Nat) (t : TreeWords) (c : Contrib) (d : Dev) : Dev :=
  let x := getNode d tree
  match x.op with
  | none => d
  | some o =>
    if c.chunk == 0xFFFFFFFF || decide (c.chunk < max t.depth o.upLimit) then
      sendTree t.parent { hdrPkt tree x.opn o.hdr ptTreeUp with
        null := c.null, flags := c.flags &&& 0x1F, chunk := BitVec.ofNat 32 c.chunk, payload := c.data } t.domain c.epoch
        (tagMembers tree t 5 false (tagMembers tree t 4 true d))
    else updOpn tree (fun o => { o with upHeld := o.upHeld ++ [c] }) d

/-- Send UP_CREDIT to every fabric child once chunk i's slots are free (R212). -/
def sendUpCredit (tree : Nat) (t : TreeWords) (i : Nat) (d : Dev) : Dev :=
  let x := getNode d tree
  let lim := i + t.depth + 1
  let h := x.op.bind (·.hdr)
  updOpn tree (fun o => { o with credited := max o.credited lim })
    (t.fabricChildren.foldl (fun d p => sendTree p { hdrPkt tree x.opn h ptUpCredit with chunk := BitVec.ofNat 32 lim }
      t.domain (opEpoch d tree) d) d)

/-- Ask for the read of a member's next chunk, charged to its shaped class (R213, R330); its region is checked as the chunk is
read (R89, R229). -/
def askContrib (tree : Nat) (r : CollReq) (h : CollHdr) (d : Dev) : Dev :=
  let es := elemSize h.elem
  let va := r.desc.localVa + r.reads * chunkElems h.cop h.elem * es
  let len := chunkCount h r.reads * es
  let a : Access := { fn := r.fn, key := r.desc.localKey, va := va, len := len, right := .localRead, sq := r.sq,
                      cont := .collRead tree r.opn r.reads }
  submit r.cls { fn := r.fn, coll := some a } (updColl r.fn tree (fun r => { r with reads := r.reads + 1 }) d)

/-- Ask for every chunk of a member that has a slot (R212); fuel is the depth. -/
def askContribs (tree : Nat) (f : FnId) (h : CollHdr) (limit : Nat) : Nat → Dev → Dev
  | 0, d => d
  | fuel + 1, d =>
    match collOf d f tree with
    | none => d
    | some r =>
      if decide (r.reads < min limit (nChunks h)) && r.desc.localKey != 0 then
        askContribs tree f h limit fuel (askContrib tree r h d)
      else d

/-- The slots of chunk i are free: fabric children get credit, and members' next chunks are read (R212).
(DEDUCED, log entry 73) -/
def freeChunk (tree : Nat) (t : TreeWords) (h : CollHdr) (i : Nat) (d : Dev) : Dev :=
  t.hostChildren.foldl (fun d n => askContribs tree (memberFn t n) h (i + t.depth + 1) 64 d) (sendUpCredit tree t i d)

/-- Send a combined chunk upward, which frees its slots; one held for credit keeps them (R212). -/
def passUp (tree : Nat) (t : TreeWords) (h : CollHdr) (c : Contrib) (d : Dev) : Dev :=
  match (getNode d tree).op with
  | none => d
  | some o =>
    if c.chunk < max t.depth o.upLimit then freeChunk tree t h c.chunk (sendUp tree t c d) else sendUp tree t c d

/-- A member has its whole result (R215). -/
def memberDone (tree : Nat) (n : Nat) (f : FnId) (total : Nat) (d : Dev) : Dev :=
  match collOf d f tree with
  | none => d
  | some r =>
    if r.placed.length < total then d
    else
      updOpn tree (fun o => { o with acked := if o.acked.contains (64 + n) then o.acked else o.acked ++ [64 + n] })
        (updColl f tree (fun r => { r with allPlaced := true }) d)

/-- Give a result chunk to a member: placed in its buffer, its region checked then (R89, R214), or merely counted where RECV_KEY
is 0 (R207). -/
def giveMember (tree : Nat) (t : TreeWords) (h : CollHdr) (i : Nat) (flags : Byte) (data : List Byte) (n : Nat) (d : Dev) : Dev :=
  let f := memberFn t n
  match collOf d f tree with
  | none => d
  | some r =>
    if r.desc.remoteKey = 0 then
      memberDone tree n f (nChunks h)
        (updColl f tree (fun r => { r with placed := r.placed ++ [i], flags := r.flags ||| flags }) d)
    else
      let va := r.desc.remoteVa.toNat + i * chunkElems h.cop h.elem * resultElem h.cop h.elem h.raw
      askAccess { fn := f, key := r.desc.remoteKey, va := va, len := data.length, right := .localWrite, sq := r.sq,
                  cont := .collPlace tree r.opn i data flags } d

/-- Send one result chunk down a port, or hold it for that child's credit (R212). -/
def sendDownTo (tree : Nat) (t : TreeWords) (c : Contrib) (p : Nat) (d : Dev) : Dev :=
  let x := getNode d tree
  match x.op with
  | none => d
  | some o =>
    if c.chunk < max t.depth ((tget o.downLimits p).getD 0) then
      sendTree p { hdrPkt tree x.opn o.hdr ptTreeDown with
        flags := c.flags &&& 0x1F, chunk := BitVec.ofNat 32 c.chunk, payload := c.data } t.domain (opEpoch d tree) d
    else updOpn tree (fun o => { o with downHeld := o.downHeld ++ [(p, c)] }) d

/-- Hand a result chunk to every child (R214). -/
def giveDown (tree : Nat) (t : TreeWords) (h : CollHdr) (c : Contrib) (d : Dev) : Dev :=
  let d1 := updOpn tree (fun o => { o with downNext := max o.downNext (c.chunk + 1) }) d
  let d2 := t.fabricChildren.foldl (fun d p => sendDownTo tree t c p d) d1
  t.hostChildren.foldl (fun d n => giveMember tree t h c.chunk c.flags c.data n d) d2

/-- Chunk i is forwarded to every child and placed at every member (R212). -/
def chunkSettled (d : Dev) (tree : Nat) (t : TreeWords) (o : TreeOp) (i : Nat) : Bool :=
  decide (i < o.downNext) && !(o.downHeld.any fun x => x.2.chunk == i)
  && t.hostChildren.all fun n => match collOf d (memberFn t n) tree with
      | some r => r.placed.contains i
      | none => true

/-- Send DOWN_CREDIT for what has been forwarded and placed, and the acknowledgement or TREE_DONE once every child has
acknowledged (R212, R215). -/
def downProgress (tree : Nat) (t : TreeWords) (d : Dev) : Dev :=
  let x := getNode d tree
  match x.op, x.op.bind (·.hdr) with
  | some o, some h =>
    let base := o.downCredited - t.depth
    let k := ((List.range (o.downNext - base)).takeWhile fun j => chunkSettled d tree t o (base + j)).length
    let lim := base + k + t.depth
    let d1 :=
      if t.role = 2 ∧ 0 < k ∧ lim < nChunks h + t.depth + 1 then
        updOpn tree (fun o => { o with downCredited := lim })
          (sendTree t.parent { hdrPkt tree x.opn o.hdr ptDownCredit with chunk := BitVec.ofNat 32 lim } t.domain o.epoch d)
      else d
    if 0 < nChunks h && t.children.all (o.acked.contains ·) && !o.ackSent then
      if t.role = 1 then endDone tree t d1
      else updOpn tree (fun o => { o with ackSent := true })
        (sendTree t.parent (hdrPkt tree x.opn o.hdr ptTreeAck) t.domain o.epoch d1)
    else d1
  | _, _ => d

/-- Combine the next chunk if every child has contributed (R213 to R217). -/
def combineNext (tree : Nat) (t : TreeWords) (d : Dev) : Bool × Dev :=
  let x := getNode d tree
  match x.op, x.op.bind (·.hdr) with
  | some o, some h =>
    let total := nChunks h
    if total = 0 then
      match gather o t 0 with
      | none => (false, d)
      | some cs =>
        if o.upNext ≠ 0 then (false, d)
        else if t.role = 1 then (false, endDone tree t d)
        else
          (false, sendUp tree t { chunk := 0, null := true, epoch := (cs.head?.map (·.epoch)).getD o.epoch }
            (updOpn tree (fun o => { o with upNext := 1 }) d))
    else if total ≤ o.upNext then (false, d)
    else
      match gather o t o.upNext with
      | none => (false, d)
      | some cs =>
        let i := o.upNext
        let epoch := (cs.head?.map (·.epoch)).getD o.epoch
        if twoSources h cs then (false, endOp tree .treeFault true 64 d)
        else if cs.all (·.null) then
          if t.role = 1 then (false, endOp tree .treeFault true 64 d)
          else if cs.all fun c => c.chunk == 0xFFFFFFFF then
            (false, sendUp tree t { chunk := 0xFFFFFFFF, null := true, epoch := epoch }
              (updOpn tree (fun o => { o with upNext := total }) d))
          else (true, passUp tree t h { chunk := i, null := true, epoch := epoch }
            (updOpn tree (fun o => { o with upNext := i + 1, contribs := o.contribs.filter fun c => c.chunk != i }) d))
        else
          let acc := { combineAll h cs with chunk := i, epoch := epoch }
          let d0 := occur { ev := 0x10, op := some 8, vc := some 16 } d
          let d1 := updOpn tree (fun o => { o with upNext := i + 1, contribs := o.contribs.filter fun c => c.chunk != i }) d0
          if t.role = 1 then
            let r := resultForm h.cop h.elem h.scale h.raw acc.data
            (true, freeChunk tree t h i (giveDown tree t h { acc with data := r.1, flags := acc.flags ||| BitVec.ofNat 8 r.2 } d1))
          else (true, passUp tree t h acc d1)
  | _, _ => (false, d)

/-- Combine while chunks are complete; fuel bounds the chunks of one run. -/
def combineRun (tree : Nat) (t : TreeWords) : Nat → Dev → Dev
  | 0, d => d
  | fuel + 1, d =>
    let r := combineNext tree t d
    if r.1 then combineRun tree t fuel r.2 else r.2

/-- The fields of an entry, without its reserved bits (R12, R195). -/
def TreeWords.fields (t : TreeWords) : Word64 × Word64 × Word64 :=
  (t.w0 &&& 0x0000FFFF003F07FF, t.w1, t.w2 &&& 0x000000FFFFFFFF0F)

/-- Entries of the two banks are equal in every field (R232). -/
def banksEqual (d : Dev) (tree : Nat) : Bool := (treeEntry d false tree).fields = (treeEntry d true tree).fields

/-- Bind the current operation to an epoch that a packet of it carried (R232). -/
def bindAny (tree : Nat) (e : Bool) (d : Dev) : Dev :=
  let x := getNode d tree
  match x.op with
  | none => setNode tree { x with op := some { bindA := !e, bindB := e, epoch := e } } d
  | some _ => updOpn tree (fun o => if e then { o with bindB := true } else { o with bindA := true }) d

/-- Bind the current operation to a contribution's epoch; contributions of both epochs are allowed only where both banks'
entries are equal (R232). -/
def bindEpoch (tree : Nat) (e : Bool) (d : Dev) : Bool × Dev :=
  let other := match (getNode d tree).op with | some o => if e then o.contA else o.contB | none => false
  if other && !banksEqual d tree then (false, d)
  else (true, updOpn tree (fun o => if e then { o with contB := true } else { o with contA := true }) (bindAny tree e d))

/-- Take a contribution into the current operation (R206, R213, R217). -/
def takeContrib (tree : Nat) (t : TreeWords) (h : CollHdr) (c : Contrib) (d : Dev) : Dev :=
  let b := bindEpoch tree c.epoch d
  if !b.1 then endOpBy [(t, c.epoch)] tree .treeFault true 64 b.2
  else
    match (getNode b.2 tree).op with
    | none => b.2
    | some o =>
      if (match o.hdr with | some h0 => h0 != h | none => false) then endOp tree .treeFault true 64 b.2
      else if secondSource h o c then endOp tree .treeFault true 64 b.2
      else
        let o1 := { o with hdr := some h }
        let o2 := if c.null && (c.chunk == 0xFFFFFFFF || h.count == 0) then { o1 with nulls := o1.nulls ++ [c] }
                  else { o1 with contribs := o1.contribs ++ [c] }
        downProgress tree t (combineRun tree t 4096 (updOpn tree (fun _ => o2) b.2))

/-! ### A member starts and fails (R205, R228, R229) -/

/-- The header a descriptor gives (R206). -/
def descHdr (e : Desc) : CollHdr :=
  { cop := e.cop, elem := e.elemType, count := e.length, scale := e.scale, raw := e.raw256 }

/-- A member's COLL leaves its wait: it takes its OPN and contributes (R205, R217, R228, R232). (DEDUCED, log entry 71) -/
def beginColl (tree : Nat) (r : CollReq) (d : Dev) : Dev :=
  let x := getFn d r.fn
  match tget x.trees tree with
  | none => d
  | some m =>
    let opn := m.started % 65536
    let e := d.rt.stamp
    let r1 := { r with opn := opn, epoch := e }
    let d1 := tally r.fn 3 1
      (setFn r.fn { x with trees := tput x.trees tree { m with started := (m.started + 1) % 65536, cur := some r1 } } d)
    let node := getNode d tree
    if node.opn ≠ opn then
      match tget node.ended opn with
      | some (s, mm) => completeColl tree r1 (if s = .success then .treeFault else s) mm d1
      | none => completeColl tree r1 .treeFault true (endOp tree .treeFault true 64 d1)
    else
    match entryFor d1 tree e with
    | none => endOp tree .treeFault false 64 (completeColl tree r1 .treeFault false d1)
    | some t =>
      if d.tre.failed.testBit t.tu then endOpBy [(t, e)] tree .treeFault false 64 d1
      else
        let h := descHdr r.desc
        if h.count = 0 then
          takeContrib tree t h { child := 64 + r.fn.port.val, chunk := 0, null := true, epoch := e } d1
        else if r.desc.localKey = 0 then
          takeContrib tree t h { child := 64 + r.fn.port.val, chunk := 0xFFFFFFFF, null := true, epoch := e } d1
        else
          let b := bindEpoch tree e d1
          if !b.1 then endOpBy [(t, e)] tree .treeFault true 64 b.2
          else
            match (getNode b.2 tree).op with
            | none => b.2
            | some o =>
              if (match o.hdr with | some h0 => h0 != h | none => false) then endOp tree .treeFault true 64 b.2
              else askContribs tree r.fn h t.depth 64 (updOpn tree (fun o => { o with hdr := some h }) b.2)

/-- Start the COLLs that waited for operations now ended (R205). -/
def startWaiting (f : FnId) (tree : Nat) (d : Dev) : Dev :=
  let x := getFn d f
  match tget x.trees tree with
  | none => d
  | some m =>
    match m.cur, m.waitQ with
    | none, r :: rest => beginColl tree r (setFn f { x with trees := tput x.trees tree { m with waitQ := rest } } d)
    | _, _ => d

/-- A member's own read or placement fails: it completes with that status, and its node ends the operation for everyone
else (R229). -/
def memberFails (tree : Nat) (f : FnId) (s : Status) (d : Dev) : Dev :=
  match collOf d f tree with
  | none => d
  | some r => endOp tree .treeFault false 64 (completeColl tree r s false d)

/-- The COLL in progress of a member, where it is the operation of this number: what comes late for one that has ended is dropped
(R213, R215, R229). -/
def collNow (d : Dev) (f : FnId) (tree opn : Nat) : Option CollReq := (collOf d f tree).filter fun r => r.opn == opn

/-- A read or placement made for an operation of a member fails. -/
def memberFailsIn (tree opn : Nat) (f : FnId) (s : Status) (d : Dev) : Dev :=
  if (collNow d f tree opn).isSome then memberFails tree f s d else d

/-- A member's chunk has been read: converted at the leaf and contributed (R213, R222). -/
def contribRead (tree opn : Nat) (f : FnId) (i : Nat) (data : List Byte) (d : Dev) : Dev :=
  match collNow d f tree opn with
  | none => d
  | some r =>
    let h := descHdr r.desc
    let v := leafForm h.cop h.elem h.scale data
    takeContrib tree (opEntry d tree) h
      { child := 64 + f.port.val, chunk := i, flags := BitVec.ofNat 8 v.2, epoch := r.epoch, data := v.1 } d

/-- A result chunk has been placed at a member (R215). -/
def collPlaced (tree opn : Nat) (f : FnId) (i n : Nat) (flags : Byte) (d : Dev) : Dev :=
  match collNow d f tree opn with
  | none => d
  | some r =>
    let d1 := updColl f tree (fun r => { r with placed := r.placed ++ [i], bytes := r.bytes + n, flags := r.flags ||| flags }) d
    downProgress tree (opEntry d1 tree) (memberDone tree f.port.val f (nChunks (descHdr r.desc)) d1)

/-! ### Arrival of tree packets (R198, R212, R228) -/

/-- Count a discard and answer it with TREE_ABORT carrying TREE_FAULT, unless it is one itself; on a port of the tree it ends
the operation in progress (R198, R229). The answer carries the packet's own DOMAIN. (DESIGN CHOICE, log entry 159) -/
def treeDiscard (port : Nat) (p : TreePkt) (d : Dev) : Dev :=
  let d1 := { d with tre := { d.tre with discards := d.tre.discards.add 1 } }
  let d2 := if p.ptype = ptTreeAbort then d1
    else answerTree port p (abortPkt p.tree.toNat p.opn.toNat .treeFault false) p.rh.domain d1
  if (opEntries d p.tree.toNat).any fun t => t.1.onEdge port then endIfRunning p.tree.toNat .treeFault d2 else d2

/-- An operation number is behind the node's current one: by less than half the range of 16 bits. (DESIGN CHOICE, log entry
157) -/
def opnBehind (node opn : Nat) : Bool := decide (0 < (node + 65536 - opn) % 65536 ∧ (node + 65536 - opn) % 65536 < 32768)

/-- The header a packet carries. -/
def pktHdr (p : TreePkt) : CollHdr :=
  { cop := p.cop.toNat, elem := p.elem.toNat, count := p.count.toNat, scale := p.scale.toInt, raw := p.raw256 }

/-- Whether a packet of this type comes up from a child. -/
def upward (p : TreePkt) : Bool := p.ptype = ptTreeUp || p.ptype = ptDownCredit || p.ptype = ptTreeAck

/-- The checks every arriving tree packet meets (R198, R208, R228); past them, `act` handles it under its entry. On a tree whose
unit has failed, an operation ends as soon as a packet of it comes, and any other packet is answered (R231).
(DEDUCED, log entry 72) -/
def treeArrive (port : Nat) (p : TreePkt) (act : TreeWords → Dev → Dev) (d : Dev) : Dev :=
  let tree := p.tree.toNat
  if treeCrc p ≠ p.crc then { d with tre := { d.tre with discards := d.tre.discards.add 1 } }
  else
    match entryFor d tree p.rh.epoch with
    | none => treeDiscard port p d
    | some t =>
      if p.rh.domain ≠ t.domain then report (srcCheck port) .contained caDomain 0 0 1 d
      else if p.ptype = ptTreeAbort then act t d
      else if (if upward p then !t.childFabric port else t.role != 2 || t.parent != port) then treeDiscard port p d
      else
        let node := getNode d tree
        if d.tre.failed.testBit t.tu then
          if node.opn = p.opn.toNat then endOpBy [(t, p.rh.epoch)] tree .treeFault false 64 d
          else answerTree port p (abortPkt tree p.opn.toNat .treeFault false) t.domain d
        else if node.opn = p.opn.toNat then act t d
        else if opnBehind node.opn p.opn.toNat then
          if p.ptype = ptTreeUp || p.ptype = ptTreeAck then
            let s := match tget node.ended p.opn.toNat with
              | some (s, _) => if s = .success then .treeFault else s
              | none => .treeFault
            answerTree port p (abortPkt tree p.opn.toNat s false) t.domain d
          else d
        else endOpBy [(t, p.rh.epoch)] tree .treeFault true 64 d

end Sys2Proof.Machine
end

