-- ==== Sys2Proof/Machine/Settle.lean ====
section
/-!
DEFINITION. What an access does once it is translated, once it fails and once it traps; host reads and their answers;
and the loop that runs every access a command has asked for.
-/
namespace Sys2Proof.Machine

open Sys2Proof

/-! ### DMA -/

/-- The half a submission queue's DMA goes through (R45). -/
def sqLink (d : Dev) (f : FnId) (sq : Nat) : Bool := ((tget (getFn d f).sqs sq).map (·.link)).getD false

/-- The half a connection's DMA goes through: that of its completion queue (R45, R112). -/
def connLink (d : Dev) (n : Nat) : Bool :=
  match getConn d n with
  | some c => ((tget (getFn d c.fn).cqs c.cq).map (·.link)).getD false
  | none => false

/-- Write bytes over host address ranges. (DESIGN CHOICE, log entry 60) -/
def writeSegs (f : FnId) (half relaxed : Bool) : List (Nat × Nat) → List Byte → Dev → Dev
  | [], _, d => d
  | (a, n) :: rest, bs, d => writeSegs f half relaxed rest (bs.drop n) (hostWrite f half a (bs.take n) relaxed d)

/-- Issue the host read of a translated access. -/
def issueRead (a : Access) (half : Bool) (d : Dev) : Dev :=
  if dmaStopped d a.fn then d
  else
    let id := d.xpt.nextId
    emit (.hostRead id a.fn.port half a.segs)
      { d with xpt := { d.xpt with
          nextId := id + 1
          reads := d.xpt.reads ++ [{ id := id, fn := a.fn, half := half, addr := (a.segs.head?.map (·.1)).getD 0,
                                     len := a.len, why := .payload a }] } }

/-- Another atomic on the same word has its read outstanding, or its write is not yet acknowledged (R126, R188). -/
def wordLocked (d : Dev) (a : Access) : Bool :=
  d.xpt.atomWrites.any (fun w => w.fn.port = a.fn.port && w.segs == a.segs) || d.xpt.reads.any fun r => match r.why with
    | .payload b => (match b.cont with | .atomRead _ _ => b.segs == a.segs | _ => false)
    | .walk _ => false

/-- A NOTE's own completion with a status (R127). -/
def endNote (f : FnId) (sq : Nat) (cnt : Word32) (e : Desc) (s : Status) (d : Dev) : Dev :=
  endWork f sq cnt (((tget (getFn d f).sqs sq).map (·.cq)).getD 0) e.signal
    { userCtx := e.userCtx, status := s, opcode := 0x07, queue := BitVec.ofNat 16 sq,
      len := if s = .success then BitVec.ofNat 32 e.length else 0 } d

/-- The operation a local access is made for: its function, submission queue and ring count. -/
def accOp (d : Dev) (a : Access) : Option (FnId × Nat × Word32) :=
  let ofOp := fun (o : Op) => if o.serves.isSome then none else some (o.fn, o.sq, o.cnt)
  match a.cont with
  | .txPayload n q => ((getConn d n).bind fun c => opOf c q).bind ofOp
  | .noteRead sq cnt _ => some (a.fn, sq, cnt)
  | .getPlace n msn _ _ _ | .atomResult n msn _ =>
    ((getConn d n).bind fun c => c.ops.find? fun o => o.msn == msn && o.npk != 0).bind ofOp
  | .collRead tree opn _ | .collPlace tree opn _ _ _ => (collNow d a.fn tree opn).map fun r => (r.fn, r.sq, r.cnt)
  | .place .. | .getRead .. | .dupRead .. | .atomRead .. | .copy .. | .notePlace .. => none

/-- Stage 3: the operation's last local translation so far (R471). -/
def tagTranslated (a : Access) (d : Dev) : Dev :=
  match accOp d a with
  | some (f, sq, cnt) => tagStage f sq cnt 3 false d
  | none => d

/-- The part of a list of address ranges that holds n bytes from byte off. -/
def segsPart : Nat → Nat → List (Nat × Nat) → List (Nat × Nat)
  | _, _, [] => []
  | off, n, (a, l) :: rest =>
    let k := min n (l - off)
    if k = 0 then segsPart (off - l) n rest else (a + off, k) :: segsPart 0 (n - k) rest

/-- Issue a GET's reads at its target, one GET_RESP's worth each (R123, R125); fuel is their number. -/
def readChunks (n : Nat) (p : Packet) (a : Access) : Nat → Nat → Dev → Dev
  | 0, _, d => d
  | fuel + 1, off, d =>
    if a.len ≤ off then d
    else
      let len := min (4096 - (a.va + off) % 4096) (a.len - off)
      readChunks n p a fuel (off + len)
        (issueRead { a with va := a.va + off, len := len, pos := len, segs := segsPart off len a.segs, cont := .getRead n p off }
          (connLink d n) d)

/-- A receive has ended, or is to end with a failure: what still comes for it is discarded (R177). -/
def MsgRec.ended (r : MsgRec) : Bool := r.closed || r.fail.isSome

/-- Staged bytes that are not to be copied any more (R177). -/
def endCopy (id : Nat) (d : Dev) : Dev := settleMsg id (updMsg id (fun r => { r with copying := r.copying - 1 }) d)

/-- A translated access goes on (R124 to R127, R132, R177, R213, R214). -/
def finishAccess (a : Access) (d : Dev) : Dev :=
  match a.cont with
  | .txPayload _ _ => issueRead a (sqLink d a.fn a.sq) d
  | .noteRead sq _ _ => issueRead a (sqLink d a.fn sq) d
  | .place n p =>
    let flag := p.ptype = ptPutFlag
    if p.ptype = ptSend && (msgOf d n p.msn).all (·.ended) then
      afterExec n false (match msgOf d n p.msn with
        | some r => settleMsg r.id (updMsg r.id (fun r => { r with arrived := r.arrived + p.payload.length }) (markExec n p.psn d))
        | none => markExec n p.psn d)
    else
    let d1 := writeSegs a.fn (connLink d n) (!(p.rh.det || flag)) a.segs (p.payload.take a.len) d
    let d2 := markExec n p.psn d1
    if p.ptype = ptSend then
      match msgOf d2 n p.msn with
      | none => afterExec n false d2
      | some r =>
        afterExec n false (settleMsg r.id (updMsg r.id (fun r =>
          { r with arrived := r.arrived + p.payload.length, placed := r.placed + a.len }) d2))
    else
      match getConn d2 n with
      | none => d2
      | some c => afterExec n flag (if flag then notifyFlag n c p d2 else d2)
  | .getRead n p _ => afterExec n false (markExec n p.psn (readChunks n p a (a.len / 4096 + 2) 0 d))
  | .dupRead n p => readChunks n p a (a.len / 4096 + 2) 0 d
  | .atomRead n _ =>
    if wordLocked d a then { d with xpt := { d.xpt with atomWait := d.xpt.atomWait ++ [a] } }
    else issueRead a (connLink d n) d
  | .getPlace n msn off data det =>
    let d1 := writeSegs a.fn (sqLink d a.fn a.sq) (!det) a.segs data d
    retire n (updConn n (updOp msn fun o =>
      { o with placing := o.placing - 1,
               got := tput o.got off (max data.length ((tget o.got off).getD 0)) }) d1)
  | .atomResult n msn val =>
    let d1 := writeSegs a.fn (sqLink d a.fn a.sq) false a.segs (leBytes 8 val.toNat) d
    retire n (pump pumpFuel n (updConn n (updOp msn fun o => { o with resp := true }) d1))
  | .copy id _ data det =>
    if (getMsg d id).all (·.ended) then endCopy id d
    else
    let d1 := writeSegs a.fn (sqLink d a.fn a.sq) (!det) a.segs data d
    updMsg id (fun r => { r with issued := r.issued + 1, placed := r.placed + data.length }) d1
  | .notePlace id data =>
    if (getMsg d id).any (·.ended) then settleMsg id (updMsg id (fun r => { r with arrived := r.len }) d)
    else
    let d1 := writeSegs a.fn (sqLink d a.fn a.sq) true a.segs data d
    settleMsg id (updMsg id (fun r => { r with arrived := r.len, placed := r.placed + data.length }) d1)
  | .collRead tree opn _ => if (collNow d a.fn tree opn).isSome then issueRead a (sqLink d a.fn a.sq) d else d
  | .collPlace tree opn i data flags =>
    if (collNow d a.fn tree opn).isNone then d
    else collPlaced tree opn a.fn i data.length flags (writeSegs a.fn (sqLink d a.fn a.sq) false a.segs data d)

/-- A remote packet is refused with ACCESS_NAK and loses its mark (R145). -/
def refuseRemote (n : Nat) (p : Packet) (d : Dev) : Dev := sendAccessNak n p.psn (unmark n p.psn d)

/-- An access fails with a status (R89, R99, R145, R146, R177, R229). -/
def failAccess (s : Status) (a : Access) (d : Dev) : Dev :=
  match a.cont with
  | .txPayload n q => payloadFailed n q s d
  | .noteRead sq cnt e => endNote a.fn sq cnt e s d
  | .place n p =>
    if p.ptype = ptSend then
      match msgOf d n p.msn with
      | none => afterExec n false (markExec n p.psn d)
      | some r =>
        afterExec n false (settleMsg r.id (updMsg r.id (fun r =>
          { r with arrived := r.arrived + p.payload.length, fail := some (r.fail.getD s) }) (markExec n p.psn d)))
    else refuseRemote n p d
  | .getRead n p _ => refuseRemote n p d
  | .dupRead n p => sendAccessNak n p.psn d
  | .atomRead n p => refuseRemote n p d
  | .getPlace n msn _ _ _ => failOp n msn s (updConn n (updOp msn fun o => { o with placing := o.placing - 1 }) d)
  | .atomResult n msn _ => failOp n msn s d
  | .copy id _ _ _ =>
    settleMsg id (updMsg id (fun r => { r with copying := r.copying - 1, fail := some (r.fail.getD s) }) d)
  | .notePlace id _ => settleMsg id (updMsg id (fun r => { r with arrived := r.len, fail := some (r.fail.getD s) }) d)
  | .collRead tree opn _ | .collPlace tree opn _ _ _ => memberFailsIn tree opn a.fn s d

/-- Put a posted entry back in its place in POST_SEQ order (R177). -/
def restorePosted (p : Posted) : List Posted → List Posted
  | [] => [p]
  | q :: qs => if p.seq < q.seq then p :: q :: qs else q :: restorePosted p qs

/-- A suspended access fails: a trapped response no longer waits for its slot (R91, R105, R107). -/
def failSuspended (s : Status) (a : Access) (d : Dev) : Dev :=
  match a.cont with
  | .getPlace n msn _ _ _ => failOp n msn s (updConn n (fun c => { c with respTraps := c.respTraps.erase msn }) d)
  | .atomResult n msn _ => failOp n msn s (updConn n (fun c => { c with respTraps := c.respTraps.erase msn }) d)
  | _ => failAccess s a d

/-- A NOTE matched on arrival whose page traps: kept in pool blocks, or dropped with the entry restored (R177). -/
def trapNote (id : Nat) (data : List Byte) (a : Access) (level page : Nat) (dirty : Bool) (d : Dev) : Dev :=
  match getMsg d id with
  | none => d
  | some r =>
    match r.recv, getMctx d r.mctx with
    | some p, some x =>
      if canBlocks d r.mctx x (blocksFor false r.len) then
        let at_ := takeFree d
        trapAccess { a with cont := .copy id 0 data false } level page dirty
          (updMsg id (fun r => { r with arrived := r.len, copying := 1, blocks := blocksFor false r.len, blockAt := at_.1 }) at_.2)
      else
        let d1 := dropMsg id (setMctx r.mctx { x with posted := restorePosted p x.posted } d)
        announceTrap a level page dirty { d1 with mtc := { d1.mtc with noteDrop := d1.mtc.noteDrop.add 1 } }
    | _, _ => d

/-- A discarded response waits for a slot (R105, R141). -/
def waitResp (n : Nat) (msn : Psn) (a : Access) (level page : Nat) (dirty : Bool) (d : Dev) : Dev :=
  if respWaits d a level page dirty then d
  else updConn n (fun c => { c with respTraps := c.respTraps ++ [msn] }) (trapAccess a level page dirty d)

/-- An access meets a missing mark (R104, R105, R141, R177). -/
def trapped (a : Access) (level page : Nat) (dirty : Bool) (d : Dev) : Dev :=
  let d1 := trapAccess a level page dirty d
  match a.cont with
  | .txPayload n _ =>
    updConn n (fun c => match c.reading with
      | some (_, true) => { c with stopped := true, reading := none }
      | _ => c) d1
  | .place n p => sendRnr n .mark (unmark n p.psn d1)
  | .getRead n p _ => sendRnr n .mark (unmark n p.psn d1)
  | .dupRead n _ => sendRnr n .mark d1
  | .atomRead n p => sendRnr n .mark (unmark n p.psn d1)
  | .getPlace n msn _ _ _ =>
    waitResp n msn a level page dirty (updConn n (updOp msn fun o => { o with placing := o.placing - 1 }) d)
  | .atomResult n msn _ => waitResp n msn a level page dirty d
  | .notePlace id data => trapNote id data a level page dirty d
  | .noteRead _ _ _ | .copy _ _ _ _ | .collRead _ _ _ | .collPlace _ _ _ _ _ => d1

/-- Send the request of an operation again at once, without counting a loss (R105, R141). -/
def resendRequest (n : Nat) (msn : Psn) (d : Dev) : Dev :=
  match getConn d n with
  | none => d
  | some c =>
    match c.ops.find? (fun o => o.msn == msn && o.npk != 0) with
    | none => setConn n { c with respTraps := c.respTraps.erase msn } d
    | some o => retire n (pump pumpFuel n (setConn n { c with
        respTraps := c.respTraps.erase msn, resendQ := o.psn0 :: c.resendQ } d))

/-- A suspended access whose slot is released with ABORT = 0 (R105, R107, R141). -/
def resumeAccess (a : Access) (d : Dev) : Dev :=
  match a.cont with
  | .getPlace n msn _ _ _ => resendRequest n msn d
  | .atomResult n msn _ => resendRequest n msn d
  | .txPayload n q =>
    askAccess a (updConn n (fun c => if c.stopped then { c with stopped := false, reading := some (q, true) } else c) d)
  | _ => askAccess a d

/-- A suspended access whose slot is released with ABORT = 1 (R107). -/
def abortAccess (a : Access) (d : Dev) : Dev := failSuspended .accessDenied a d

/-- The slot of the context an access is made for (R187). -/
def accSlot (d : Dev) (a : Access) : Option Nat :=
  match a.cont with
  | .txPayload n _ | .place n _ | .getRead n _ _ | .dupRead n _ | .atomRead n _ | .getPlace n _ _ _ _ | .atomResult n _ _ => some (connSlot n)
  | .copy id _ _ _ | .notePlace id _ => (getMsg d id).map fun r => mctxSlot r.mctx
  | .noteRead .. | .collRead .. | .collPlace .. => none

/-- The access is for a context whose slot is fenced: its sender holds what it would send the engine (R189, R190). -/
def accHeld (d : Dev) (a : Access) : Bool := match accSlot d a with | some s => slotGrafting d s | none => false

/-- Hold an access until the graft is done; it is made afresh then (R189). -/
def holdAccess (a : Access) (d : Dev) : Dev := { d with xl := { d.xl with heldAcc := d.xl.heldAcc ++ [a.afresh] } }

/-- The access an answer of the translation is about. -/
def XRes.acc : XRes → Option Access
  | .done a | .fail _ a | .trap a _ _ _ | .again a => some a
  | .wait => none

/-- What one turn of an access leads to; for a fenced slot's context it is held (R189). -/
def applyRes (r : XRes × Dev) : Dev :=
  match r.1.acc.filter (accHeld r.2) with
  | some a => holdAccess a r.2
  | none =>
  match r.1 with
  | .done a => finishAccess a (tagTranslated a r.2)
  | .fail s a => failAccess s a r.2
  | .trap a l p m => trapped a l p m r.2
  | .wait => r.2
  | .again a => { r.2 with xl := { r.2.xl with todo := a :: r.2.xl.todo } }

/-- A member whose COLL waits and whose tree is free (R205). -/
def waitingMember (d : Dev) : Option (FnId × Nat) :=
  d.fns.findSome? fun e =>
    (e.2.trees.find? fun m => m.2.cur.isNone && !m.2.waitQ.isEmpty).map fun m => (fnOfKey e.1, m.1)

/-- A context to be written out next for a function that is being parked: none of it is being written out or fetched, and no
packet for it is in execution (R154, R156); one of the function's contexts at a time. (DESIGN CHOICE, log entry 142) -/
def parkNext (d : Dev) : Option Nat :=
  (d.xpt.conns.find? fun e =>
    decide ((getFn d e.2.fn).park = .parking) && e.2.st = .active && !inWriting d e.1 && !d.xpt.fetching.contains e.1
    && !executing d e.1
    && !(d.xpt.writing.any fun w => w.2 && (match getConn d w.1 with | some c => decide (c.fn = e.2.fn) | none => false))).map (·.1)

/-- Its write-out begins. -/
def parkStart (n : Nat) (d : Dev) : Dev :=
  { d with xpt := { d.xpt with onDie := d.xpt.onDie.filter (· != n), writing := d.xpt.writing ++ [(n, true)] } }

/-- A connection with something it may send: a source window or an engine has become free (R190, R253). -/
def waitingConn (d : Dev) : Option Nat := (d.xpt.conns.find? fun e => canGo d e.1 e.2).map (·.1)

/-- A port has left UP: the trees that use it as parent or child end their operations with TREE_FAULT (R229). -/
def endTreesOn (p : Nat) (d : Dev) : Dev :=
  d.tre.nodes.foldl (fun d e =>
    if (opEntries d e.1).any fun t => t.1.onEdge p then endIfRunning e.1 .treeFault d else d) d

/-- Run every access a command has asked for, and what their ends lead to; fuel bounds the turns of one command, and
what is left is taken up by the next. -/
def settle : Nat → Dev → Dev
  | 0, d => d
  | fuel + 1, d =>
    match d.xl.todo with
    | a :: rest => settle fuel (applyRes (turn a { d with xl := { d.xl with todo := rest } }))
    | [] =>
      match d.mtc.ended with
      | (r, s) :: rest => settle fuel (pullEnded r s { d with mtc := { d.mtc with ended := rest } })
      | [] =>
        match d.tre.downPorts with
        | p :: rest => settle fuel (endTreesOn p { d with tre := { d.tre with downPorts := rest } })
        | [] =>
          match waitingMember d with
          | some (f, t) => settle fuel (startWaiting f t d)
          | none =>
            match waitingConn d with
            | some n => settle fuel (retire n (pump pumpFuel n d))
            | none =>
              match parkNext d with
              | some n => settle fuel (parkStart n d)
              | none => d

/-- Turns of one command. (DESIGN CHOICE, log entry 14) -/
def settleFuel : Nat := 100000

/-! ### Answers to host reads -/

/-- Take an outstanding read off the list. -/
def takeRead (id : Nat) (d : Dev) : Option (ReadReq × Dev) :=
  match d.xpt.reads.find? (fun r => r.id == id) with
  | none => none
  | some r => some (r, { d with xpt := { d.xpt with reads := d.xpt.reads.filter fun r => r.id != id } })

/-- Take a walk off the list. -/
def takeWalk (id : Nat) (d : Dev) : Option (Walk × Dev) :=
  match d.xl.walks.find? (fun w => w.id == id) with
  | none => none
  | some w => some (w, { d with xl := { d.xl with walks := d.xl.walks.filter fun w => w.id != id } })

/-- Send a GET_RESP for the bytes read at an offset (R123, R125). -/
def sendGetResp (n : Nat) (p : Packet) (off : Nat) (data : List Byte) (void : Bool) (d : Dev) : Dev :=
  match getConn d n with
  | none => d
  | some c =>
    let total := p.aux.toNat
    let r := sealPkt
      { rh := { dest := c.peer, src := selfEp d c.fn, epoch := d.rt.stamp, resp := true,
                det := c.strict, domain := (getFn d c.fn).domain, tc := c.tc }
        ptype := ptGetResp, conn := c.peerConn, psn := p.psn
        first := void || off == 0, last := void || decide (total ≤ off + data.length)
        void := void, msn := p.msn, offset := BitVec.ofNat 32 (if void then 0 else off), va := p.va, key := p.key
        payload := if void then [] else data }
    queueRoute (.data r) (occSent c.fn r d)

/-- The new value of an ATOMIC, where it writes one (R126). -/
def atomicNew (aop : Nat) (old operand compare : Word64) : Option Word64 :=
  match aop with
  | 0 => some (old + operand)
  | 1 => some operand
  | _ => if old = compare then some operand else none

/-- Keep the 16 executed atomics with the highest PSNs, in PSN order relative to BASE (R126), each with its prior value and the
value the word holds after it (R188). -/
def cacheAtomic (base : Psn) (x : Psn × Word64 × Word64) (l : List (Psn × Word64 × Word64)) : List (Psn × Word64 × Word64) :=
  let off : Psn := 0x800000#24 - base
  let l1 := (l.filter fun y => y.1 != x.1) ++ [x]
  let s := l1.mergeSort fun a b => decide ((a.1 + off).toNat ≤ (b.1 + off).toNat)
  s.drop (s.length - 16)

/-- Ask again for atomics that waited for a word (R126). -/
def wakeAtomics (d : Dev) : Dev :=
  { d with
    xl := { d.xl with todo := d.xl.todo ++ d.xpt.atomWait.map (·.afresh) }
    xpt := { d.xpt with atomWait := [] } }

/-- The write of an executed atomic is issued, and kept with its new value until it is acknowledged (R188). -/
def writeAtomic (w : AtomWrite) (d : Dev) : Dev :=
  writeSegs w.fn w.half false w.segs (leBytes 8 w.val.toNat) { d with xpt := { d.xpt with atomWrites := d.xpt.atomWrites ++ [w] } }

/-- The writes of atomics are acknowledged, but for those of a fenced slot; atomics that wait for a word ask again (R188, R190). -/
def ackAtomics (d : Dev) : Dev :=
  wakeAtomics { d with xpt := { d.xpt with atomWrites := d.xpt.atomWrites.filter fun w => slotGrafting d (connSlot w.conn) } }

/-- Writes of a slot's atomics recorded but not acknowledged are issued again, with the recorded new value (R190 step 4). -/
def reissueAtomics (slot : Nat) (d : Dev) : Dev :=
  (d.xpt.atomWrites.filter fun w => connSlot w.conn == slot).foldl
    (fun d w => writeSegs w.fn w.half false w.segs (leBytes 8 w.val.toNat) d) d

/-- Execute an ATOMIC on the word read (R126, R188): write or not, cache, answer. -/
def runAtomic (n : Nat) (p : Packet) (a : Access) (old : Word64) (d : Dev) : Dev :=
  match getConn d n with
  | none => wakeAtomics d
  | some c =>
    let aop := p.aux.toNat % 16
    let operand := BitVec.ofNat 64 (leNat (p.payload.take 8))
    let compare := BitVec.ofNat 64 (leNat ((p.payload.drop 8).take 8))
    let d1 := setConn n { c with atoms := cacheAtomic c.base (p.psn, old, (atomicNew aop old operand compare).getD old) c.atoms } d
    let d2 := match atomicNew aop old operand compare with
      | some v => writeAtomic { fn := a.fn, conn := n, psn := p.psn, half := connLink d n, segs := a.segs, val := v } d1
      | none => d1
    wakeAtomics (afterExec n false (answer c ntAtomicResp p.psn old 0 0 (markExec n p.psn d2)))

/-- The data of a read arrives. -/
def readGo (a : Access) (data : List Byte) (d : Dev) : Dev :=
  match a.cont with
  | .txPayload n q => payloadArrived n q data d
  | .noteRead sq cnt e =>
    submit (sqClass d a.fn sq)
      { fn := a.fn, note := some (sq, cnt, e)
        pkt := sealPkt
          { rh := { dest := e.dest, src := selfEp d a.fn, epoch := d.rt.stamp, domain := (getFn d a.fn).domain,
                    tc := BitVec.ofNat 3 (sqClass d a.fn sq) }
            ptype := ptNote, first := true, last := true, va := e.remoteVa, key := BitVec.ofNat 32 e.destMctx
            aux := BitVec.ofNat 32 e.length, payload := data } } d
  | .getRead n p off => sendGetResp n p off data false d
  | .atomRead n p => runAtomic n p a (BitVec.ofNat 64 (leNat data)) d
  | .collRead tree opn i => contribRead tree opn a.fn i data d
  | .dupRead .. | .place .. | .getPlace .. | .atomResult .. | .copy .. | .notePlace .. | .collPlace .. => d

/-- Hold the answer to a read until the graft is done (R189). -/
def holdRead (a : Access) (data : Option (List Byte)) (d : Dev) : Dev :=
  { d with xl := { d.xl with heldReads := d.xl.heldReads ++ [(a, data)] } }

/-- The access is the recorded unit's (R473). -/
def accRecorded (d : Dev) (a : Access) : Bool :=
  match a.cont with
  | .collRead tree .. => (opEntries d tree).any fun t => tuRecorded d t.1.tu
  | _ => match accSlot d a with | some s => slotRecorded d s | none => false

/-- The data of a read arrives; for a fenced slot's context it is held (R189). -/
def readDone (a : Access) (data : List Byte) (d : Dev) : Dev :=
  if accHeld d a then holdRead a (some data) d
  else readGo a data (if accRecorded d a then inkRead ((a.segs.head?.map (·.1)).getD 0) data d else d)

/-- A payload read fails (R83, R125, R126, R146, R229). -/
def payloadLost (a : Access) (d : Dev) : Dev :=
  match a.cont with
    | .txPayload n q => payloadFailed n q .hostDmaError d
    | .noteRead sq cnt e => endNote a.fn sq cnt e .hostDmaError d
    | .getRead n p off => sendGetResp n p off [] true d
    | .atomRead n p => wakeAtomics (refuseRemote n p d)
    | .collRead tree opn _ => memberFailsIn tree opn a.fn .hostDmaError d
    | .dupRead .. | .place .. | .getPlace .. | .atomResult .. | .copy .. | .notePlace .. | .collPlace .. => d

/-- A read fails (R83, R99). -/
def readFailed (r : ReadReq) (d : Dev) : Dev :=
  match r.why with
  | .walk id =>
    match takeWalk id d with
    | none => d
    | some (w, d1) => applyRes (.fail .walkError w.acc, d1)
  | .payload a => if accHeld d a then holdRead a none d else payloadLost a d

/-- What was held for a fenced slot goes on, in the order it was held (R189, R190 step 5). -/
def releaseHeld (s : Nat) (d : Dev) : Dev :=
  let mine := fun a => accSlot d a = some s
  let accs := d.xl.heldAcc.filter mine
  let reads := d.xl.heldReads.filter fun x => mine x.1
  let d1 : Dev := { d with
    xl := { d.xl with
      todo := d.xl.todo ++ accs
      heldAcc := d.xl.heldAcc.filter fun a => !mine a, heldReads := d.xl.heldReads.filter fun x => !mine x.1 } }
  reads.foldl (fun d x => match x.2 with | some b => readDone x.1 b d | none => payloadLost x.1 d) d1

end Sys2Proof.Machine
end

