-- ==== Sys2Proof/Machine/Start.lean ====
section
/-!
DEFINITION. What may start: work descriptors (R73, R77, R79) and admin commands (R58, R60); how entries of unknown
opcode end of themselves (R521, R523); and how a command's effect is run to its next wait.
-/
namespace Sys2Proof.Machine

open Sys2Proof

/-! ### What may start -/

/-- Fetching and starting descriptors is suspended for a function (R79, R81, R410): parked or being parked, fenced,
in a reset, or in a mode in which host queues do not run. -/
def fnSuspended (d : Dev) (f : FnId) : Bool :=
  !queuesRun d || (getFn d f).inFlr || decide ((getFn d f).park ≠ .no) || (getFn d f).fenced || !fnExists d f

/-- The connection a descriptor names, where the function owns it (R522). -/
def ownConn (d : Dev) (f : FnId) (e : Desc) : Option Conn :=
  match getConn d e.conn with
  | some c => if c.fn = f then some c else none
  | none => none

/-- An opcode that names a connection. -/
def usesConn (op : Nat) : Bool := decide (1 ≤ op ∧ op ≤ 5)

/-- The completion queue a descriptor is bound for: its connection's (R112), else its submission queue's (R62).
(DEDUCED, log entry 37) -/
def workCq (d : Dev) (f : FnId) (q : Sq) (e : Desc) : Nat :=
  if usesConn e.opcode then (match ownConn d f e with | some c => c.cq | none => q.cq) else q.cq

/-- Room for one more operation in flight towards a completion queue (R77). (DEDUCED, log entry 32) -/
def cqRoom (d : Dev) (f : FnId) (n : Nat) : Bool :=
  match tget (getFn d f).cqs n with
  | some q => decide (q.inflight < ringFree q.log2 q.w q.h + 64)
  | none => true

/-- The home slot of a descriptor's context is being grafted: the descriptor is held (R190). -/
def homeGrafting (d : Dev) (e : Desc) : Bool :=
  if usesConn e.opcode then slotGrafting d (connSlot e.conn)
  else if e.opcode = 0x06 then slotGrafting d (mctxSlot e.mctx)
  else false

/-- The unit of a descriptor is the one Inkwell records (R187, R200, R473). -/
def descRecorded (d : Dev) (e : Desc) : Bool :=
  if usesConn e.opcode then slotRecorded d (connSlot e.conn)
  else if e.opcode = 0x06 then slotRecorded d (mctxSlot e.mctx)
  else if e.opcode = 0x08 then (stampedEntry d e.tree).any fun t => tuRecorded d t.tu
  else false

/-- A checkpoint of the recorded unit holds the descriptor (R475). -/
def descHeld (d : Dev) (e : Desc) : Bool := inkHolds d && descRecorded d e

/-- The bytes of a descriptor (R72). -/
def descBytes (e : Desc) : List Byte := [e.w0, e.w1, e.w2, e.w3, e.w4, e.w5, e.w6, e.w7].flatMap fun w => leBytes 8 w.toNat

/-- A descriptor reaches its unit (R473). -/
def inkDesc (f : FnId) (sq : Nat) (cnt : Word32) (e : Desc) (d : Dev) : Dev :=
  if descRecorded d e then inkInput 0 (.work f sq cnt) (descBytes e) d else d

/-- The completion queue a submission queue is bound to is full: nothing new starts from it (R78 step 2). -/
def boundFull (d : Dev) (f : FnId) (q : Sq) : Bool := (tget (getFn d f).cqs q.cq).any cqFull

/-- The descriptor at the head of a submission queue may start now (R73, R77, R78, R79, R190, R475); in a halted queue too, whose fetched
list holds those before the bad one alone (R67). -/
def mayStart (d : Dev) (f : FnId) (sq : Nat) (e : Desc) : Option (Sq × Fetched) :=
  match tget (getFn d f).sqs sq with
  | none => none
  | some q =>
    match q.fetched with
    | [] => none
    | x :: _ =>
      if x.d = e ∧ !fnSuspended d f ∧ !boundFull d f q ∧ cqRoom d f (workCq d f q e) ∧ !homeGrafting d e ∧ !descHeld d e
          ∧ (e.opcode = 0x09 → q.inflight.isEmpty) then some (q, x)
      else none

/-- Start the head descriptor: it leaves the fetched list and is in flight (R73, R77). -/
def takeHead (f : FnId) (sq : Nat) (q : Sq) (x : Fetched) (cq : Nat) (d : Dev) : Dev :=
  cqReserve f cq (updFn f (fun y => { y with
    sqs := tput y.sqs sq { q with fetched := q.fetched.drop 1, inflight := q.inflight ++ [x] } }) d)

/-- What a started descriptor knows of itself. -/
structure Start where
  fn  : FnId := {}
  sq  : Nat := 0
  cls : Nat := 0
  cnt : Word32 := 0
  cq  : Nat := 0
  e   : Desc := {}
deriving DecidableEq, Repr

/-- Complete a started descriptor at once (R70, R524). -/
def endStart (s : Start) (st : Status) (len : Nat) (conn : Nat) (d : Dev) : Dev :=
  endWork s.fn s.sq s.cnt s.cq s.e.signal
    { userCtx := s.e.userCtx, len := if st = .success then BitVec.ofNat 32 len else 0, status := st
      opcode := BitVec.ofNat 8 s.e.opcode, queue := BitVec.ofNat 16 s.sq, conn := BitVec.ofNat 24 conn } d

/-! ### Admin commands (R58 to R60) -/

/-- The completion of an admin command (R59, R74). -/
def admCqe (e : Desc) (s : Status) (r r2 : Word64) : Cqe :=
  { userCtx := r, tag := r2, status := s, opcode := BitVec.ofNat 8 e.opcode, queue := e.cmdId }

/-- It is the turn of the command at the head of the admin ring: the previous one has written its completion (R58, R60). While block 1 is fenced for the function nothing new starts (R490), nor before boot has
ended. (DESIGN CHOICE, log entry 39) -/
def admTurn (d : Dev) (f : FnId) (e : Desc) : Bool :=
  let x := getFn d f
  decide (x.admFetched.head? = some e) && x.admWait.isNone && x.acqSlot.isEmpty && !x.inFlr && !x.fenced
  && d.mode ≠ .quarantine && d.boot.phase = .running && fnExists d f

/-- A COMMAND waits between its entries: the sequencer runs nothing else (R60, R361). -/
def seqHeld (d : Dev) : Bool := d.svc.cmds.any (·.hold)

/-- The command at the head of the admin ring may run. -/
def admReady (d : Dev) (f : FnId) (e : Desc) : Bool := admTurn d f e && !seqHeld d

/-- A command that arrives while the sequencer is held waits its turn, in order of arrival (R42, R60). -/
def queueRow (i : Instr) (d : Dev) : Dev := { d with svc := { d.svc with cmds := d.svc.cmds ++ [{ row := some i }] } }

/-! ### Entries of unknown opcode (step 1 of R521 and R523) -/

/-- A work opcode R71 lists. -/
def knownWork (op : Nat) : Bool := decide (op ≤ 9)

/-- An admin opcode R61 lists. -/
def knownAdmin (op : Nat) : Bool :=
  [0x01, 0x02, 0x03, 0x04, 0x05, 0x06, 0x07, 0x08, 0x10, 0x11, 0x12, 0x18, 0x19, 0x20, 0x21, 0x22, 0x23, 0x24, 0x28, 0x29,
   0x30, 0x31, 0x38, 0x39, 0x40, 0x41, 0x42, 0x48, 0x49, 0x4A, 0x50].contains op

/-- A descriptor of unknown opcode that may start. -/
def unknownWork (d : Dev) : Option (FnId × Nat × Desc) :=
  d.fns.findSome? fun e => e.2.sqs.findSome? fun q =>
    match q.2.fetched with
    | x :: _ =>
      if !knownWork x.d.opcode && (mayStart d (fnOfKey e.1) q.1 x.d).isSome then some (fnOfKey e.1, q.1, x.d) else none
    | [] => none

/-- It completes with INVALID_OPCODE. -/
def endUnknownWork (f : FnId) (sq : Nat) (e : Desc) (d : Dev) : Dev :=
  match mayStart d f sq e with
  | none => d
  | some (q, x) =>
    endStart { fn := f, sq := sq, cls := q.cls, cnt := x.cnt, cq := q.cq, e := e } .invalidOpcode 0 0
      (takeHead f sq q x q.cq d)

/-- An admin entry of unknown opcode that may run. -/
def unknownAdmin (d : Dev) : Option (FnId × Desc) :=
  d.fns.findSome? fun x =>
    match x.2.admFetched with
    | e :: _ => if !knownAdmin e.opcode && admReady d (fnOfKey x.1) e then some (fnOfKey x.1, e) else none
    | [] => none

/-- It completes with INVALID_OPCODE. -/
def endUnknownAdmin (f : FnId) (e : Desc) (d : Dev) : Dev :=
  postAcq f (admCqe e .invalidOpcode 0 0) (updFn f (fun x => { x with admFetched := x.admFetched.drop 1 }) d)

/-- End every entry of unknown opcode whose turn has come. -/
def endUnknown : Nat → Dev → Dev
  | 0, d => d
  | fuel + 1, d =>
    match unknownWork d with
    | some (f, sq, e) => endUnknown fuel (endUnknownWork f sq e d)
    | none =>
      match unknownAdmin d with
      | some (f, e) => endUnknown fuel (endUnknownAdmin f e d)
      | none => d

/-! ### A command's effect -/

/-- Run every access the device has asked for, and what follows, to its next wait. -/
def rest (d : Dev) : Dev := sendNotify (inkRest (endUnknown 65536 (settle settleFuel d)))

/-- Power-on reset is held internally: nothing but the metering island runs (R507, R508). (DEDUCED, log entry 11) -/
def asleep (d : Dev) : Bool := d.boot.phase == .held

/-- A command's effect on the device, run to its next wait. (DESIGN CHOICE, log entry 8) -/
def lift (g : Dev → Dev) (s : State) : Host.Outcome State Fault Refusal :=
  .next { s with dev := if asleep s.dev then s.dev else rest (g s.dev) }

/-- A command's effect where it asks for nothing further. -/
def lift0 (g : Dev → Dev) (s : State) : Host.Outcome State Fault Refusal :=
  .next { s with dev := if asleep s.dev then s.dev else g s.dev }

/-- An access of the fabric manager is a command of the sequencer: while that is held, it waits its turn (R42, R60). Any other
master's access is carried out at once. -/
def fabRow (m : Master) (i : Instr) (s : State) (out : Host.Outcome State Fault Refusal) : Host.Outcome State Fault Refusal :=
  if m = .fabricManager ∧ !asleep s.dev ∧ seqHeld s.dev then .next { s with dev := queueRow i s.dev } else out

end Sys2Proof.Machine
end

