-- ==== Sys2Proof/Machine/Work.lean ====
section
/-!
DEFINITION. Work descriptors: the order of their checks (R523), and the ten work opcodes (R71, R124 to R127, R167 to R170, R204).
-/
namespace Sys2Proof.Machine

open Sys2Proof

/-- Start the head descriptor of a queue with a given opcode and let `go` carry it out; where it may not start now,
nothing happens. -/
def startWork (op : Nat) (f : FnId) (sq : Fin 65536) (e : Desc) (go : Start → Dev → Dev) (d : Dev) : Dev :=
  if e.opcode ≠ op then d
  else
    match mayStart d f sq.val e with
    | none => d
    | some (q, x) =>
      let cq := workCq d f q e
      let tc := if usesConn op then (ownConn d f e).map (·.tc.toNat) else classOf d f sq.val e
      go { fn := f, sq := sq.val, cls := q.cls, cnt := x.cnt, cq := cq, e := e }
        (occur (opOcc 0x01 f e tc) (tagStart f sq.val x tc (inkDesc f sq.val x.cnt e (takeHead f sq.val q x cq d))))

/-- Step 2 of R523: a drain, then a full meter. -/
def refusedByState (d : Dev) (f : FnId) : Option Status :=
  if portDrained d f.port then some .modeRefused
  else if meterFull d then some .meterRefused
  else none

/-! ### Checks of the operations on connections (R523 steps 3 to 6) -/

/-- Step 3: the fields of a descriptor (R70, R72). -/
def badFields (e : Desc) : Bool :=
  match e.opcode with
  | 0x01 => decide (2 ^ 48 ≤ e.localVa)
  | 0x02 => decide (2 ^ 48 ≤ e.localVa) || e.length == 0
  | 0x03 => decide (2 ^ 48 ≤ e.localVa)
  | 0x04 => decide (2 < e.aop) || decide (e.localVa % 8 ≠ 0) || decide (e.remoteVa.toNat % 8 ≠ 0)
  | 0x07 => decide (4096 < e.length)
  | _ => false

/-- A SEND_TAGGED of this length goes by rendezvous (R167). -/
def byRendezvous (e : Desc) : Bool := e.opcode == 0x05 && decide (16384 < e.length)

/-- Step 5: the local buffer (R89), with the REMOTE_READ check of a rendezvous send (R167). -/
def badBuffer (d : Dev) (f : FnId) (e : Desc) : Option Status :=
  let chk := match e.opcode with
    | 0x03 => checkRegion d f e.localKey e.localVa e.length .localWrite
    | 0x04 => checkRegion d f e.localKey e.localVa 8 .localWrite
    | _ => checkRegion d f e.localKey e.localVa e.length .localRead
  match chk with
  | .error s => some s
  | .ok r => if byRendezvous e && !r.rr then some .accessDenied else none

/-- The first status that applies to an operation on a connection, from step 2 on (R523); step 6 is left to the caller. -/
def connStatus (d : Dev) (f : FnId) (e : Desc) : Except Status Conn :=
  match refusedByState d f with
  | some s => .error s
  | none =>
    if badFields e then .error .invalidParam
    else
      match ownConn d f e with
      | none => .error .notFound
      | some c =>
        if c.st = .error then .error .connError
        else
          match badBuffer d f e with
          | some s => .error s
          | none => .ok c

/-- An operation record of a started descriptor. -/
def newOp (s : Start) (kind : OpKind) (len : Nat) : Op :=
  { kind := kind, fn := s.fn, sq := s.sq, cnt := s.cnt, cls := s.cls, cq := s.cq, desc := s.e, len := len }

/-- An unreachable destination: the completion waits for earlier operations of its connection (R128, R255).
(DEDUCED, log entry 63) -/
def unreachableOp (s : Start) (kind : OpKind) (d : Dev) : Dev :=
  let d1 := { d with rt := { d.rt with reachRefused := d.rt.reachRefused.add 1 } }
  retire s.e.conn (updConn s.e.conn (fun c => { c with
    ops := c.ops ++ [{ newOp s kind 0 with msn := c.nextMsn, psn0 := c.assign, npk := 0, finished := some .destDown }] }) d1)

/-- Carry out an operation on a connection (R523, R124 to R126, R167). -/
def goConn (kind : OpKind) (s : Start) (d : Dev) : Dev :=
  match connStatus d s.fn s.e with
  | .error st => endStart s st 0 s.e.conn d
  | .ok c =>
    if !reachable d c.peer then unreachableOp s kind d
    else startOp s.e.conn (newOp s kind (if kind = .atomic then 8 else s.e.length)) d

/-! ### The work opcodes -/

/-- NOP (R71): completes at once. -/
def execNop (f : FnId) (sq : Fin 65536) (e : Desc) (s : State) : Host.Outcome State Fault Refusal :=
  lift (startWork 0x00 f sq e fun w d => endStart w .success 0 0 d) s

/-- PUT (R124). -/
def execPut (f : FnId) (sq : Fin 65536) (e : Desc) (s : State) : Host.Outcome State Fault Refusal :=
  lift (startWork 0x01 f sq e (goConn .put)) s

/-- PUT_FLAG (R124). -/
def execPutFlag (f : FnId) (sq : Fin 65536) (e : Desc) (s : State) : Host.Outcome State Fault Refusal :=
  lift (startWork 0x02 f sq e (goConn .putFlag)) s

/-- GET (R125). -/
def execGet (f : FnId) (sq : Fin 65536) (e : Desc) (s : State) : Host.Outcome State Fault Refusal :=
  lift (startWork 0x03 f sq e (goConn .get)) s

/-- ATOMIC (R126). -/
def execAtomic (f : FnId) (sq : Fin 65536) (e : Desc) (s : State) : Host.Outcome State Fault Refusal :=
  lift (startWork 0x04 f sq e (goConn .atomic)) s

/-- SEND_TAGGED (R167): eager up to 16,384 bytes, by rendezvous above. -/
def execSendTagged (f : FnId) (sq : Fin 65536) (e : Desc) (s : State) : Host.Outcome State Fault Refusal :=
  lift (startWork 0x05 f sq e fun w d => goConn (if byRendezvous e then .sendRts else .sendEager) w d) s

/-- Posted-receive entries of a context: those on its lists, and those matched whose receive has not completed (R169).
(DEDUCED, log entry 65) -/
def postedIn (d : Dev) (m : Nat) (x : Mctx) : Nat := x.posted.length + matchedOf d m

/-- Posted-receive entries of the device (R184). -/
def postedUsed (d : Dev) : Nat := (d.mtc.ctxs.map fun x => postedIn d x.1 x.2).sum

/-- The status a POST_RECV completes with at once, if one does (R169, R523). (DEDUCED, log entry 65) -/
def recvStatus (d : Dev) (f : FnId) (e : Desc) : Except Status Mctx :=
  match refusedByState d f with
  | some s => .error s
  | none =>
    if !e.signal then .error .invalidParam
    else
      match getMctx d e.mctx with
      | none => .error .matchCtxInvalid
      | some x =>
        if x.fn ≠ f then .error .matchCtxInvalid
        else if x.st = .lost then .error .engineLost
        else
          match checkRegion d f e.localKey e.localVa e.length .localWrite with
          | .error s => .error s
          | .ok _ =>
            if (x.maxPosted ≠ 0 ∧ x.maxPosted ≤ postedIn d e.mctx x) ∨ 4194304 ≤ postedUsed d then .error .noResources
            else .ok x

/-- Carry out a POST_RECV (R169, R170, R173). -/
def goRecv (w : Start) (d : Dev) : Dev :=
  match recvStatus d w.fn w.e with
  | .error st => endStart w st 0 0 d
  | .ok x =>
    let e := w.e
    let p : Posted :=
      { seq := x.postSeq, tag := e.remoteVa, ignore := e.ignore, va := e.w2, key := e.localKey, len := e.length,
        source := e.source, anySource := e.anySource, wild := e.anySource || e.ignore != 0, mctx := e.mctx, fn := w.fn,
        sq := w.sq, cnt := w.cnt, cq := w.cq, userCtx := e.userCtx }
    let d1 := setMctx e.mctx { x with postSeq := x.postSeq + 1 } (noteSearch w.fn (msgsExamined d e.mctx p) d)
    match selectMsg d1 e.mctx p with
    | some r => joinMsg r.id p d1
    | none =>
      let ix := takeFree d1
      let p1 := { p with ix := ix.1.toNat % 2 ^ 22, app := ix.2.xpt.nextId }
      setMctx e.mctx { x with postSeq := x.postSeq + 1, posted := x.posted ++ [p1] }
        { ix.2 with xpt := { ix.2.xpt with nextId := ix.2.xpt.nextId + 1 } }

/-- POST_RECV (R169, R170). -/
def execPostRecv (f : FnId) (sq : Fin 65536) (e : Desc) (s : State) : Host.Outcome State Fault Refusal :=
  lift (startWork 0x06 f sq e goRecv) s

/-- The first status that applies to a NOTE (R523). -/
def noteStatus (d : Dev) (f : FnId) (e : Desc) : Except Status Region :=
  match refusedByState d f with
  | some s => .error s
  | none =>
    if badFields e then .error .invalidParam
    else if (getFn d f).domain = 0 then .error .domainUnset
    else
      match checkRegion d f e.localKey e.localVa e.length .localRead with
      | .error s => .error s
      | .ok r => if !reachable d e.dest then .error .destDown else .ok r

/-- Carry out a NOTE: its payload is read, then it meets its shaper (R127, R332). (DEDUCED, log entry 62) -/
def goNote (w : Start) (d : Dev) : Dev :=
  match noteStatus d w.fn w.e with
  | .error st =>
    endStart w st 0 0 (if st = .destDown then { d with rt := { d.rt with reachRefused := d.rt.reachRefused.add 1 } } else d)
  | .ok r =>
    let a : Access := { fn := w.fn, key := w.e.localKey, va := w.e.localVa, len := w.e.length, right := .localRead,
                        sq := w.sq, cont := .noteRead w.sq w.cnt w.e }
    if w.e.length = 0 then readDone a [] d else askChecked a r d

/-- NOTE (R127). -/
def execNote (f : FnId) (sq : Fin 65536) (e : Desc) (s : State) : Host.Outcome State Fault Refusal :=
  lift (startWork 0x07 f sq e goNote) s

/-- Bytes of a COLL's send and receive buffers (R204). -/
def collSendLen (e : Desc) : Nat := e.length * elemSize e.elemType
def collRecvLen (e : Desc) : Nat := e.length * resultElem e.cop e.elemType e.raw256

/-- Parameter faults of a COLL, the first four rows of R204. -/
def collBad (e : Desc) : Bool :=
  !validPair e.cop e.elemType
  || (e.cop == 0x08 && e.length != 0)
  || (e.cop == 0x07 && decide (e.scale < -1100 ∨ 1000 < e.scale))
  || (e.cop != 0x07 && (decide (e.scale ≠ 0) || e.raw256))
  || (e.localKey == 0 && decide (0 < e.length) && e.cop != 0x09)
  || decide (e.localVa % max 1 (min (elemSize e.elemType) 8) ≠ 0)
  || decide (e.remoteVa.toNat % max 1 (min (elemSize e.elemType) 8) ≠ 0)

/-- The first status that applies to a COLL (R204, R523). -/
def collStatus (d : Dev) (f : FnId) (e : Desc) : Option Status :=
  match refusedByState d f with
  | some s => some s
  | none =>
    if collBad e then some .invalidParam
    else if (getFn d f).domain = 0 then some .domainUnset
    else if !thas (getFn d f).trees e.tree || (stampedEntry d e.tree).isNone then some .treeInvalid
    else
      match (if e.localKey = 0 then none else
          match checkRegion d f e.localKey e.localVa (collSendLen e) .localRead with
          | .error s => some s
          | .ok _ => none) with
      | some s => some s
      | none =>
        if e.remoteKey = 0 then none
        else
          match checkRegion d f e.remoteKey e.remoteVa.toNat (collRecvLen e) .localWrite with
          | .error s => some s
          | .ok _ => none

/-- Carry out a COLL: past its checks it waits for its tree (R205). -/
def goColl (w : Start) (d : Dev) : Dev :=
  match collStatus d w.fn w.e with
  | some st => endStart w st 0 0 d
  | none =>
    let r : CollReq := { fn := w.fn, sq := w.sq, cnt := w.cnt, cq := w.cq, cls := w.cls, desc := w.e }
    updFn w.fn (fun x => { x with trees := tmod x.trees w.e.tree fun m => { m with waitQ := m.waitQ ++ [r] } }) d

/-- COLL (R204, R205). -/
def execColl (f : FnId) (sq : Fin 65536) (e : Desc) (s : State) : Host.Outcome State Fault Refusal :=
  lift (startWork 0x08 f sq e goColl) s

/-- FENCE (R71, R73): it starts only when every earlier descriptor has completed, and completes then. -/
def execFence (f : FnId) (sq : Fin 65536) (e : Desc) (s : State) : Host.Outcome State Fault Refusal :=
  lift (startWork 0x09 f sq e fun w d => endStart w .success 0 0 d) s

end Sys2Proof.Machine
end

