-- ==== Sys2Proof/Machine/Arrive.lean ====
section
/-!
DEFINITION. What arrives for this device: data packets (R121, R147), transport Nib messages (R136, R138, R144, R146),
the transport's timers, context tiers (R152 to R154), and the answers to host reads (R83).
-/
namespace Sys2Proof.Machine

open Sys2Proof

/-- A packet or message leaves the list of those delivered here. -/
def takeLocal (it : Item) (d : Dev) : Dev := { d with rt := { d.rt with localQ := d.rt.localQ.erase it } }

/-! ### Context tiers (R152 to R154) -/

/-- Bytes in the miss buffer (R153). -/
def missBytes (d : Dev) : Nat := (d.xpt.miss.map fun x => pktLen x.2).sum

/-- A packet waits in the miss buffer, or is refused for want of room (R153). -/
def waitMiss (n : Nat) (p : Packet) (fetch : Bool) (d : Dev) : Dev :=
  if 262144 < missBytes d + pktLen p then sendRnr n .missFull d
  else { d with xpt := { d.xpt with
    miss := d.xpt.miss ++ [(n, p)]
    fetching := if fetch && !d.xpt.fetching.contains n then d.xpt.fetching ++ [n] else d.xpt.fetching } }

/-! ### Data packets (R122, R125, R132, R139, R147) -/

/-- Stage 6 of a GET: its last response so far (R471). -/
def tagResponse (o : Op) (d : Dev) : Dev := if o.serves.isSome then d else tagStage o.fn o.sq o.cnt 6 false d

/-- A GET_RESP at the initiator (R125). One that passes the checks is accepted, and sets the retry count to 0 (R141), whatever
its translation comes to. (DEDUCED, log entry 154) -/
def recvGetResp (n : Nat) (c : Conn) (p : Packet) (d : Dev) : Dev :=
  let stray := { d with xpt := { d.xpt with stray := d.xpt.stray.add 1 } }
  match c.ops.find? (fun o => o.kind = .get && o.psn0 == p.psn && o.npk != 0 && !o.written) with
  | none => stray
  | some o =>
    let off := p.offset.toNat
    let len := p.payload.length
    if p.void then failOp n o.msn .remoteAccess (setConn n { c with retries := 0 } d)
    else if len = 0 ∨ o.len < off + len then stray
    else
      match checkRegion d c.fn o.desc.localKey (o.desc.localVa + off) len .localWrite with
      | .error s => failOp n o.msn s (setConn n { c with retries := 0 } d)
      | .ok r =>
        askChecked { fn := c.fn, key := o.desc.localKey, va := o.desc.localVa + off, len := len, right := .localWrite,
                     sq := o.sq, conn := n, cont := .getPlace n o.msn off p.payload p.rh.det } r
          (tagResponse o (setConn n { updOp o.msn (fun o => { o with placing := o.placing + 1 }) c with retries := 0 } d))

/-- A data packet meets its connection's context (R132, R153, R154, R190 step 3). -/
def deliverConn (n : Nat) (c : Conn) (p : Packet) (d : Dev) : Dev :=
  if c.st = .parked || (getFn d c.fn).park = .parked || (getFn d c.fn).park = .unparking then sendRnr n .parked d
  else if slotGrafting d (connSlot n) then sendRnr n .grafting d
  else if inWriting d n then waitMiss n p false d
  else if isOnDie d n then
    let d1 := touchCtx n d
    if p.ptype = ptGetResp then recvGetResp n c p d1 else recvData n c p d1
  else waitMiss n p true d

/-- The record of a connection number for a function: PEER, PEER_CONN, released, and by a reset (R147 step 1).
(DEDUCED, log entry 54) -/
def connRecord (d : Dev) (f : FnId) (n : Nat) : Option (Ep × Psn × Option Bool) :=
  match getConn d n with
  | some c => if c.fn = f then some (c.peer, c.peerConn, none) else
      (tget d.xpt.kept n).bind fun k => if k.fn = f then some (k.peer, k.peerConn, some k.byReset) else none
  | none => (tget d.xpt.kept n).bind fun k => if k.fn = f then some (k.peer, k.peerConn, some k.byReset) else none

/-- A packet a drained host domain still accepts (R265). -/
def drainAccepts (p : Packet) : Bool :=
  p.rh.resp || p.ptype = ptGetReq || p.ptype = ptGetResp || (p.ptype = ptSend && skind p == 2)

/-- The port tile's answer to a request for a drained host domain: at most one for each connection in 2 us (R265). -/
def answerDestDown (f : FnId) (p : Packet) (peer : Ep) (peerConn : Psn) (d : Dev) : Dev :=
  let n := p.conn.toNat
  let held := (getConn d n).any fun c => decide (c.fn = f)
  let last := if held then (getConn d n).bind (·.destDownAt) else (tget d.xpt.kept n).bind (·.destDownAt)
  if last.any fun t => decide (d.clk.now < t + 2000) then d
  else
    let d1 := if held then updConn n (fun c => { c with destDownAt := some d.clk.now }) d
      else { d with xpt := { d.xpt with kept := tmod d.xpt.kept n fun k => { k with destDownAt := some d.clk.now } } }
    let d2 := { d1 with rt := { d1.rt with destDownSent := d1.rt.destDownSent.add 1 } }
    sendNib f peer peerConn ntDestDown p.psn 0 0 0 d2

/-- A packet that fails its CRC: counted, and answered with a NAK where it names a connection of the addressed function
in its domain (R139); one whose PTYPE says NOTE is not. (DEDUCED, log entry 155) -/
def crcFailed (f : FnId) (p : Packet) (d : Dev) : Dev :=
  let d1 := { d with xpt := { d.xpt with crcFail := d.xpt.crcFail.add 1 } }
  match getConn d p.conn.toNat with
  | some c => if c.fn = f ∧ p.ptype ≠ ptNote ∧ p.rh.domain = (getFn d f).domain then sendNak p.conn.toNat d1 else d1
  | none => d1

/-- The domain filter's drop (R51). -/
def domainDrop (f : FnId) (d : Dev) : Dev :=
  report (srcDomain f.port.val) .contained caDomain 0 (fnObject f) 1 (updFn f (fun x => { x with domDrop := x.domDrop + 1 }) d)

/-- An arriving packet of a connection, from the CRC to the window (R122, R51, R265, R147); one for a function that does not exist,
and of whose connections no record is kept, has no domain to meet. (DEDUCED, log entry 50)
(DEDUCED, log entry 51) -/
def arriveConn (p : Packet) (d : Dev) : Dev :=
  let f := epFn p.rh.dest
  let miss := { d with xpt := { d.xpt with srcMismatch := d.xpt.srcMismatch.add 1 } }
  if pktCrc p ≠ p.crc then crcFailed f p d
  else if !fnExists d f && !(getFn d f).inFlr && (connRecord d f p.conn.toNat).isNone then miss
  else if p.rh.domain ≠ (getFn d f).domain then domainDrop f d
  else
    match connRecord d f p.conn.toNat with
    | none => miss
    | some (peer, peerConn, released) =>
      if p.rh.src ≠ peer then miss
      else if portDrained d f.port && !drainAccepts p then answerDestDown f p peer peerConn d
      else if (getFn d f).inFlr || released = some true then sendNib f peer peerConn ntFuncReset 0 0 0 0 d
      else
        match getConn d p.conn.toNat with
        | none => sendNib f peer peerConn ntConnReset 0 0 0 0 d
        | some c =>
          if released = some false || c.st = .error then sendNib f peer peerConn ntConnReset 0 0 0 0 d
          else deliverConn p.conn.toNat c p d

/-- A packet is for the recorded unit: of a connection, or, of a SEND or a NOTE, of a match context it is home of (R187, R473). -/
def pktRecorded (d : Dev) (p : Packet) : Bool :=
  (p.ptype != ptNote && slotRecorded d (connSlot p.conn.toNat))
  || ((p.ptype == ptNote || p.ptype == ptSend) && slotRecorded d (mctxSlot (pktMctx p)))

/-- What arrives for the recorded unit: while a checkpoint runs it waits where it is (R475); else it is recorded and opens an
operation (R473, R474). -/
def inkArrive (it : Item) (mine : Bool) (key : InkKey) (bytes : List Byte) (go : Dev → Dev) (d : Dev) : Dev :=
  if mine && inkHolds d then
    if d.rt.localQ.contains it then d else { d with rt := { d.rt with localQ := d.rt.localQ ++ [it] } }
  else
    let d1 := takeLocal it d
    go (if mine then inkInput 1 key bytes d1 else d1)

/-- A data-packet command: the packet must be of the row's type. -/
def arrive (ok : Packet → Bool) (go : Packet → Dev → Dev) (p : Packet) (s : State) : Host.Outcome State Fault Refusal :=
  lift (fun d =>
    if ok p && d.mode ≠ .quarantine then
      inkArrive (.data p) (pktRecorded d p) (if p.ptype = ptNote then .once else .conn p.conn.toNat) (pktBytes p) (go p) d
    else d) s

/-- PUT packet (R121, R132). -/
def execPutPacket (p : Packet) (s : State) : Host.Outcome State Fault Refusal :=
  arrive (fun p => p.ptype = ptPut) arriveConn p s

/-- PUT_FLAG packet (R121, R132, R133). -/
def execPutFlagPacket (p : Packet) (s : State) : Host.Outcome State Fault Refusal :=
  arrive (fun p => p.ptype = ptPutFlag) arriveConn p s

/-- GET_REQ packet (R125). -/
def execGetReq (p : Packet) (s : State) : Host.Outcome State Fault Refusal :=
  arrive (fun p => p.ptype = ptGetReq) arriveConn p s

/-- GET_RESP packet (R125). -/
def execGetResp (p : Packet) (s : State) : Host.Outcome State Fault Refusal :=
  arrive (fun p => p.ptype = ptGetResp) arriveConn p s

/-- ATOMIC_REQ packet (R126). -/
def execAtomicReq (p : Packet) (s : State) : Host.Outcome State Fault Refusal :=
  arrive (fun p => p.ptype = ptAtomicReq) arriveConn p s

/-- SEND packet of SKIND 0, 1 or 3 (R166, R175 to R180). -/
def execSendPacket (p : Packet) (s : State) : Host.Outcome State Fault Refusal :=
  arrive (fun p => p.ptype = ptSend && skind p != 2) arriveConn p s

/-- SEND packet of SKIND 2 (R179). -/
def execRendezvousFinish (p : Packet) (s : State) : Host.Outcome State Fault Refusal :=
  arrive (fun p => p.ptype = ptSend && skind p == 2) arriveConn p s

/-- Drop a NOTE and count it (R181). -/
def dropNote (d : Dev) : Dev := { d with mtc := { d.mtc with noteDrop := d.mtc.noteDrop.add 1 } }

/-- Hand a NOTE to matching on its arrival (R177, R181). -/
def matchNote (p : Packet) (x : Mctx) (d : Dev) : Dev :=
  let m := pktMctx p
  let len := min p.aux.toNat p.payload.length
  let r : MsgRec := { id := d.xpt.nextId, conn := none, fn := x.fn, src := p.rh.src, tag := p.va, mctx := m, len := len }
  let d1 := noteSearch x.fn (postedExamined m x p.rh.src p.va) { d with xpt := { d.xpt with nextId := d.xpt.nextId + 1 } }
  match selectPosted x p.rh.src p.va with
  | some q =>
    let r1 := { r with st := .matched, recv := some q, entry := false }
    let d2 := setMctx m { x with posted := x.posted.erase q }
      { d1 with mtc := { d1.mtc with recs := d1.mtc.recs ++ [r1] } }
    let a := askPlace r1 q 0 (p.payload.take len) (fun keep => .notePlace r.id keep) 0 d2
    if a.1 then a.2 else settleMsg r.id (updMsg r.id (fun r => { r with arrived := len }) a.2)
  | none =>
    if canReserve d m x (blocksFor false len) false then
      let ix := takeFree d1
      let at_ := takeFree ix.2
      let d1 := at_.2
      let r1 := { r with st := .unexpected, entryIx := ix.1.toNat % 2 ^ 22, blockAt := at_.1, arrSeq := x.arrSeq, blocks := blocksFor false len, arrived := len,
                         seg := [(0, p.payload.take len, false)] }
      setMctx m { x with arrSeq := x.arrSeq + 1 }
        (occur { ev := 0x0F, fn := some x.fn } { d1 with mtc := { d1.mtc with recs := d1.mtc.recs ++ [r1] } })
    else dropNote d

/-- An arriving NOTE: CRC, domain filter, drain, inbound policer, then its match context (R127, R181, R335).
(DEDUCED, log entry 53) -/
def arriveNote (p : Packet) (d : Dev) : Dev :=
  let f := epFn p.rh.dest
  if pktCrc p ≠ p.crc then crcFailed f p d
  else if !fnExists d f then dropNote d
  else if p.rh.domain ≠ (getFn d f).domain then domainDrop f d
  else if portDrained d f.port || (getFn d f).inFlr then dropNote d
  else
    let x := getFn d f
    let r := police x.polIn (pktLen p + overhead d)
    if !r.1 then setFn f { x with polIn := r.2, polInDrop := x.polInDrop + 1 } d
    else
      let d1 := tally f 1 (pktLen p) (setFn f { x with polIn := r.2 } d)
      match getMctx d1 (pktMctx p) with
      | none => dropNote d1
      | some m =>
        if m.fn ≠ f ∨ m.st ≠ .active ∨ slotGrafting d1 (mctxSlot (pktMctx p)) ∨ skind p ≠ 0 then dropNote d1
        else matchNote p m d1

/-- NOTE packet (R127, R181). -/
def execNotePacket (p : Packet) (s : State) : Host.Outcome State Fault Refusal :=
  arrive (fun p => p.ptype = ptNote) arriveNote p s

/-! ### Transport Nib messages (R135, R138, R144, R146, R147) -/

/-- Count a message the receiving engine cannot take at once (R245). -/
def countStall (d : Dev) : Dev := { d with rt := { d.rt with nibStall := d.rt.nibStall.add 1 } }

/-- The checks every transport message meets (R51, R135); past them `go` acts on its Active connection. A message whose engine is
fenced, or whose context is being written out or cannot be had, is not taken at once (R154, R190, R245). -/
def arriveNib (nt : Byte) (n : Nib) (go : Nat → Conn → Dev → Dev) (s : State) : Host.Outcome State Fault Refusal :=
  lift (fun d =>
    let f := epFn n.dest
    if n.ntype ≠ nt then d
    else inkArrive (.nib n) (slotRecorded d (connSlot n.conn.toNat)) (.conn n.conn.toNat) (nibBytes n) (fun d =>
      if nibCrc n ≠ n.crc then { d with xpt := { d.xpt with crcFail := d.xpt.crcFail.add 1 } }
      else if !fnExists d f then d
      else if n.domain ≠ (getFn d f).domain then domainDrop f d
      else
        match getConn d n.conn.toNat with
        | none => d
        | some c => if c.fn ≠ f ∨ c.st ≠ .active then d
          else if slotGrafting d (connSlot n.conn.toNat) || !ctxReady d n.conn.toNat then countStall d
          else go n.conn.toNat c (useCtx n.conn.toNat d)) d) s

/-- Take the PSN and summary of an ACK, NAK or RNR_NAK that is not stale, then react (R138). -/
def onCover (m : Nib) (react : Nat → Dev → Dev) (n : Nat) (c : Conn) (d : Dev) : Dev :=
  if !ackInRange c m.psn then d
  else react n (ackTo n c m.psn m.value d)

/-- Send on, and complete what can complete. (DESIGN CHOICE, log entry 56) -/
def goOn (n : Nat) (d : Dev) : Dev := retire n (pump pumpFuel n d)

/-- ACK (R138). -/
def execAck (m : Nib) (s : State) : Host.Outcome State Fault Refusal := arriveNib ntAck m (onCover m goOn) s

/-- NAK (R138, R139). -/
def execNak (m : Nib) (s : State) : Host.Outcome State Fault Refusal := arriveNib ntNak m (onCover m loss) s

/-- RNR_NAK (R138, R144). -/
def execRnrNak (m : Nib) (s : State) : Host.Outcome State Fault Refusal :=
  arriveNib ntRnrNak m (onCover m fun n d => backOff n m.info.toNat d) s

/-- The PSNs from q to the last of its operation (R146). -/
def voidRange (o : Op) (q : Psn) : List Psn :=
  (List.range (o.npk - opIndex o q)).map fun i => q + BitVec.ofNat 24 i

/-- ACCESS_NAK: the operation fails, and its PSNs from the refused one on are sent again VOID (R146). -/
def onAccessNak (m : Nib) (n : Nat) (c : Conn) (d : Dev) : Dev :=
  match opOf c m.psn with
  | none => d
  | some o =>
    let sent := (voidRange o m.psn).filter fun q => decide ((c.next - q).toNat < 2 ^ 23 ∧ q ≠ c.next)
    goOn n (setConn n { updOp o.msn (fun o => { o with
        fail := some (o.fail.getD .remoteAccess)
        voidFrom := some (min (opIndex o m.psn) (o.voidFrom.getD (opIndex o m.psn))) }) c with
      resendQ := sent ++ c.resendQ.filter fun q => !sent.contains q } d)

/-- ACCESS_NAK (R145, R146). -/
def execAccessNak (m : Nib) (s : State) : Host.Outcome State Fault Refusal := arriveNib ntAccessNak m (onAccessNak m) s

/-- ATOMIC_RESP: the prior value goes to RESULT_VA (R126, R141). (DEDUCED, log entry 59) -/
def onAtomicResp (m : Nib) (n : Nat) (c : Conn) (d : Dev) : Dev :=
  match c.ops.find? (fun o => o.kind = .atomic && o.psn0 == m.psn && !o.resp && !o.written && o.npk != 0) with
  | none => d
  | some o =>
    match checkRegion d c.fn o.desc.localKey o.desc.localVa 8 .localWrite with
    | .error s => failOp n o.msn s (setConn n { c with retries := 0 } d)
    | .ok r =>
      askChecked { fn := c.fn, key := o.desc.localKey, va := o.desc.localVa, len := 8, right := .localWrite,
                   sq := o.sq, conn := n, cont := .atomResult n o.msn m.value } r (setConn n { c with retries := 0 } d)

/-- ATOMIC_RESP (R126). -/
def execAtomicResp (m : Nib) (s : State) : Host.Outcome State Fault Refusal := arriveNib ntAtomicResp m (onAtomicResp m) s

/-- CONN_RESET (R147): outstanding operations complete with CONN_ERROR. -/
def execConnReset (m : Nib) (s : State) : Host.Outcome State Fault Refusal :=
  arriveNib ntConnReset m (fun n _ d => failConn n .connError .connError .connError false d) s

/-- FUNC_RESET (R147, R160): outstanding operations complete with REMOTE_FUNC_RESET. -/
def execFuncReset (m : Nib) (s : State) : Host.Outcome State Fault Refusal :=
  arriveNib ntFuncReset m (fun n _ d => failConn n .remoteFuncReset .remoteFuncReset .remoteFuncReset false d) s

/-- DEST_DOWN (R147, R265). -/
def execDestDown (m : Nib) (s : State) : Host.Outcome State Fault Refusal :=
  arriveNib ntDestDown m (fun n _ d => failConn n .destDown .destDown .destDown false d) s

/-! ### Timers (R137, R140, R144) -/

/-- The retransmit timer runs and is not held (R140). -/
def timerRuns (c : Conn) : Bool :=
  c.st = .active && (decide (c.una ≠ c.next) || c.ops.any (awaitsResp c))
  && c.rnrWait.isNone && !c.stopped && c.respTraps.isEmpty

/-- The engine of a connection's slot is at work: the slot is not fenced (R190). -/
def engineUp (d : Dev) (n : Nat) : Bool := !slotGrafting d (connSlot n)

/-- A timer of a connection that its engine can act on: the slot is not fenced, and the context is on die or can be had, not a copy
in transit (R152, R154, R190). -/
def timerActs (d : Dev) (n : Nat) : Bool := engineUp d n && ctxReady d n

/-- RETRANSMIT_TIMEOUT (R139, R140, R141). (DESIGN CHOICE, log entry 9) -/
def execRetransmitTimeout (n : Psn) (s : State) : Host.Outcome State Fault Refusal :=
  lift (fun d => match getConn d n.toNat with
    | some c => if timerRuns c && timerActs d n.toNat then loss n.toNat (useCtx n.toNat d) else d
    | none => d) s

/-- RNR_WAIT_END (R144): the connection resends from UNA. -/
def execRnrWaitEnd (n : Psn) (s : State) : Host.Outcome State Fault Refusal :=
  lift (fun d => match getConn d n.toNat with
    | some c =>
      if c.rnrWait.isSome && timerActs d n.toNat then
        resend n.toNat (useCtx n.toNat (setConn n.toNat { c with rnrWait := none } d))
      else d
    | none => d) s

/-- ACK_TIMER (R137): 2 us have passed since the earliest acceptance not yet covered. -/
def execAckTimer (n : Psn) (s : State) : Host.Outcome State Fault Refusal :=
  lift (fun d => match getConn d n.toNat with
    | some c =>
      if c.ackDue && decide (c.st ≠ .error) && timerActs d n.toNat then sendAck n.toNat (useCtx n.toNat d) else d
    | none => d) s

/-! ### Context fetches and write-outs (R153, R154) -/

/-- Packets of a connection in the miss buffer, in order, and the buffer without them. -/
def takeMiss (n : Nat) (d : Dev) : List Packet × Dev :=
  ((d.xpt.miss.filter fun x => x.1 == n).map (·.2),
   { d with xpt := { d.xpt with miss := d.xpt.miss.filter fun x => x.1 != n } })

/-- CONTEXT_FETCH_DONE (R153): the context is on die, and the packets that waited for it are handled; it comes only once the
engine's cache has a place for the context. -/
def execContextFetchDone (n : Psn) (s : State) : Host.Outcome State Fault Refusal :=
  lift (fun d =>
    let n := n.toNat
    if !d.xpt.fetching.contains n || !ctxReady d n then d
    else
      let r := takeMiss n { d with xpt := { d.xpt with fetching := d.xpt.fetching.filter (· != n) } }
      r.1.foldl (fun d p => match getConn d n with
        | some c => if c.st = .error then d else deliverConn n c p d
        | none => d) (loadCtx n r.2)) s

/-- The reason a packet that waited out a write-out is refused with (R154). -/
def writeReason (toHost : Bool) : Rnr := if toHost then .parked else .contextMoved

/-- Refuse the packets that waited for a write-out (R154). -/
def refuseMiss (n : Nat) (r : Rnr) (d : Dev) : Dev :=
  let m := takeMiss n d
  m.1.foldl (fun d _ => sendRnr n r d) m.2

/-- CONTEXT_WRITEOUT_DONE (R154). -/
def execContextWriteoutDone (n : Psn) (s : State) : Host.Outcome State Fault Refusal :=
  lift (fun d =>
    let n := n.toNat
    match d.xpt.writing.find? (fun w => w.1 == n) with
    | none => d
    | some w =>
      let d1 := refuseMiss n (writeReason w.2) { d with xpt := { d.xpt with writing := d.xpt.writing.filter fun w => w.1 != n } }
      if w.2 then updConn n (fun c => if c.st = .active then { c with st := .parked } else c) d1 else d1) s

/-- MISS_WAIT_TIMEOUT (R154): 20 us have run out. -/
def execMissWaitTimeout (n : Psn) (s : State) : Host.Outcome State Fault Refusal :=
  lift (fun d =>
    let n := n.toNat
    match d.xpt.writing.find? (fun w => w.1 == n) with
    | none => d
    | some w => refuseMiss n (writeReason w.2) d) s

/-! ### Answers to host reads (R83, R94, R103, R123, R125, R126, R213) -/

/-- The answer to a payload read of one of the given kinds, of the length asked for. -/
def readAnswer (ok : Cont → Bool) (id : Nat) (data : List Byte) (s : State) : Host.Outcome State Fault Refusal :=
  lift (fun d => match takeRead id d with
    | some (r, d1) =>
      match r.why with
      | .payload a => if ok a.cont && data.length == a.len then readDone a data d1 else d
      | .walk _ => d
    | none => d) s

/-- PAYLOAD_READ_DONE (R123, R127). -/
def execPayloadReadDone (id : Nat) (data : List Byte) (s : State) : Host.Outcome State Fault Refusal :=
  readAnswer (fun c => match c with | .txPayload .. | .noteRead .. => true | _ => false) id data s

/-- GET_TARGET_READ_DONE (R125). -/
def execGetTargetReadDone (id : Nat) (data : List Byte) (s : State) : Host.Outcome State Fault Refusal :=
  readAnswer (fun c => match c with | .getRead .. => true | _ => false) id data s

/-- ATOMIC_TARGET_READ_DONE (R126). -/
def execAtomicTargetReadDone (id : Nat) (w : Word64) (s : State) : Host.Outcome State Fault Refusal :=
  readAnswer (fun c => match c with | .atomRead .. => true | _ => false) id (leBytes 8 w.toNat) s

/-- TREE_CONTRIB_READ_DONE (R213). -/
def execTreeContribReadDone (id : Nat) (data : List Byte) (s : State) : Host.Outcome State Fault Refusal :=
  readAnswer (fun c => match c with | .collRead .. => true | _ => false) id data s

/-- The answer to a walk read (a mark re-read where `mark` says so). -/
def walkAnswer (mark : Bool) (id : Nat) (e : Word64) (s : State) : Host.Outcome State Fault Refusal :=
  lift (fun d => match takeRead id d with
    | some (r, d1) =>
      match r.why with
      | .walk wid =>
        match takeWalk wid d1 with
        | none => d
        | some (w, d2) =>
          match w.reread, mark with
          | none, false => applyRes (walkEntry w e d2)
          | some l, true => applyRes (rereadEntry w l e d2)
          | _, _ => d
      | .payload _ => d
    | none => d) s

/-- WALK_READ_RESPONSE (R94). -/
def execWalkReadResponse (id : Nat) (e : Word64) (s : State) : Host.Outcome State Fault Refusal := walkAnswer false id e s

/-- MARK_REREAD_RESPONSE (R103). -/
def execMarkRereadResponse (id : Nat) (e : Word64) (s : State) : Host.Outcome State Fault Refusal := walkAnswer true id e s

/-- A read the device issued fails, with an Advanced Error Reporting status bit (R83): recorded once, and what it was
for fails. -/
def failRead (id aer : Nat) (d : Dev) : Dev :=
  match takeRead id d with
  | none => d
  | some (r, d1) =>
    readFailed r (pcieError r.fn aer d1)

/-- HOST_READ_FAILURE (R83). -/
def execHostReadFailure (id : Nat) (aer : Fin 32) (s : State) : Host.Outcome State Fault Refusal :=
  lift (failRead id aer.val) s

/-- PCIE_COMPLETION_TIMEOUT (R83): status bit 14, Completion Timeout. -/
def execPcieCompletionTimeout (id : Nat) (s : State) : Host.Outcome State Fault Refusal := lift (failRead id 14) s

/-- TLP_DISCARD (R83): the TLP is lost; one record is made, naming the port with function 0. -/
def execTlpDiscard (p : Fin 4) (aer : Fin 32) (s : State) : Host.Outcome State Fault Refusal :=
  lift0 (pcieError (pfOf p) aer.val) s

end Sys2Proof.Machine
end

