-- ==== Sys2Proof/Machine/Queue.lean ====
section
/-!
DEFINITION. Doorbells (R64, R65, R68), the admin queue registers (R56, R57), descriptor fetches (R66, R67, R79), and
the timers of completion queues (R69, R78).
-/
namespace Sys2Proof.Machine

open Sys2Proof

/-- COUNT and ARM of a doorbell write; a write of the upper half alone is ignored (R64). -/
def dbValue : Wr → Option (Word32 × Bool)
  | .full v => some (v.setWidth 32, v.getLsbD 32)
  | .low v => some (v, false)
  | .high _ => none

/-- Count an ignored doorbell in FN_DB_DROP (R54, R65, R68). -/
def dropDb (f : FnId) (d : Dev) : Dev := updFn f (fun x => { x with dbDrop := x.dbDrop + 1 }) d

/-- A function takes doorbells: not in Quarantine, under a block 1 fence, in a reset or in D3hot (R44, R79, R81, R410).
(DEDUCED, log entry 124) -/
def dbLive (d : Dev) (f : FnId) : Bool :=
  fnExists d f && d.mode ≠ .quarantine && !(getFn d f).inFlr && !(getFn d f).fenced && !(getFn d f).pci.d3

/-- The object number of a ring in events (R75). -/
def ringObject : RingRef → Word32
  | .admin => 0xFFFFFFFF
  | .sq n => BitVec.ofNat 32 n.val

/-- What a submission doorbell does to P: some new count, or an overrun (R65). -/
def dbAdvance (log2 : Nat) (p c count : Word32) : Except Unit Word32 :=
  let room := 2 ^ log2 - (p - c).toNat
  let adv := (count - p).toNat
  if adv = 0 then .ok p
  else if adv ≤ room then .ok count
  else .error ()

/-- DB_OVERRUN (R65). -/
def postOverrun (f : FnId) (r : RingRef) (count : Word32) (d : Dev) : Dev :=
  postEvent f .dbOverrun (ringObject r) (count.setWidth 64) 0 d

/-- SQ_DOORBELL (R65). -/
def execSqDoorbell (f : FnId) (n : Fin 65536) (w : Wr) (s : State) : Host.Outcome State Fault Refusal :=
  lift (fun d =>
    match dbValue w with
    | none => d
    | some (count, _) =>
      if !dbLive d f then d
      else
        match tget (getFn d f).sqs n.val with
        | none => dropDb f d
        | some q =>
          if q.halted.isSome then dropDb f d
          else
            match dbAdvance q.log2 q.p q.c count with
            | .ok p =>
              let t := if p = q.p then q.dbT else q.dbT.filter (fun y => decide ((y.1 - q.c).toNat - 1 < 2 ^ 31)) ++ [(p, d.clk.tsc)]
              occur { ev := 0x04, fn := some f } (updFn f (fun x => { x with sqs := tput x.sqs n.val { q with p := p, dbT := t } }) d)
            | .error _ => postOverrun f (.sq n) count d) s

/-- AQ_DB (R65): the admin ring's doorbell; while the admin queue is not enabled it is ignored. (DEDUCED, log entry 31) -/
def execAqDb (f : FnId) (w : Wr) (s : State) : Host.Outcome State Fault Refusal :=
  lift (fun d =>
    match dbValue w with
    | none => d
    | some (count, _) =>
      let x := getFn d f
      if !dbLive d f || !x.aqEnable then d
      else if x.aqHalted.isSome then dropDb f d
      else
        match dbAdvance x.aqLog2 x.aqP x.aqC count with
        | .ok p => occur { ev := 0x04, fn := some f } (setFn f { x with aqP := p } d)
        | .error _ => postOverrun f .admin count d) s

/-- A returned count lies in the range from H to the written count (R68). -/
def countInRange (h w count : Word32) : Bool := decide ((count - h).toNat ≤ (w - h).toNat)

/-- ACQ_DB (R58, R68, R69): held completions are written as room returns; one while the admin completion queue is disabled is
ignored and not counted. (DEDUCED, log entry 31) -/
def execAcqDb (f : FnId) (w : Wr) (s : State) : Host.Outcome State Fault Refusal :=
  lift (fun d =>
    match dbValue w with
    | none => d
    | some (count, arm) =>
      let x := getFn d f
      if !dbLive d f || !x.acqEnable then d
      else if !countInRange x.acqH x.acqW count then dropDb f d
      else drainAcq f (x.acqSlot.length + 1) (setFn f { x with acqH := count, acqArm := x.acqArm || arm } d)) s

/-- CQ_DOORBELL (R68, R69, R78 steps 6 and 7). -/
def execCqDoorbell (f : FnId) (n : Fin 65536) (w : Wr) (s : State) : Host.Outcome State Fault Refusal :=
  lift (fun d =>
    match dbValue w with
    | none => d
    | some (count, arm) =>
      if !dbLive d f then d
      else
        match tget (getFn d f).cqs n.val with
        | none => dropDb f d
        | some q =>
          if !countInRange q.h q.w count then dropDb f d
          else
            let q1 := { q with h := count, arm := q.arm || arm }
            let q2 := if cqFull q1 then q1 else { q1 with stalled := false, stallPosted := false }
            let d1 := updFn f (fun x => { x with cqs := tput x.cqs n.val q2 }) d
            let d2 := drainCq f n.val (q.buf.length + 1) d1
            if q.stallPosted && !cqFull q1 then postEvent f .cqResumed (BitVec.ofNat 32 n.val) 0 0 d2 else d2) s

/-- EQ_DOORBELL (R68, R69, R76): on regaining room EQ_OVERFLOWED goes first, into the queue that regained it.
(DEDUCED, log entry 38) -/
def execEqDoorbell (f : FnId) (n : Fin 4096) (w : Wr) (s : State) : Host.Outcome State Fault Refusal :=
  lift (fun d =>
    match dbValue w with
    | none => d
    | some (count, arm) =>
      if !dbLive d f then d
      else
        match tget (getFn d f).eqs n.val with
        | none => dropDb f d
        | some r =>
          if !countInRange r.h r.w count then dropDb f d
          else
            let r1 := { r with h := count, arm := r.arm || arm }
            let regained := r.missed && decide (0 < ringFree r1.log2 r1.w r1.h)
            let d1 := updFn f (fun x => { x with eqs := tput x.eqs n.val (if regained then { r1 with missed := false } else r1) }) d
            if regained then
              writeEqe f n.val { code := .eqOverflowed, object := BitVec.ofNat 32 n.val,
                                 infoA := fnStatWord (getFn d1 f), time := d1.clk.tsc } d1
            else d1) s

/-! ### Admin queue registers (R56, R57) -/

/-- A LOG2_SIZE of an admin ring as stored: the nearer bound of 4 to 12 (R56). -/
def clampLog2 (n : Nat) : Nat := max 4 (min 12 n)

/-- The low half of an AQ_CFG write. -/
def aqCfgLow (v : Nat) (x : Fn) : Fn := if x.aqEnable then x else { x with aqLog2 := clampLog2 (v % 32) }

/-- The high half of an AQ_CFG write: ENABLE is set only while ACQ_CFG.ENABLE is 1, and never cleared (R57). -/
def aqCfgHigh (v : Nat) (x : Fn) : Fn :=
  if v / 2 ^ 31 % 2 = 1 ∧ x.acqEnable ∧ !x.aqEnable then
    { x with aqEnable := true, aqP := 0, aqC := 0, aqLastWb := 0, acqW := 0, acqH := 0, aqHalted := none }
  else x

/-- The low half of an ACQ_CFG write. -/
def acqCfgLow (v : Nat) (x : Fn) : Fn :=
  { x with
    acqLog2 := if x.aqEnable then x.acqLog2 else clampLog2 (v % 32)
    acqVec := v / 2 ^ 16 % 2 ^ 11
    acqIen := decide (v / 2 ^ 27 % 2 = 1) }

/-- The high half of an ACQ_CFG write: a clear is ignored once AQ_CFG.ENABLE is 1 (R57). -/
def acqCfgHigh (v : Nat) (x : Fn) : Fn :=
  let en := decide (v / 2 ^ 31 % 2 = 1)
  if x.aqEnable && !en then x
  else if en && !x.acqEnable then { x with acqEnable := true, acqW := 0, acqH := 0 }
  else { x with acqEnable := en }

/-- A register write as its halves, low half first (R14). -/
def halves (lo hi : Nat → Fn → Fn) : Wr → Fn → Fn
  | .full v, x => hi (v.toNat / 2 ^ 32) (lo (v.toNat % 2 ^ 32) x)
  | .low v, x => lo v.toNat x
  | .high v, x => hi v.toNat x

/-- A write of AQ_CFG would enable the admin queue (R57). -/
def wouldEnable (w : Wr) (x : Fn) : Bool := !x.aqEnable && (halves aqCfgLow aqCfgHigh w x).aqEnable

/-- A write of AQ_CFG: while the meter holds, one that would enable the queue is ignored (R56, R57, R398). -/
def aqCfgWrite (f : FnId) (w : Wr) (d : Dev) : Dev :=
  if !fnExists d f || (getFn d f).pci.d3 || (meterHold d && wouldEnable w (getFn d f)) then d
  else updFn f (halves aqCfgLow aqCfgHigh w) d

/-- AQ_CFG_WRITE (R56, R57). -/
def execAqCfgWrite (f : FnId) (w : Wr) (s : State) : Host.Outcome State Fault Refusal := lift0 (aqCfgWrite f w) s

/-- A write of ACQ_CFG (R56, R57). -/
def acqCfgWrite (f : FnId) (w : Wr) (d : Dev) : Dev :=
  if fnExists d f && !(getFn d f).pci.d3 then updFn f (halves acqCfgLow acqCfgHigh w) d else d

/-- ACQ_CFG_WRITE (R56, R57). -/
def execAcqCfgWrite (f : FnId) (w : Wr) (s : State) : Host.Outcome State Fault Refusal := lift0 (acqCfgWrite f w) s

/-! ### Descriptor fetches (R66, R67) -/

/-- The bad descriptor's own completion (R67). -/
def badDesc (f : FnId) (n q : Nat) (e : Option Desc) (s : Status) (d : Dev) : Dev :=
  postCqe f q false
    { userCtx := (e.map (·.userCtx)).getD 0, opcode := BitVec.ofNat 8 ((e.map (·.opcode)).getD 0), status := s,
      queue := BitVec.ofNat 16 n } d

/-- Complete descriptors fetched beyond a bad one with FLUSHED, in ring order (R67). -/
def flushDescs (f : FnId) (n q : Nat) : List FetchRes → Dev → Dev
  | [], d => d
  | .entry e :: rest, d => flushDescs f n q rest (badDesc f n q (some e) .flushed d)
  | .failed _ :: rest, d => flushDescs f n q rest d

/-- Halt a submission queue and say so (R67). -/
def haltSq (f : FnId) (n : Nat) (s : Status) (d : Dev) : Dev :=
  updFn f (fun x => { x with sqs := tmod x.sqs n fun q => { q with halted := some s } }) d

/-- SQ_HALTED (R67). -/
def postHalted (f : FnId) (r : RingRef) (s : Status) (d : Dev) : Dev :=
  postEvent f .sqHalted (ringObject r) ((statusCode s).setWidth 64) 0 d

/-- A failed fetch is told and recorded (R83). -/
def fetchFault (f : FnId) (aer : Nat) (d : Dev) : Dev := pcieError f aer d

/-- So is each failed one of the slots fetched beyond a bad one (R83). -/
def fetchFaults (f : FnId) : List FetchRes → Dev → Dev
  | [], d => d
  | .entry _ :: rest, d => fetchFaults f rest d
  | .failed aer :: rest, d => fetchFaults f rest (fetchFault f aer.val d)

/-- The slots fetched beyond the one at the consumed count: none past the produced count (R66). -/
def beyond (p c : Word32) (rest : List FetchRes) : List FetchRes := rest.take ((p - c).toNat - 1)

/-- When the doorbell that covers the next slot was accepted (R471 stage 0). -/
def dbTime (q : Sq) (now : Word64) : Word64 :=
  ((q.dbT.find? fun y => decide ((y.1 - q.c).toNat - 1 < 2 ^ 31 ∧ y.1 ≠ q.c)).map (·.2)).getD now

/-- The consumed count is written back once it has advanced by 16, or nothing is left to fetch (R66).
(DESIGN CHOICE, log entry 130) -/
def wbSq (f : FnId) (n : Nat) (d : Dev) : Dev :=
  match tget (getFn d f).sqs n with
  | none => d
  | some q => if q.c = q.p || decide (16 ≤ (q.c - q.lastWb).toNat) then writeBack f n d else d

/-- Copy fetched slots of a submission queue one by one (R66, R67). -/
def fetchSq (f : FnId) (n : Fin 65536) : List FetchRes → Dev → Dev
  | [], d => d
  | r :: rest, d =>
    match tget (getFn d f).sqs n.val with
    | none => d
    | some q =>
      if q.c = q.p then d
      else
        match r with
        | .failed aer =>
          let rest := beyond q.p q.c rest
          postHalted f (.sq n) .ringReadError (fetchFaults f rest (flushDescs f n.val q.cq rest
            (badDesc f n.val q.cq none .ringReadError (haltSq f n.val .ringReadError (fetchFault f aer.val d)))))
        | .entry e =>
          if e.seq = q.c.toNat % 256 then
            fetchSq f n rest (wbSq f n.val (updFn f (fun x => { x with sqs := tput x.sqs n.val { q with
              c := q.c + 1, fetched := q.fetched ++ [{ cnt := q.c, d := e, t0 := d.clk.tsc, tdb := dbTime q d.clk.tsc }] } }) d))
          else
            let rest := beyond q.p q.c rest
            let later := rest.takeWhile fun r => match r with | .entry _ => true | .failed _ => false
            postHalted f (.sq n) .sqSeqMismatch (fetchFaults f rest
              (flushDescs f n.val q.cq later (badDesc f n.val q.cq (some e) .sqSeqMismatch
                (updFn f (fun x => { x with sqs := tput x.sqs n.val { q with
                  c := q.c + 1 + BitVec.ofNat 32 later.length, halted := some .sqSeqMismatch } }) d))))

/-- The same for the admin ring. -/
def wbAq (f : FnId) (d : Dev) : Dev :=
  let x := getFn d f
  if x.aqC ≠ x.aqLastWb ∧ (x.aqC = x.aqP ∨ 16 ≤ (x.aqC - x.aqLastWb).toNat) then
    updFn f (fun x => { x with aqLastWb := x.aqC }) (hostWrite f false x.aqWb.toNat (leBytes 4 x.aqC.toNat) false d)
  else d

/-- The completion of an admin entry that is not carried out (R67). -/
def badAdmin (f : FnId) (e : Option Desc) (s : Status) (d : Dev) : Dev :=
  postAcq f { status := s, opcode := BitVec.ofNat 8 ((e.map (·.opcode)).getD 0), queue := (e.map (·.cmdId)).getD 0 } d

/-- Copy fetched slots of the admin ring one by one (R66, R67). -/
def fetchAq (f : FnId) : List FetchRes → Dev → Dev
  | [], d => d
  | r :: rest, d =>
    let x := getFn d f
    if x.aqC = x.aqP then d
    else
      let flush := fun (rest : List FetchRes) d => rest.foldl (fun d r => match r with
        | .entry e => badAdmin f (some e) .flushed d
        | .failed _ => d) d
      match r with
      | .failed aer =>
        let rest := beyond x.aqP x.aqC rest
        postHalted f .admin .ringReadError (fetchFaults f rest (flush rest (badAdmin f none .ringReadError
          (setFn f { getFn (fetchFault f aer.val d) f with aqHalted := some .ringReadError } (fetchFault f aer.val d)))))
      | .entry e =>
        if e.seq = x.aqC.toNat % 256 then
          fetchAq f rest (wbAq f (setFn f { x with aqC := x.aqC + 1, admFetched := x.admFetched ++ [e] } d))
        else
          let rest := beyond x.aqP x.aqC rest
          let later := rest.takeWhile fun r => match r with | .entry _ => true | .failed _ => false
          postHalted f .admin .sqSeqMismatch (fetchFaults f rest (flush later (badAdmin f (some e) .sqSeqMismatch
            (setFn f { x with aqC := x.aqC + 1 + BitVec.ofNat 32 later.length, aqHalted := some .sqSeqMismatch } d))))

/-- DESCRIPTOR_FETCH (R66, R67, R79): the slots read from a ring, in order. Where the ring may not be fetched now,
nothing happens. -/
def execDescriptorFetch (f : FnId) (r : RingRef) (res : List FetchRes) (s : State) : Host.Outcome State Fault Refusal :=
  lift (fun d =>
    let x := getFn d f
    match r with
    | .sq n =>
      match tget x.sqs n.val with
      | none => d
      | some q => if q.halted.isSome || fnSuspended d f then d else wbSq f n.val (fetchSq f n res d)
    | .admin =>
      if !x.aqEnable || x.aqHalted.isSome || x.inFlr || x.fenced || !x.acqSlot.isEmpty || !fnExists d f
          || d.mode = .quarantine || d.boot.phase ≠ .running then d
      else wbAq f (fetchAq f res d)) s

/-! ### Timers of completion queues (R69, R78) -/

/-- CQ_STALL_TIMEOUT (R78 steps 4 and 5). -/
def execCqStallTimeout (f : FnId) (n : Fin 65536) (s : State) : Host.Outcome State Fault Refusal :=
  lift (fun d =>
    match tget (getFn d f).cqs n.val with
    | none => d
    | some q =>
      if !cqFull q || q.stalled then d
      else
        postEvent f .cqStalled (BitVec.ofNat 32 n.val) (BitVec.ofNat 64 q.buf.length) 0
          (updFn f (fun x => { x with cqs := tput x.cqs n.val { q with stalled := true, stallPosted := canPost d f 0 } }) d)) s

/-- COAL_TIME_EXPIRY (R69): COAL_TIME has elapsed since the oldest pending entry. (DESIGN CHOICE, log entry 30) -/
def execCoalTimeExpiry (f : FnId) (n : Fin 65536) (s : State) : Host.Outcome State Fault Refusal :=
  lift (fun d =>
    match tget (getFn d f).cqs n.val with
    | none => d
    | some q =>
      if q.ien && decide (0 < q.pend ∧ 0 < q.coalTime) then
        fire f q.vec (updFn f (fun x => { x with cqs := tput x.cqs n.val { q with pend := 0 } }) d)
      else d) s

end Sys2Proof.Machine
end

