-- ==== Sys2Proof/Machine/Admin.lean ====
section
/-!
DEFINITION. Admin commands: the order of their checks (R521), their completions (R58 to R60), and the commands on
queues, connections, match contexts, regions, translations, trees, shapers and functions (R61).
-/
namespace Sys2Proof.Machine

open Sys2Proof

/-! ### The shared course of an admin command (R60, R521) -/

/-- What a command's step came to: its completion, or an effect that takes time and completes later (R60). -/
inductive AdmRes where
  | done (s : Status) (result result2 : Word64) (d : Dev)
  | later (ids : List Nat) (d : Dev)

/-- Who may issue a command (R61). -/
inductive Perm where
  | any
  | pfForItsFns
  | pfForItsVfs
  | pfOrSelf
  | owner
deriving DecidableEq, Repr

/-- The function a command acts on (R59). -/
def targetOf (f : FnId) (e : Desc) : FnId := if e.targetFn = 0 then f else { port := f.port, num := Fin.ofNat 256 e.targetFn }

/-- Step 2 of R521: the issuer may use the opcode on its target (R61). (DEDUCED, log entry 41) -/
def permitted (d : Dev) (f : FnId) (e : Desc) (p : Perm) : Bool :=
  let own := decide (f.num.val ≠ 0 → e.targetFn = 0)
  own && match p with
    | .any | .pfOrSelf => true
    | .pfForItsFns => f.num.val == 0
    | .pfForItsVfs => f.num.val == 0 && e.targetFn != 0
    | .owner => isOwner d f

/-- Commands a drained host domain, Drain mode, and a meter hold refuse as new activations (R265, R398). -/
def activates (op : Nat) : Bool := op == 0x01 || op == 0x10 || op == 0x18 || op == 0x20 || op == 0x28

/-- Step 4 of R521. -/
def admState (d : Dev) (f : FnId) (op : Nat) : Option Status :=
  if (portDrained d f.port && activates op) || modeRefusesAdmin d op then some .modeRefused
  else if meterHold d && meterRefusesAdmin op then some .meterRefused
  else none

/-- A connection of the function a command acts on (R522). -/
def connFor (d : Dev) (t : FnId) (n : Nat) : Option Conn :=
  match getConn d n with
  | some c => if c.fn = t then some c else none
  | none => none

/-- The connection state every completion of MODIFY_CONN returns (R117). -/
def connWords (c : Conn) : Word64 × Word64 :=
  (BitVec.ofNat 64 (c.una.toNat + c.next.toNat * 2 ^ 24 + connStCode c.st * 2 ^ 48),
   BitVec.ofNat 64 (c.base.toNat + c.retries * 2 ^ 24 + c.rnr * 2 ^ 28))

/-- What the completion returns beside a status that ends a command before its own checks: of MODIFY_CONN the state of the
connection, whatever the status (R117). -/
def earlyWords (d : Dev) (t : FnId) (e : Desc) : Word64 × Word64 :=
  if e.opcode = 0x12 then (match connFor d t (e.f 0x08 0 24) with | some c => connWords c | none => (0, 0)) else (0, 0)

/-- A status that ends a command before its own checks (R521). -/
def sayEarly (st : Status) (t : FnId) (e : Desc) (d : Dev) : AdmRes :=
  let w := earlyWords d t e
  .done st w.1 w.2 d

/-- The status of a command its issuer may not use: NOT_PERMITTED, or OWNERSHIP where what it acts on is fabric-owned, as the
resources of FABRIC_MGMT's commands are (R61, R370, R521). (DEDUCED, log entry 41) -/
def refusal521 (f : FnId) (e : Desc) (p : Perm) : Status :=
  if p = .owner ∧ e.opcode = 0x49 ∧ (f.num.val ≠ 0 → e.targetFn = 0) then .ownership else .notPermitted

/-- Commands a parked function still takes (R157). -/
def parkAdmits (op : Nat) : Bool := op == 0x39 || op == 0x42 || op == 0x08

/-- Steps 1 to 5 of R521, then the command's own step. (DESIGN CHOICE, log entry 129) -/
def admStep (f : FnId) (e : Desc) (p : Perm) (body : FnId → Dev → AdmRes) (d : Dev) : AdmRes :=
  let t := targetOf f e
  if !permitted d f e p then .done (refusal521 f e p) 0 0 d
  else if !fnExists d t then .done .notFound 0 0 d
  else
    match admState d t e.opcode with
    | some s => sayEarly s t e d
    | none =>
      if (getFn d t).inFlr || ((getFn d t).park ≠ .no && !parkAdmits e.opcode) then sayEarly .busy t e d
      else body t d

/-- Carry out an admin command of a function, if it is the next one in its ring; while the sequencer is held, it waits in its
place (R60). -/
def runAdmin (i : Instr) (op : Nat) (p : Perm) (f : FnId) (e : Desc) (body : FnId → Dev → AdmRes) (d : Dev) : Dev :=
  if e.opcode ≠ op || !admTurn d f e then d
  else if seqHeld d then (if d.svc.cmds.any (·.row == some i) then d else queueRow i d)
  else
    let d1 := updFn f (fun x => { x with admFetched := x.admFetched.drop 1 }) d
    match admStep f e p body d1 with
    | .done s r r2 d2 => postAcq f (admCqe e s r r2) d2
    | .later ids d2 =>
      let w : AdmWait := { cmdId := e.cmdId, op := op, target := targetOf f e, arg := e, ids := ids }
      updFn f (fun x => { x with admWait := some w }) d2

/-- An admin command as a command of the device. -/
def admin (i : Instr) (op : Nat) (p : Perm) (f : FnId) (e : Desc) (body : FnId → Dev → AdmRes) (s : State) :
    Host.Outcome State Fault Refusal := lift (runAdmin i op p f e body) s

/-- A status and nothing else. -/
def say (s : Status) (d : Dev) : AdmRes := .done s 0 0 d

/-- The first status of a list of checks that applies. -/
def firstOf : List (Bool × Status) → Option Status
  | [] => none
  | (b, s) :: rest => if b then some s else firstOf rest

/-- Make the checks, then act. -/
def guard (checks : List (Bool × Status)) (act : AdmRes) (d : Dev) : AdmRes :=
  match firstOf checks with
  | some s => say s d
  | none => act

/-- A quota of a virtual function is used up (R52). -/
def overQuota (cap : Option Nat) (used : Nat) : Bool := match cap with | some c => decide (c ≤ used) | none => false

/-- The quotas in force for a function: a physical function has none. -/
def quotaOf (d : Dev) (f : FnId) : Quota := if f.num.val = 0 then {} else (getFn d f).quota

/-- Devices totals of a kind of object over the functions. -/
def totalOf (d : Dev) (g : Fn → Nat) : Nat := (d.fns.map fun e => g e.2).sum

/-- Connections of a function. -/
def connsOf (d : Dev) (t : FnId) : Nat := (d.xpt.conns.filter fun c => decide (c.2.fn = t)).length

/-- Match contexts of a function. -/
def mctxsOf (d : Dev) (t : FnId) : Nat := (d.mtc.ctxs.filter fun c => decide (c.2.fn = t)).length

/-- Regions of a function. -/
def regionsOf (d : Dev) (t : FnId) : Nat := (d.xl.regions.filter fun r => decide (r.2.fn = t)).length

/-- Queues of a function. -/
def queuesOf (d : Dev) (t : FnId) : Nat := (getFn d t).sqs.length + (getFn d t).cqs.length + (getFn d t).eqs.length

/-- HBM that so many connections, match contexts, regions and queues take; nothing takes none. (DESIGN CHOICE, log entry 17) -/
def hbmOf (c m r q : Nat) : Nat := if c + m + r + q = 0 then 0 else (Config.hbmBytes c m r q).toNat

/-- HBM allocated to a function (R52, R388): what its objects take; a parked function's is freed (R156). -/
def hbmUse (d : Dev) (t : FnId) : Nat :=
  if (getFn d t).park = .parked then 0 else hbmOf (connsOf d t) (mctxsOf d t) (regionsOf d t) (queuesOf d t)

/-- FUNC_GIB in force, in bytes (R486). -/
def funcPart (d : Dev) : Nat := fld (regInForce d 0x340 0x400002) 16 8 * 2 ^ 30

/-- HBM of the function partition that the other functions hold. -/
def hbmOthers (d : Dev) (t : FnId) : Nat := (((allFns d).filter fun f => decide (f ≠ t)).map (hbmUse d)).sum

/-- What the function's objects would take is beyond its HBM quota, or beyond the free part of the function partition
(R52, R486). -/
def overHbm (d : Dev) (t : FnId) (bytes : Nat) : Bool :=
  decide (funcPart d < hbmOthers d t + bytes)
  || match (quotaOf d t).hbm with | some c => decide (c < bytes) | none => false

/-- One more queue would. -/
def overHbmQ (d : Dev) (t : FnId) : Bool :=
  overHbm d t (hbmOf (connsOf d t) (mctxsOf d t) (regionsOf d t) (queuesOf d t + 1))

/-! ### Queues (R62, R80) -/

/-- LINK names a half the port does not have (R62). -/
def badLink (d : Dev) (f : FnId) (link : Bool) : Bool := link && !(getHp d f.port).bifurcated

/-- CREATE_SQ (R62). -/
def execCreateSq (f : FnId) (e : Desc) (s : State) : Host.Outcome State Fault Refusal :=
  admin (.createSq f e) 0x01 .any f e (fun t d =>
    let x := getFn d t
    let n := e.f 0x18 0 16
    let log2 := e.f 0x18 16 5
    let cq := e.f 0x18 24 16
    let link := bit e.w3 40
    let q : Sq := { ring := e.w1, wb := e.w2, log2 := log2, cls := e.f 0x18 21 3, cq := cq, link := link }
    guard [(decide (log2 < 4 ∨ 16 < log2) || decide (e.w1.toNat % 4096 ≠ 0) || decide (e.w2.toNat % 8 ≠ 0) || badLink d t link,
            .invalidParam),
           (thas x.sqs n, .numberInUse),
           (!thas x.cqs cq, .notFound),
           (overQuota (quotaOf d t).sq x.sqs.length || decide (65536 ≤ totalOf d (·.sqs.length)) || overHbmQ d t, .noResources)]
      (say .success (setFn t { x with sqs := tput x.sqs n q } d)) d) s

/-- DESTROY_SQ (R62, R80): C = P and nothing of the queue in flight; a completion that waits in a full queue's buffer is not.
(DESIGN CHOICE, log entry 134) -/
def execDestroySq (f : FnId) (e : Desc) (s : State) : Host.Outcome State Fault Refusal :=
  admin (.destroySq f e) 0x02 .any f e (fun t d =>
    let x := getFn d t
    let n := e.f 0x18 0 16
    match tget x.sqs n with
    | none => say .notFound d
    | some q =>
      if q.halted.isSome || decide (q.c ≠ q.p) || !q.fetched.isEmpty || !q.inflight.isEmpty then say .busy d
      else say .success (setFn t { x with sqs := tdel x.sqs n } d)) s

/-- CREATE_CQ (R62). -/
def execCreateCq (f : FnId) (e : Desc) (s : State) : Host.Outcome State Fault Refusal :=
  admin (.createCq f e) 0x03 .any f e (fun t d =>
    let x := getFn d t
    let n := e.f 0x18 0 16
    let log2 := e.f 0x18 16 5
    let st := e.f 0x18 48 16
    let link := bit e.w4 1
    let q : Cq :=
      { ring := e.w1, log2 := log2, vec := e.f 0x18 21 11, coalCount := e.f 0x18 32 8, coalTime := e.f 0x18 40 8,
        stallTo := if st = 0 then 1953 else st, ien := bit e.w4 0, link := link }
    guard [(decide (log2 < 4 ∨ 20 < log2) || decide (e.w1.toNat % 4096 ≠ 0) || decide (1 ≤ st ∧ st < 98) || badLink d t link,
            .invalidParam),
           (thas x.cqs n, .numberInUse),
           (overQuota (quotaOf d t).cq x.cqs.length || decide (65536 ≤ totalOf d (·.cqs.length)) || overHbmQ d t, .noResources)]
      (say .success (setFn t { x with cqs := tput x.cqs n q } d)) d) s

/-- Something is bound to a completion queue (R80). -/
def cqBound (d : Dev) (t : FnId) (n : Nat) : Bool :=
  (getFn d t).sqs.any (fun q => q.2.cq == n)
  || d.xpt.conns.any (fun c => decide (c.2.fn = t) && c.2.cq == n)
  || d.mtc.ctxs.any fun x => decide (x.2.fn = t) && x.2.posted.any fun p => p.cq == n

/-- DESTROY_CQ (R62, R80). -/
def execDestroyCq (f : FnId) (e : Desc) (s : State) : Host.Outcome State Fault Refusal :=
  admin (.destroyCq f e) 0x04 .any f e (fun t d =>
    let x := getFn d t
    let n := e.f 0x18 0 16
    guard [(!thas x.cqs n, .notFound), (cqBound d t n, .busy)]
      (say .success (setFn t { x with cqs := tdel x.cqs n } d)) d) s

/-- CREATE_EQ (R62). -/
def execCreateEq (f : FnId) (e : Desc) (s : State) : Host.Outcome State Fault Refusal :=
  admin (.createEq f e) 0x05 .any f e (fun t d =>
    let x := getFn d t
    let n := e.f 0x18 0 12
    let log2 := e.f 0x18 16 5
    let link := bit e.w3 33
    let q : Eq := { ring := e.w1, log2 := log2, vec := e.f 0x18 21 11, ien := bit e.w3 32, link := link }
    guard [(decide (log2 < 4 ∨ 16 < log2) || decide (e.w1.toNat % 4096 ≠ 0) || badLink d t link, .invalidParam),
           (thas x.eqs n, .numberInUse),
           (overQuota (quotaOf d t).eq x.eqs.length || decide (4096 ≤ totalOf d (·.eqs.length)) || overHbmQ d t, .noResources)]
      (say .success (setFn t { x with eqs := tput x.eqs n q } d)) d) s

/-- DESTROY_EQ (R62, R80). -/
def execDestroyEq (f : FnId) (e : Desc) (s : State) : Host.Outcome State Fault Refusal :=
  admin (.destroyEq f e) 0x06 .any f e (fun t d =>
    let x := getFn d t
    let n := e.f 0x18 0 16
    guard [(!thas x.eqs n, .notFound), (x.subs.any fun c => c.2 == n, .busy)]
      (say .success (setFn t { x with eqs := tdel x.eqs n } d)) d) s

/-- The subscriptions after SUBSCRIBE_EVENTS: each class named is directed, or directed nowhere (R62). -/
def subscribe (classes : Nat) (eq : Option Nat) (subs : Tbl Nat) : Tbl Nat :=
  (List.range 7).foldl (fun t c => if classes.testBit c then (match eq with | some q => tput t c q | none => tdel t c) else t) subs

/-- SUBSCRIBE_EVENTS (R62, R76). -/
def execSubscribeEvents (f : FnId) (e : Desc) (s : State) : Host.Outcome State Fault Refusal :=
  admin (.subscribeEvents f e) 0x07 .any f e (fun t d =>
    let x := getFn d t
    let n := e.f 0x18 0 12
    let un := bit e.w3 23
    guard [(!un && !thas x.eqs n, .notFound)]
      (say .success (setFn t { x with subs := subscribe (e.f 0x18 16 7) (if un then none else some n) x.subs } d)) d) s

/-- The results of QUERY_QUEUE: counts, then state and halt reason (R62, R79). -/
def queryWords (p c : Word32) (st : Nat) (reason : Byte) : Word64 × Word64 :=
  (BitVec.ofNat 64 (p.toNat + c.toNat * 2 ^ 32), BitVec.ofNat 64 (st + reason.toNat * 256))

/-- QUERY_QUEUE (R62). -/
def execQueryQueue (f : FnId) (e : Desc) (s : State) : Host.Outcome State Fault Refusal :=
  admin (.queryQueue f e) 0x08 .any f e (fun t d =>
    let x := getFn d t
    let n := e.f 0x18 0 16
    let ans := fun (r : Option (Word64 × Word64)) => match r with
      | none => say .notFound d
      | some w => AdmRes.done .success w.1 w.2 d
    match e.f 0x18 16 2 with
    | 0 => ans ((tget x.sqs n).map fun q => queryWords q.p q.c (if q.halted.isSome then 2 else 1)
        ((q.halted.map statusCode).getD 0))
    | 1 => ans ((tget x.cqs n).map fun q => queryWords q.w q.h (if cqFull q then 3 else 1) 0)
    | 2 => ans ((tget x.eqs n).map fun q => queryWords q.w q.h (if ringFree q.log2 q.w q.h = 0 then 3 else 1) 0)
    | _ => say .invalidParam d) s

/-! ### Connections (R113 to R117) -/

/-- One millisecond has passed since a release (R113). -/
def quarantined (d : Dev) (t : Option Nat) : Bool := match t with | some t => decide (d.clk.now < t + 1000000) | none => false

/-- The connection number CREATE_CONN assigns (R113, R187). -/
def freeConn (d : Dev) : Option Nat :=
  leastFrom (fun n => !thas d.xpt.conns n && !quarantined d ((tget d.xpt.kept n).map (·.freed)) && !slotLost d (connSlot n))
    (2 ^ 24) 0

/-- CREATE_CONN (R113, R114). -/
def execCreateConn (f : FnId) (e : Desc) (s : State) : Host.Outcome State Fault Refusal :=
  admin (.createConn f e) 0x10 .any f e (fun t d =>
    let x := getFn d t
    let rto := e.f 0x18 32 16
    let cq := e.f 0x18 0 16
    let peer : Ep := BitVec.ofNat 26 (e.f 0x08 0 26)
    match firstOf [(decide (1 ≤ rto ∧ rto < 60), .invalidParam), (decide (x.domain = 0), .domainUnset),
                   (!thas x.cqs cq, .notFound), (overQuota (quotaOf d t).conn (connsOf d t)
                    || overHbm d t (hbmOf (connsOf d t + 1) (mctxsOf d t) (regionsOf d t) (queuesOf d t)), .noResources)] with
    | some st => say st d
    | none =>
      match freeConn d with
      | none => say .noResources d
      | some n =>
        let rl := e.f 0x18 20 4
        let c : Conn :=
          { fn := t, peer := peer, peerConn := BitVec.ofNat 24 (e.f 0x08 32 24), cq := cq, strict := bit e.w3 16
            tc := BitVec.ofNat 3 (e.f 0x18 17 3), retryLimit := if rl = 0 then 7 else rl, rnrLimit := e.f 0x18 24 4
            rto := if rto = 0 then 100 else rto, rnrMin := e.f 0x18 48 8
            una := BitVec.ofNat 24 (e.f 0x10 0 24), next := BitVec.ofNat 24 (e.f 0x10 0 24)
            assign := BitVec.ofNat 24 (e.f 0x10 0 24), base := BitVec.ofNat 24 (e.f 0x10 24 24)
            lastAck := BitVec.ofNat 24 (e.f 0x10 24 24) }
        let d1 := { d with xpt := { d.xpt with kept := tdel d.xpt.kept n } }
        .done .success (BitVec.ofNat 64 n) 0 (loadCtx n (setConn n c
          (updFn t (fun x => { x with resetPeers := x.resetPeers.filter (· != peer) }) d1)))) s

/-- DESTROY_CONN's condition (R116). -/
def connIdle (d : Dev) (n : Nat) (c : Conn) : Bool :=
  c.st = .error ||
  (c.st = .active && decide (c.una = c.next) && c.ops.isEmpty && c.held.isEmpty && !executing d n
   && !(d.mtc.recs.any fun r => decide (r.conn = some n) && decide (r.st = .pending) && r.gone.isNone))

/-- Release a connection number; its PEER and PEER_CONN are kept with it (R113, R147). -/
def releaseConn (n : Nat) (c : Conn) (byReset : Bool) (d : Dev) : Dev :=
  { d with
    xpt := { d.xpt with
      conns := tdel d.xpt.conns n
      kept := tput d.xpt.kept n
        { fn := c.fn, peer := c.peer, peerConn := c.peerConn, byReset := byReset, freed := d.clk.now, destDownAt := c.destDownAt }
      onDie := d.xpt.onDie.filter (· != n)
      fetching := d.xpt.fetching.filter (· != n)
      writing := d.xpt.writing.filter (·.1 != n)
      miss := d.xpt.miss.filter (·.1 != n) }
    mtc := { d.mtc with recs := d.mtc.recs.map fun r => if r.conn = some n then { r with gone := some (r.gone.getD .connError) } else r } }

/-- DESTROY_CONN (R116, R522); receives of an active connection that still lack bytes end. (DEDUCED, log entry 66) -/
def execDestroyConn (f : FnId) (e : Desc) (s : State) : Host.Outcome State Fault Refusal :=
  admin (.destroyConn f e) 0x11 .any f e (fun t d =>
    let n := e.f 0x08 0 24
    match connFor d t n with
    | none => say .notFound d
    | some c => if connIdle d n c then say .success (releaseConn n c false (if c.st = .error then d else breakMsgs n .connError d)) else say .busy d) s

/-- The fields MASK selects, replaced (R117). -/
def modifyConn (e : Desc) (c : Conn) : Conn :=
  let m := e.f 0x20 0 6
  let rto := e.f 0x18 32 16
  let rl := e.f 0x18 20 4
  { c with
    strict := if m.testBit 0 then bit e.w3 16 else c.strict
    tc := if m.testBit 1 then BitVec.ofNat 3 (e.f 0x18 17 3) else c.tc
    retryLimit := if m.testBit 2 then (if rl = 0 then 7 else rl) else c.retryLimit
    rnrLimit := if m.testBit 3 then e.f 0x18 24 4 else c.rnrLimit
    rto := if m.testBit 4 then (if rto = 0 then 100 else rto) else c.rto
    rnrMin := if m.testBit 5 then e.f 0x18 48 8 else c.rnrMin }

/-- MODIFY_CONN (R117). -/
def execModifyConn (f : FnId) (e : Desc) (s : State) : Host.Outcome State Fault Refusal :=
  admin (.modifyConn f e) 0x12 .any f e (fun t d =>
    let n := e.f 0x08 0 24
    let m := e.f 0x20 0 6
    let rto := e.f 0x18 32 16
    let bad := m.testBit 4 && decide (1 ≤ rto ∧ rto < 60)
    match connFor d t n with
    | none => say (if bad then .invalidParam else .notFound) d
    | some c =>
      let st := if bad then Status.invalidParam
        else if (m.testBit 0 || m.testBit 1) && decide (c.una ≠ c.next) then .busy
        else .success
      let c1 := if st = .success then modifyConn e c else c
      .done st (connWords c1).1 (connWords c1).2 (setConn n c1 d)) s

/-! ### Match contexts (R163, R165) -/

/-- The number CREATE_MATCH_CTX assigns (R163). -/
def freeMctx (d : Dev) : Option Nat :=
  leastFrom (fun m => !thas d.mtc.ctxs m && !quarantined d (tget d.mtc.released m) && !slotLost d (mctxSlot m)) 65536 0

/-- CREATE_MATCH_CTX (R163). -/
def execCreateMatchCtx (f : FnId) (e : Desc) (s : State) : Host.Outcome State Fault Refusal :=
  admin (.createMatchCtx f e) 0x18 .any f e (fun t d =>
    let mp := e.f 0x08 0 23
    let mu := e.f 0x10 0 23
    let mb := e.f 0x10 24 24
    match firstOf [(decide (4194304 < mp ∨ 4194304 < mu ∨ 8388608 < mb), .invalidParam),
                   (decide ((getFn d t).domain = 0), .domainUnset),
                   (overQuota (quotaOf d t).mctx (mctxsOf d t) || decide (65536 ≤ d.mtc.ctxs.length)
                    || overHbm d t (hbmOf (connsOf d t) (mctxsOf d t + 1) (regionsOf d t) (queuesOf d t)), .noResources)] with
    | some st => say st d
    | none =>
      match freeMctx d with
      | none => say .noResources d
      | some m =>
        .done .success (BitVec.ofNat 64 m) 0 (setMctx m { fn := t, maxPosted := mp, maxUnexp := mu, maxBlocks := mb }
          { d with mtc := { d.mtc with released := tdel d.mtc.released m } })) s

/-- Send a rendezvous finish with REMOTE_ACCESS for an unexpected rendezvous request (R165). (DESIGN CHOICE, log entry 74) -/
def refuseRts (r : MsgRec) (d : Dev) : Dev :=
  let n := r.conn.getD 0
  match getConn d n with
  | none => d
  | some c =>
    if !r.rts || r.gone.isSome || decide (c.st ≠ .active) then d
    else startOp n { kind := .finish, fn := r.fn, rtsMsn := r.msn, finStatus := .remoteAccess,
                     desc := { w5 := BitVec.ofNat 64 (r.mctx * 2 ^ 32) } } d

/-- Discard every message of a context that no receive has taken; `tell` sends the rendezvous finishes (R165, R192). -/
def discardMsgs (m : Nat) (tell : Bool) (d : Dev) : Dev :=
  let gone := d.mtc.recs.filter fun r => r.mctx == m && decide (r.st ≠ .matched)
  let d1 := if tell then gone.foldl (fun d r => if r.st = .unexpected then refuseRts r d else d) d else d
  { d1 with mtc := { d1.mtc with recs := d1.mtc.recs.filter fun r => !(r.mctx == m && decide (r.st ≠ .matched)) } }

/-- Complete every posted entry of a context, in POST_SEQ order (R165, R192). -/
def flushPosted (m : Nat) (s : Status) (d : Dev) : Dev :=
  match getMctx d m with
  | none => d
  | some x => x.posted.foldl (fun d p => completePosted p s d) (setMctx m { x with posted := [] } d)

/-- Destroy a match context in R165's order. -/
def destroyMctx (m : Nat) (tell : Bool) (d : Dev) : Dev :=
  let d1 := discardMsgs m tell (flushPosted m .matchCtxInvalid d)
  { d1 with mtc := { d1.mtc with ctxs := tdel d1.mtc.ctxs m, released := tput d1.mtc.released m d1.clk.now } }

/-- DESTROY_MATCH_CTX (R165, R522). -/
def execDestroyMatchCtx (f : FnId) (e : Desc) (s : State) : Host.Outcome State Fault Refusal :=
  admin (.destroyMatchCtx f e) 0x19 .any f e (fun t d =>
    let m := e.f 0x08 0 16
    match getMctx d m with
    | none => say .notFound d
    | some x =>
      if x.fn ≠ t then say .notFound d
      else if d.mtc.recs.any (fun r => r.mctx == m && decide (r.st = .matched) && !r.closed) then say .busy d
      else say .success (destroyMctx m true d)) s

/-! ### Regions and translations (R87, R90, R91, R95, R107, R108) -/

/-- The index and generation REGISTER_REGION gives (R87): never-issued indices first, then those freed longest ago, the
lowest first among those freed in one tick. -/
def nextIndex (d : Dev) : Option Nat :=
  if d.xl.fresh < 2 ^ 24 then some d.xl.fresh
  else (d.xl.freed.foldl (fun best e => match best with
    | none => some e
    | some b => if e.1 < b.1 ∨ (e.1 = b.1 ∧ e.2 < b.2) then some e else some b) none).map (·.2)

/-- The generation after the one last issued with an index (R87). -/
def nextGen (d : Dev) (i : Nat) : Nat :=
  match tget d.xl.lastGen i with
  | none => 1
  | some g => if g = 255 then 1 else g + 1

/-- REGISTER_REGION (R87, R88, R90). -/
def execRegisterRegion (f : FnId) (e : Desc) (s : State) : Host.Outcome State Fault Refusal :=
  admin (.registerRegion f e) 0x20 .any f e (fun t d =>
    let va := e.w1.toNat
    let len := e.w2.toNat
    let asn := e.f 0x18 0 8
    match firstOf [(decide (2 ^ 48 ≤ va ∨ len = 0 ∨ 2 ^ 48 < va + len), .invalidParam),
                   (!thas (getFn d t).roots asn, .notFound),
                   (overQuota (quotaOf d t).region (regionsOf d t)
                    || overHbm d t (hbmOf (connsOf d t) (mctxsOf d t) (regionsOf d t + 1) (queuesOf d t)), .noResources)] with
    | some st => say st d
    | none =>
      match nextIndex d with
      | none => say .noResources d
      | some i =>
        let g := nextGen d i
        .done .success (BitVec.ofNat 64 (i * 256 + g)) 0 { d with xl := { d.xl with
          regions := tput d.xl.regions i
            { fn := t, gen := g, va := va, len := len, asn := asn, lw := bit e.w3 8, rr := bit e.w3 9, rw := bit e.w3 10
              ra := bit e.w3 11, noMarks := bit e.w3 12 }
          lastGen := tput d.xl.lastGen i g
          fresh := if d.xl.fresh < 2 ^ 24 then d.xl.fresh + 1 else d.xl.fresh
          freed := d.xl.freed.filter fun x => x.2 != i } }) s

/-- The running accesses that p picks out, by the model's number for them. -/
def outstanding (d : Dev) (p : Access → Bool) : List Nat := ((running d).filter p).map (·.id)

/-- Every one of these accesses has ended. -/
def allEnded (d : Dev) (ids : List Nat) : Bool := ids.all fun i => !((running d).any fun a => a.id == i)

/-- The walks that p picks out have started from entries that are removed: what they bring back is not cached, and their pages
are looked up afresh (R110). -/
def staleWalks (p : Access → Bool) (d : Dev) : Dev :=
  { d with xl := { d.xl with walks := d.xl.walks.map fun w => if p w.acc then { w with stale := true } else w } }

/-- Take the suspended local accesses that p picks out away from a function's trap slots and wait list. -/
def takeSuspended (x : Fn) (p : Access → Bool) : List Access × Fn :=
  ((x.traps.flatMap fun t => t.2.waiters.filter p) ++ (x.trapQ.map (·.acc)).filter p,
   { x with traps := x.traps.map fun t => (t.1, { t.2 with waiters := t.2.waiters.filter fun a => !p a })
            trapQ := x.trapQ.filter fun u => !p u.acc })

/-- DEREGISTER_REGION (R91): steps 1 and 2; step 3 ends with DEREGISTER_REGION_DONE. -/
def execDeregisterRegion (f : FnId) (e : Desc) (s : State) : Host.Outcome State Fault Refusal :=
  admin (.deregisterRegion f e) 0x21 .any f e (fun t d =>
    let key := e.w1.setWidth 32
    match regionOf d t key with
    | none => say .keyInvalid d
    | some _ =>
      let i := keyIndex key
      let d1 := { d with xl := { d.xl with
        regions := tdel d.xl.regions i, freed := d.xl.freed ++ [(d.clk.ticks, i)] } }
      let r := takeSuspended (getFn d1 t) (fun a => a.key == key)
      let d2 := r.1.foldl (fun d a => failSuspended .keyInvalid a d) (setFn t r.2 d1)
      .later (outstanding d2 fun a => a.key == key) d2) s

/-- The later completion of a command whose effect takes time (R60): nothing happens until its condition holds. -/
def admDone (op : Nat) (f : FnId) (ready : AdmWait → Dev → Bool) (fin : AdmWait → Dev → Status × Dev) (d : Dev) : Dev :=
  match (getFn d f).admWait with
  | none => d
  | some w =>
    if w.op ≠ op || !ready w d then d
    else
      let r := fin w (updFn f (fun x => { x with admWait := none }) d)
      postAcq f (admCqe w.arg r.1 0 0) r.2

/-- DEREGISTER_REGION_DONE (R91 step 3): every access already past the key check has finished. -/
def execDeregisterRegionDone (f : FnId) (s : State) : Host.Outcome State Fault Refusal :=
  lift (admDone 0x21 f (fun w d => allEnded d w.ids) fun _ d => (.success, d)) s

/-- Remove the cached translations that p and q pick out, in every cache (R95, R108). -/
def purge (p : Leaf → Bool) (q : Node → Bool) (d : Dev) : Dev :=
  { d with xl := { d.xl with
      tlb := d.xl.tlb.map fun t => (t.1, t.2.filter fun l => !p l)
      wcache := d.xl.wcache.map fun t => (t.1, t.2.filter fun n => !q n)
      l2 := d.xl.l2.filter fun l => !p l } }

/-- SET_TRANSLATION_ROOT (R90, R95): the root is replaced and the address space's translations are removed; it
completes with SET_TRANSLATION_ROOT_DONE. -/
def execSetTranslationRoot (f : FnId) (e : Desc) (s : State) : Host.Outcome State Fault Refusal :=
  admin (.setTranslationRoot f e) 0x22 .any f e (fun t d =>
    let asn := e.f 0x18 0 8
    let root := fld e.w1 12 52 * 4096
    guard [(decide (2 ^ 52 ≤ root), .invalidParam),
           (decide (root = 0) && d.xl.regions.any (fun r => decide (r.2.fn = t) && r.2.asn == asn), .busy)]
      (.later (outstanding d fun a => decide (a.fn = t) && a.asn == asn)
        (staleWalks (fun a => decide (a.fn = t) && a.asn == asn)
         (purge (fun l => decide (l.fn = t) && l.asn == asn) (fun n => decide (n.fn = t) && n.asn == asn)
          (updFn t (fun x => { x with roots := if root = 0 then tdel x.roots asn else tput x.roots asn (BitVec.ofNat 64 root) }) d)))) d) s

/-- SET_TRANSLATION_ROOT_DONE (R95, R110). -/
def execSetTranslationRootDone (f : FnId) (s : State) : Host.Outcome State Fault Refusal :=
  lift (admDone 0x22 f (fun w d => allEnded d w.ids) fun w d =>
    let asn := w.arg.f 0x18 0 8
    (.success, purge (fun l => decide (l.fn = w.target) && l.asn == asn) (fun n => decide (n.fn = w.target) && n.asn == asn) d)) s

/-- A cached leaf lies in the scope of an INVALIDATE (R108). -/
def leafInScope (e : Desc) (t : FnId) (reg : Option Region) (l : Leaf) : Bool :=
  let lo := l.page * 2 ^ pageShift l.level
  let hi := lo + 2 ^ pageShift l.level
  let own := decide (l.fn = t)
  match e.f 0x18 8 2 with
  | 0 => own && l.asn == e.f 0x18 0 8 && decide (e.w1.toNat < hi ∧ lo < e.w1.toNat + e.w2.toNat)
  | 1 => own && (match reg with | some r => l.asn == r.asn && decide (r.va < hi ∧ lo < r.va + r.len) | none => false)
  | 2 => own && (bit e.w3 11 || l.asn == e.f 0x18 0 8)
  | _ => true

/-- A walk-cache entry lies in scope: only with WALK = 1 (R108). -/
def nodeInScope (e : Desc) (t : FnId) (reg : Option Region) (n : Node) : Bool :=
  let lo := n.pfx * 2 ^ pageShift n.level
  let hi := lo + 2 ^ pageShift n.level
  let own := decide (n.fn = t)
  bit e.w3 10 && match e.f 0x18 8 2 with
  | 0 => own && n.asn == e.f 0x18 0 8 && decide (e.w1.toNat < hi ∧ lo < e.w1.toNat + e.w2.toNat)
  | 1 => own && (match reg with | some r => n.asn == r.asn && decide (r.va < hi ∧ lo < r.va + r.len) | none => false)
  | 2 => own && (bit e.w3 11 || n.asn == e.f 0x18 0 8)
  | _ => true

/-- An access lies in the scope of an INVALIDATE. -/
def accInScope (e : Desc) (t : FnId) (reg : Option Region) (a : Access) : Bool :=
  let own := decide (a.fn = t)
  match e.f 0x18 8 2 with
  | 0 => own && a.asn == e.f 0x18 0 8
  | 1 => own && (match reg with | some r => a.asn == r.asn | none => false)
  | 2 => own && (bit e.w3 11 || a.asn == e.f 0x18 0 8)
  | _ => true

/-- INVALIDATE (R108, R110); scope ALL is the owner function's alone (step 2 of R521). What is cached in scope is removed at
once, so that a lookup before the completion meets the tables as they stand. (DESIGN CHOICE, log entry 137) -/
def execInvalidate (f : FnId) (e : Desc) (s : State) : Host.Outcome State Fault Refusal :=
  lift (fun d =>
    let all := decide (e.f 0x18 8 2 = 3)
    runAdmin (.invalidate f e) 0x23 (if all then .owner else .any) f e (fun t d =>
      let reg := regionOf d t (e.w4.setWidth 32)
      guard [(decide (e.f 0x18 8 2 = 0 ∧ e.w2 = 0), .invalidParam), (decide (e.f 0x18 8 2 = 1) && reg.isNone, .keyInvalid)]
        (.later (outstanding d (accInScope e t reg))
          (staleWalks (accInScope e t reg) (purge (leafInScope e t reg) (nodeInScope e t reg) d))) d) d) s

/-- INVALIDATE_DONE (R110): every access that used a removed entry has finished. -/
def execInvalidateDone (f : FnId) (s : State) : Host.Outcome State Fault Refusal :=
  lift (admDone 0x23 f (fun w d => allEnded d w.ids) fun w d =>
    let reg := regionOf d w.target (w.arg.w4.setWidth 32)
    (.success, purge (leafInScope w.arg w.target reg) (nodeInScope w.arg w.target reg) d)) s

/-- RESUME_MARK (R107): the slot that becomes free goes to the first access that waits for one (R104), before what the released
slot held goes on. -/
def execResumeMark (f : FnId) (e : Desc) (s : State) : Host.Outcome State Fault Refusal :=
  admin (.resumeMark f e) 0x24 .any f e (fun t d =>
    let x := getFn d t
    let slot := e.f 0x18 0 4
    match tget x.traps slot with
    | none => say .notFound d
    | some tr =>
      let abort := bit e.w3 8
      let x1 := { x with traps := tdel x.traps slot
                         aborted := if abort && tr.remote then x.aborted ++ [(tr.asn, tr.level, tr.page)] else x.aborted }
      say .success (tr.waiters.foldl (fun d a => if abort then abortAccess a d else resumeAccess a d)
        (fillSlots t 16 (setFn t x1 d)))) s

/-! ### Trees (R200, R201) -/

/-- The tree's entry does not take the function (R200). -/
def treeRefuses (d : Dev) (t : FnId) (tree : Nat) : Bool :=
  match stampedEntry d tree with
  | none => true
  | some w => !w.childHost t.port.val || w.hostFn t.port.val != t.num.val || decide (w.domain ≠ (getFn d t).domain)

/-- JOIN_TREE (R200). -/
def execJoinTree (f : FnId) (e : Desc) (s : State) : Host.Outcome State Fault Refusal :=
  admin (.joinTree f e) 0x28 .any f e (fun t d =>
    let x := getFn d t
    let tree := e.f 0x08 0 14
    guard [(decide (x.domain = 0), .domainUnset), (thas x.trees tree, .numberInUse), (treeRefuses d t tree, .treeInvalid)]
      (say .success (setFn t { x with trees := tput x.trees tree {} } d)) d) s

/-- LEAVE_TREE (R201). -/
def execLeaveTree (f : FnId) (e : Desc) (s : State) : Host.Outcome State Fault Refusal :=
  admin (.leaveTree f e) 0x29 .any f e (fun t d =>
    let x := getFn d t
    let tree := e.f 0x08 0 14
    match tget x.trees tree with
    | none => say .notFound d
    | some m =>
      if m.cur.isSome || !m.waitQ.isEmpty then say .busy d
      else say .success (setFn t { x with trees := tdel x.trees tree } d)) s

/-! ### Shapers and policers (R333, R336) -/

/-- A bucket's full mark (R331). -/
def bucketFull (burst : Nat) : Int := ((burst * 1024000 : Nat) : Int)

/-- A bucket set: a new one starts full, a running one is clipped (R331, R333, R336). -/
def setBucket (old : Option Bucket) (rate burst : Nat) : Bucket :=
  match old with
  | none => { rate := rate, burst := burst, t := bucketFull burst }
  | some b => { rate := rate, burst := burst, t := min b.t (bucketFull burst) }

/-- SET_SHAPER (R333). A class left unshaped has no T: what RESULT then holds is a free value (log entry 3). -/
def execSetShaper (f : FnId) (e : Desc) (s : State) : Host.Outcome State Fault Refusal :=
  admin (.setShaper f e) 0x30 .pfForItsFns f e (fun t d =>
    let x := getFn d t
    let c := e.f 0x08 0 3
    let en := bit e.w1 8
    let rate := e.f 0x10 0 19
    let burst := e.f 0x10 32 14
    if en && decide (rate < 1 ∨ 400000 < rate ∨ burst < 1 ∨ 16384 < burst) then say .invalidParam d
    else
      let d1 := setFn t { x with shapers := if en then tput x.shapers c (setBucket (tget x.shapers c) rate burst) else tdel x.shapers c } d
      let d2 := drainClass t c (((tget x.admPt c).getD []).length + 1) d1
      let v := match tget (getFn d2 t).shapers c with
        | some b => (BitVec.ofInt 64 (b.t.tdiv 1000), d2)
        | none => takeFree d2
      .done .success v.1 0 v.2) s

/-- A policer direction set, changed or removed (R336). -/
def setPolicer (en : Bool) (old : Option Bucket) (rate burst : Nat) : Option Bucket :=
  if en then some (setBucket old rate burst) else none

/-- SET_POLICER (R336). -/
def execSetPolicer (f : FnId) (e : Desc) (s : State) : Host.Outcome State Fault Refusal :=
  admin (.setPolicer f e) 0x31 .pfForItsFns f e (fun t d =>
    let x := getFn d t
    let oe := bit e.w1 0
    let ie := bit e.w1 1
    let keep := bit e.w1 2
    let bad := fun (en : Bool) (rate burst : Nat) => en && decide (rate < 1 ∨ 400000 < rate ∨ burst < 5 ∨ 16384 < burst)
    let counts := fun d => AdmRes.done .success (x.polOutDrop.setWidth 64) (x.polInDrop.setWidth 64) d
    if keep then counts d
    else if bad oe (e.f 0x10 0 19) (e.f 0x10 32 14) || bad ie (e.f 0x18 0 19) (e.f 0x18 32 14) then say .invalidParam d
    else
      counts (setFn t { x with
        polOut := setPolicer oe x.polOut (e.f 0x10 0 19) (e.f 0x10 32 14)
        polIn := setPolicer ie x.polIn (e.f 0x18 0 19) (e.f 0x18 32 14) } d)) s

end Sys2Proof.Machine
end

