-- ==== Sys2Proof/Machine/Funcs.lean ====
section
/-!
DEFINITION. Functions as a whole: reset and take-down (R81, R520), host links and configuration space (R83, R436, R437),
parking (R155 to R158), domains and quotas (R50, R52), queries, ownership (R47, R48).
-/
namespace Sys2Proof.Machine

open Sys2Proof

/-! ### The owner function and the rings it holds (R48, R469) -/

/-- A counter ring stops with a cause, its EN bit cleared (R469, R472). -/
def ringStop (off : Nat) (cause : Nat) (r : Ring) (d : Dev) : Ring × Tbl Word64 :=
  let w := regInForce d off 0
  if bit w 63 then ({ r with running := false, stop := cause }, tput d.regs off (w &&& 0x7FFFFFFFFFFFFFFF)) else (r, d.regs)

/-- Both rings of the owner function stop (R469). -/
def ringsStop (cause : Nat) (d : Dev) : Dev :=
  let a := ringStop 0x40010 cause d.pmu.dump d
  let d1 : Dev := { d with regs := a.2, pmu := { d.pmu with dump := a.1 } }
  let b := ringStop 0x40030 cause d1.pmu.tag d1
  { d1 with regs := b.2, pmu := { d1.pmu with tag := b.1 } }

/-- Make a change; where the owner function ceases to be it, its rings stop (R469). -/
def watchOwner (g : Dev → Dev) (d : Dev) : Dev :=
  let d1 := g d
  if hasOwner d && !isOwner d1 (pfOf (ownerPort d)) then ringsStop 1 d1 else d1

/-- OWNER_CTL_WRITE (R47, R48): OWNER_PORT is in force from the next tick. -/
def execOwnerCtlWrite (m : Master) (w : Wr) (s : State) : Host.Outcome State Fault Refusal :=
  fabRow m (.ownerCtlWrite m w) s (lift0 (fun d =>
      if mayWrite d m then putReg 0x28 0 (mergeWr (regInForce d 0x28 0) 3 w) d else d) s)

/-! ### Resets of functions (R81, R520) -/

/-- The connections of a function are torn down: their numbers are kept with the mark of a reset, their charges are
released (R81 step 3, R147, R252). -/
def tearConns (f : FnId) (d : Dev) : Dev :=
  d.xpt.conns.foldl (fun d e =>
    let c := e.2
    if c.fn ≠ f then d
    else
      let d1 := c.ops.foldl (fun d o => winRelease (selfEp d f) (epCoord c.peer) o.charge d) (releaseCharges c d)
      releaseConn e.1 c true d1) d

/-- Match contexts, regions, translations and accesses of a function are gone (R81 steps 2 and 4). -/
def dropObjects (f : FnId) (d : Dev) : Dev :=
  let mine := d.mtc.ctxs.filter fun m => decide (m.2.fn = f)
  let regs := d.xl.regions.filter fun r => decide (r.2.fn = f)
  let d1 := purge (fun l => decide (l.fn = f)) (fun n => decide (n.fn = f)) d
  { d1 with
    mtc := { d1.mtc with
      ctxs := d1.mtc.ctxs.filter fun m => !decide (m.2.fn = f)
      released := mine.foldl (fun t m => tput t m.1 d1.clk.now) d1.mtc.released
      recs := d1.mtc.recs.filter fun r => !decide (r.fn = f) }
    xl := { d1.xl with
      regions := d1.xl.regions.filter fun r => !decide (r.2.fn = f)
      freed := d1.xl.freed ++ regs.map fun r => (d1.clk.ticks, r.1)
      walks := d1.xl.walks.filter fun w => !decide (w.acc.fn = f)
      todo := d1.xl.todo.filter fun a => !decide (a.fn = f)
      heldAcc := d1.xl.heldAcc.filter fun a => !decide (a.fn = f)
      heldReads := d1.xl.heldReads.filter fun x => !decide (x.1.fn = f) }
    xpt := { d1.xpt with
      reads := d1.xpt.reads.filter fun r => !decide (r.fn = f)
      atomWait := d1.xpt.atomWait.filter fun a => !decide (a.fn = f)
      atomWrites := d1.xpt.atomWrites.filter fun w => !decide (w.fn = f) }
    pmu := { d1.pmu with samples := d1.pmu.samples.filter fun x => !decide (x.fn = f) }
    modeSt := { d1.modeSt with reqs := d1.modeSt.reqs.filter fun q => match q.owner with | some o => !decide (o.1 = f) | none => true }
    svc := { d1.svc with cmds := d1.svc.cmds.map fun c => if c.port.isNone && decide (c.fn = f) then { c with reply := false } else c } }

/-- The trees a function is a member of end their operations with TREE_FAULT (R229). -/
def leaveTrees (f : FnId) (d : Dev) : Dev := (getFn d f).trees.foldl (fun d t => endIfRunning t.1 .treeFault d) d

/-- The configuration registers a reset of the function leaves: its error status and mask alone. (PRESUMED, log entry 33) -/
def Pci.cleared (x : Pci) : Pci := { aerStatus := x.aerStatus, aerMask := x.aerMask }

/-- What a function keeps through its reset: its domain and quotas (R81 step 5), its error status, and its block 1 fence until
the reset ends (R491). -/
def clearedFn (x : Fn) : Fn :=
  { domain := x.domain, quota := x.quota, fenced := x.fenced, inFlr := true, pci := x.pci.cleared }

/-- Steps 1 to 4 of a function-level reset, for one function (R81). -/
def resetOne (f : FnId) (d : Dev) : Dev :=
  let d1 := updFn f (fun x => { x with inFlr := true }) d
  noteFlr f (updFn f clearedFn (dropObjects f (tearConns f (leaveTrees f d1))))

/-- The virtual functions of a port that exist. -/
def vfsOf (d : Dev) (p : Fin 4) : List FnId := (allFns d).filter fun f => decide (f.port = p) && f.num.val != 0

/-- Every function of a port is reset. -/
def resetPort (p : Fin 4) (d : Dev) : Dev := (pfOf p :: vfsOf d p).foldl (fun d f => resetOne f d) d

/-- The configuration space of a port's physical function at its reset values (R437). -/
def clearPortCfg (p : Fin 4) (d : Dev) : Dev :=
  updHp p (fun h => { h with vfEnable := false, numVfs := 0, barPf := [], barVf := [] }) d

/-- The link companion of a port at its reset values (R45). -/
def clearCompanion (p : Fin 4) (d : Dev) : Dev := updHp p (fun h => { h with compBm := false, comp := {} }) d

/-- FUNCTION_LEVEL_RESET (R81); of a physical function, its virtual functions too. (PRESUMED, log entry 33) -/
def execFunctionLevelReset (f : FnId) (s : State) : Host.Outcome State Fault Refusal :=
  lift (fun d =>
    if !fnExists d f || (getFn d f).inFlr then d
    else watchOwner (fun d => if f.num.val = 0 then clearPortCfg f.port (resetPort f.port d) else resetOne f d) d) s

/-- A block 1 fence goes with the reset of its function; with the last one goes the block's record (R491). -/
def liftFnFence (f : FnId) (d : Dev) : Dev :=
  if !(getFn d f).fenced then d
  else
    let d1 := updFn f (fun x => { x with fenced := false }) d
    if d1.fns.any (fun e => e.2.fenced) then d1
    else
      setRec (srcRegParity 1) (getRec d1 (srcRegParity 1)).cleared
        { d1 with cfg := { d1.cfg with fenced := d1.cfg.fenced &&& 0x7FD } }

/-- The end of a reset: step 5 of R81. -/
def endReset (f : FnId) (d : Dev) : Dev := updFn f (fun x => { x with inFlr := false }) (liftFnFence f d)

/-- FLR_COMPLETE (R81 step 5, R491). -/
def execFlrComplete (f : FnId) (s : State) : Host.Outcome State Fault Refusal :=
  lift (fun d => if (getFn d f).inFlr && fnExists d f then endReset f d else d) s

/-- The functions that vanish when a port's SR-IOV settings become (num, en). -/
def vanishing (d : Dev) (p : Fin 4) (num : Nat) (en : Bool) : List FnId :=
  (vfsOf d p).filter fun f => !en || decide (num < f.num.val)

/-- VF_DISABLE (R520): NumVFs lowered or VF Enable cleared; what vanishes is taken down at once. -/
def execVfDisable (p : Fin 4) (num : Fin 256) (en : Bool) (s : State) : Host.Outcome State Fault Refusal :=
  lift (fun d =>
    let h := getHp d p
    let n := min num.val h.numVfs
    let e := h.vfEnable && en
    let gone := vanishing d p n e
    updHp p (fun h => { h with numVfs := n, vfEnable := e }) (gone.foldl (fun d f => resetOne f d) d)) s

/-- VF_TEARDOWN_DONE (R520). -/
def execVfTeardownDone (f : FnId) (s : State) : Host.Outcome State Fault Refusal :=
  lift (fun d => if (getFn d f).inFlr && f.num.val != 0 then endReset f d else d) s

/-! ### Host links and configuration space (R48, R83, R100, R436) -/

/-- A host port's link goes down: every function of it is reset, and its configuration space with it. -/
def linkGone (p : Fin 4) (d : Dev) : Dev :=
  updHp p (fun h => { h with linkUp := false }) (clearCompanion p (clearPortCfg p
    ((pfOf p :: vfsOf d p).foldl (fun d f => updFn f (fun x => { x with pci := {} }) d) (resetPort p d))))

/-- A function of a port masters the bus (R414), the link companion's included (R45). -/
def portMasters (d : Dev) (p : Fin 4) : Bool :=
  (pfOf p :: vfsOf d p).any (fun f => (getFn d f).busMaster) || (getHp d p).compBm

/-- A host link that is up goes down (R83, R414): where a function of the port masters the bus, recorded with bit 5, Surprise Down
Error; then every function of the port is reset. -/
def hostDown (p : Fin 4) (d : Dev) : Dev :=
  if !(getHp d p).linkUp then d
  else
    watchOwner (linkGone p) (if portMasters d p then
      report (srcPcie p.val) .contained caPcie 5 (fnObject (pfOf p)) 1 d else d)

/-- HOST_LINK_DOWN (R83, R414). -/
def execHostLinkDown (p : Fin 4) (s : State) : Host.Outcome State Fault Refusal := lift (hostDown p) s

/-- HOST_PORT_RESET (R436). -/
def execHostPortReset (p : Fin 4) (s : State) : Host.Outcome State Fault Refusal := lift (watchOwner (linkGone p)) s

/-- HOST_LINK_UP (R48, R438): during boot too; not in Transit and Recovery, where host ports are held in link-down (R445, R447). -/
def execHostLinkUp (p : Fin 4) (s : State) : Host.Outcome State Fault Refusal :=
  lift0 (fun d => if d.mode = .transit || d.mode = .recovery then d
    else updHp p (fun h => { h with linkUp := true }) d) s

/-- The BAR number of an operand. -/
def barKey (n : Fin 3) : Nat := 2 * n.val

/-- A write of PCI Express registers (R44). (PRESUMED, log entry 127) -/
def Pci.write (w : PciWr) (x : Pci) : Pci :=
  match w with
  | .power d3 => { x with d3 := d3 }
  | .payload n => { x with mps := 128 * 2 ^ n.val }
  | .readReq n => { x with mrrs := 128 * 2 ^ n.val }
  | .aerStatus ones => { x with aerStatus := x.aerStatus &&& ~~~ ones }
  | .aerMask v => { x with aerMask := v }

/-- A configuration write by the host (R44, R45, R48, R100, R520). -/
def configWrite (f : FnId) (c : CfgWr) (d : Dev) : Dev :=
  let h := getHp d f.port
  match c with
  | .busMaster on => watchOwner (updFn f fun x => { x with busMaster := on }) d
  | .bar n a =>
    if f.num.val ≠ 0 then d
    else updHp f.port (fun h => { h with barPf := tput h.barPf (barKey n) (BitVec.ofNat 64 (a.toNat / barSize false (barKey n) * barSize false (barKey n))) }) d
  | .vfBar n a =>
    if f.num.val ≠ 0 then d
    else updHp f.port (fun h => { h with barVf := tput h.barVf (barKey n) (BitVec.ofNat 64 (a.toNat / barSize true (barKey n) * barSize true (barKey n))) }) d
  | .numVfs n =>
    if f.num.val ≠ 0 || !(vanishing d f.port n.val h.vfEnable).isEmpty then d else updHp f.port (fun h => { h with numVfs := n.val }) d
  | .vfEnable on =>
    if f.num.val ≠ 0 || !(vanishing d f.port h.numVfs on).isEmpty then d else updHp f.port (fun h => { h with vfEnable := on }) d
  | .pci w => updFn f (fun x => { x with pci := x.pci.write w }) d
  | .msixControl en mask => firePending f (updFn f (fun x => { x with msixEn := en, msixMask := mask }) d)
  | .companionBusMaster on =>
    if f.num.val ≠ 0 || !h.bifurcated then d else updHp f.port (fun h => { h with compBm := on }) d
  | .companion w =>
    if f.num.val ≠ 0 || !h.bifurcated then d else updHp f.port (fun h => { h with comp := h.comp.write w }) d

/-- PCIE_CONFIG_WRITE (R48, R100, R520): a write that makes virtual functions vanish is a VF_DISABLE instead. -/
def execPcieConfigWrite (f : FnId) (c : CfgWr) (s : State) : Host.Outcome State Fault Refusal :=
  lift (fun d => if fnExists d f && (getHp d f.port).linkUp && !(getFn d f).inFlr then configWrite f c d else d) s

/-! ### Parking (R155 to R158, R186) -/

/-- Bytes a function's match contexts take in a backing area (R186). -/
def mctxBytes (d : Dev) (t : FnId) : Nat :=
  let recs := d.mtc.recs.filter fun r => decide (r.fn = t)
  512 * mctxsOf d t + 64 * ((recs.filter (·.entry)).length + (recs.filter (·.conn.isSome)).length) + 4096 * (recs.map (·.blocks)).sum

/-- Flagged packets a function's connections hold. -/
def heldOf (d : Dev) (t : FnId) : Nat := ((d.xpt.conns.filter fun c => decide (c.2.fn = t)).map fun c => c.2.held.length).sum

/-- The backing area a function needs (R155): what R186 states for its match contexts, beside its connections and the flagged
packets they hold. -/
def backingNeed (d : Dev) (t : FnId) : Nat :=
  mctxBytes d t + (if connsOf d t = 0 then 0 else (Config.backingBytes (connsOf d t) (heldOf d t)).toNat)

/-- The connections of a function, by number. -/
def connNums (d : Dev) (t : FnId) : List Nat := (d.xpt.conns.filter fun c => decide (c.2.fn = t)).map (·.1)

/-- PARK_FUNCTION (R155, R156): its contexts are written out one after another from now on, each once no packet for it is in
execution (R154); it completes with PARK_FUNCTION_DONE. An operation whose completion waits in a full queue's buffer does not lack
it. (DESIGN CHOICE, log entry 134) -/
def execParkFunction (f : FnId) (e : Desc) (s : State) : Host.Outcome State Fault Refusal :=
  admin (.parkFunction f e) 0x38 .pfForItsFns f e (fun t d =>
    let x := getFn d t
    if x.sqs.any fun q => !q.2.inflight.isEmpty then say .busy d
    else if e.w2.toNat < backingNeed d t then .done .noResources (BitVec.ofNat 64 (backingNeed d t)) 0 d
    else
      let back := BitVec.ofNat 64 (e.f 0x08 12 52 * 4096)
      .later [] (emit (.hostCopy t.port back.toNat (backingNeed d t)) (setFn t { x with park := .parking, backing := back } d))) s

/-- Every context of a function has been written out (R156 step 2). -/
def allWritten (d : Dev) (t : FnId) : Bool :=
  (d.xpt.conns.filter fun c => decide (c.2.fn = t)).all fun c => c.2.st != .active && !inWriting d c.1

/-- Change the state of a function's connections and match contexts that are in one state. -/
def moveStates (t : FnId) (c0 c1 : ConnSt) (m0 m1 : MctxSt) (d : Dev) : Dev :=
  { d with
    xpt := { d.xpt with conns := d.xpt.conns.map fun c => if c.2.fn = t ∧ c.2.st = c0 then (c.1, { c.2 with st := c1 }) else c }
    mtc := { d.mtc with ctxs := d.mtc.ctxs.map fun m => if m.2.fn = t ∧ m.2.st = m0 then (m.1, { m.2 with st := m1 }) else m } }

/-- PARK_FUNCTION_DONE (R154, R156 step 3, R164): packets that waited are refused, contexts leave HBM. -/
def execParkFunctionDone (f : FnId) (s : State) : Host.Outcome State Fault Refusal :=
  lift (admDone 0x38 f (fun w d => allWritten d w.target || decide ((getFn d w.target).park ≠ .parking)) fun w d =>
    let t := w.target
    if (getFn d t).park ≠ .parking then (.busy, d)
    else
      let ns := connNums d t
      let d1 := ns.foldl (fun d n => refuseMiss n .parked d) d
      let d2 := { d1 with xpt := { d1.xpt with
        writing := d1.xpt.writing.filter fun w => !ns.contains w.1
        fetching := d1.xpt.fetching.filter fun n => !ns.contains n
        onDie := d1.xpt.onDie.filter fun n => !ns.contains n } }
      (.success, moveStates t .active .parked .active .parked (updFn t (fun x => { x with park := .parked }) d2))) s

/-- UNPARK_FUNCTION (R155, R158): its backing area is read back; of a function that is not parked it completes with INVALID_PARAM (log entry 40). -/
def execUnparkFunction (f : FnId) (e : Desc) (s : State) : Host.Outcome State Fault Refusal :=
  admin (.unparkFunction f e) 0x39 .pfForItsFns f e (fun t d =>
    if (getFn d t).park ≠ .parked then say .invalidParam d
    else .later [] (emit (.hostLoad t.port (getFn d t).backing.toNat) (updFn t (fun x => { x with park := .unparking }) d))) s

/-- The read-back of a parked function fails its CRC (R158). -/
def unparkFails (t : FnId) (d : Dev) : Dev :=
  let d1 := updFn t (fun x => { x with park := .no }) d
  let d2 := (connNums d t).foldl (fun d n => failConn n .hostDmaError .hostDmaError .hostDmaError false d) d1
  (d2.mtc.ctxs.filter fun m => decide (m.2.fn = t)).foldl (fun d m => destroyMctx m.1 false d) d2

/-- UNPARK_FUNCTION_DONE (R158). -/
def execUnparkFunctionDone (f : FnId) (crcOk : Bool) (s : State) : Host.Outcome State Fault Refusal :=
  lift (admDone 0x39 f (fun _ _ => true) fun w d =>
    let t := w.target
    if (getFn d t).park ≠ .unparking then (.busy, d)
    else if crcOk then
      (.success, moveStates t .parked .active .parked .active (updFn t (fun x => { x with park := .no }) d))
    else (.hostDmaError, unparkFails t d)) s

/-! ### Domains, quotas, queries (R50, R52, R61, R389) -/

/-- A function holds something that binds it to its domain (R50). -/
def holdsDomain (d : Dev) (t : FnId) : Bool :=
  decide (0 < connsOf d t) || decide (0 < mctxsOf d t) || !(getFn d t).trees.isEmpty

/-- The function's domain has changed since the open block opened (R389). -/
def splitInBlock (d : Dev) (t : FnId) : Bool := d.fuse.meter && d.isl.opened.any fun b => (tget b.changed (fnKey t)).isSome

/-- A function's domain changes: the open block notes the first change (R389, R390). -/
def changeDomain (t : FnId) (new : Dom) (d : Dev) : Dev :=
  let d1 := updFn t (fun x => { x with domain := new }) d
  if new = (getFn d t).domain then d1
  else { d1 with isl := { d1.isl with opened := d1.isl.opened.map fun b => { b with changed := tput b.changed (fnKey t) new } } }

/-- SET_FUNC_DOMAIN (R50, R389). -/
def execSetFuncDomain (f : FnId) (e : Desc) (s : State) : Host.Outcome State Fault Refusal :=
  admin (.setFuncDomain f e) 0x40 .pfForItsFns f e (fun t d =>
    if holdsDomain d t || splitInBlock d t then say .busy d
    else say .success (changeDomain t (BitVec.ofNat 16 (e.f 0x08 0 16)) d)) s

/-- SET_FUNC_QUOTA (R52); the quotas come as an operand, since their places in the entry are not stated. -/
def execSetFuncQuota (f : FnId) (e : Desc) (q : QuotaArg) (s : State) : Host.Outcome State Fault Refusal :=
  admin (.setFuncQuota f e q) 0x41 .pfForItsVfs f e (fun t d =>
    say .success (updFn t (fun x => { x with quota :=
      { sq := q.sq, cq := q.cq, eq := q.eq, conn := q.conn, mctx := q.mctx, region := q.region, hbm := q.hbm } }) d)) s

/-- A successful completion whose two result words the specification does not lay out. (DESIGN CHOICE, log entry 42) -/
def freeResults (d : Dev) : AdmRes :=
  let a := takeFree d
  let b := takeFree a.2
  .done .success a.1 b.1 b.2

/-- QUERY_FUNC (R61): what it returns is not laid out. -/
def execQueryFunc (f : FnId) (e : Desc) (s : State) : Host.Outcome State Fault Refusal :=
  admin (.queryFunc f e) 0x42 .pfOrSelf f e (fun _ d => freeResults d) s

/-- IDENTIFY (R61): what it returns is not laid out. -/
def execIdentify (f : FnId) (e : Desc) (s : State) : Host.Outcome State Fault Refusal :=
  admin (.identify f e) 0x50 .any f e (fun _ d => freeResults d) s

end Sys2Proof.Machine
end

