-- ==== Sys2Proof/Machine/Links.lean ====
section
/-!
DEFINITION. Fabric links: training, equalisation, changes of width and rate, lane health, what takes a port down, and
the link-local messages (R280 to R328).
-/
namespace Sys2Proof.Machine

open Sys2Proof

/-! ### Equalisation (R308) -/

/-- The default entry of R308. -/
def eqDefaultWord : Word64 := ins 38 0 ||| ins 36 3 ||| ins 32 8 ||| ins 24 0x37 ||| ins 16 48 ||| ins 8 0x3A

/-- The fields of a table entry: every bit but the reserved ones (R12, R308). -/
def eqMask : Word64 := 0x8000077F3F3F3F3F

/-- The equalisation entry in use on a link lane at a rung: the board table's where it is valid, else the default. -/
def eqEntry (d : Dev) (p j rung : Nat) : Word64 :=
  let e := word (flashPart d 0x2000) (0x10 + 8 * ((2 * p + j) * 3 + (rung - 1))) &&& eqMask
  let sum := (signed 6 (fld e 0 6)).natAbs + (signed 6 (fld e 8 6)).natAbs + fld e 16 6 + (signed 6 (fld e 24 6)).natAbs
  if d.boot.eqLoaded && bit e 63 && decide (sum ≤ 63) then e else eqDefaultWord

/-- The effective termination trim of lane L(2p + j) (R457, R459). -/
def termTrim (d : Dev) (p j : Nat) : Int := signed 4 (fld (calEff d (0xC0 + 8 * ((2 * p + j) / 16))) (4 * ((2 * p + j) % 16)) 4)

/-- A lane has trained at a rung: its settings, its trim, its temperature and its lock (R285, R308, R317, R457). -/
def trainLane (p j rung : Nat) (sw inv : Bool) (d : Dev) : Dev :=
  let e := eqEntry d p j rung
  updPort p (fun x =>
    let y := x.updLane j fun l => { l with
      locked := true, framed := true, los := false, lol := false, swapped := sw, inverted := inv
      term := termTrim d p j, trainTj := d.therm.tjMax, rung := rung, eq := e }
    let other := y.lanes (1 - j)
    { y with eqDefault := !bit e 63 || (decide (0 < other.rung) && !bit other.eq 63) }) d

/-! ### Coming up (R304, R306) -/

/-- A port may train (R304, R414, R490). -/
def mayTrain (d : Dev) (p : Nat) : Bool :=
  portEnable d p && d.boot.phase = .running && d.mode ≠ .recovery && !(getPort d p).noRetrain
  && !d.cfg.hit.contains (4, 0x10000 + p * 0x100)

/-- What a port holds of its link is gone: sequencing, replay, credit, exchange, packets in part (R292, R294, R319). -/
def Port.clear (x : Port) : Port :=
  { x with
    rung := 0, width := 0, lane := 0, frameLock := false, annOwn := false, annPeer := none
    unitId := 0, info := 0, txNext := 0, replay := [], toReplay := 0, replayAt := none, rounds := 0
    expect := 0, retryLeft := 0, retryAt := none, tLoss := none
    bal := [], crHeld := [], crRet := [], crSent := [], crNext := 0
    rxPart := [], txCur := none, drr := 0, drrNew := true, deficit := [], rrVc := [], sinceIdle := 0
    llOut := [], llIn := [], txFrame := [], bad := [], two := false, applied := false, txWidth := 0, txLane := 0
    nextWidth := 0, nextLane := 0, rxWidth := 0, rxLane := 0, switchAt := none, peerSwitch := none
    txSwitched := false, rxSwitched := false, elastic := [], acked := 0, rxHeld := [], peerHot := false
    own := none, prog := none, merged := false, mine := false, plan := [], busyWait := false
    doneOwn := false, donePeer := false, outage := false, rateFailed := false, thermal := false
    rxStart := false, widenDue := false }

/-- What this end sends starts again: FSEQ 0, nothing to be acknowledged, every balance at its full allotment (R292, R294). -/
def Port.txReset (x : Port) : Port :=
  { x with txNext := 0, replay := [], toReplay := 0, replayAt := none, rounds := 0, bad := [], bal := [], crHeld := [] }

/-- What this end receives starts again: FSEQ 0 is expected, and no unit has been returned (R292, R294). -/
def Port.rxReset (x : Port) : Port :=
  { x with expect := 0, retryLeft := 0, retryAt := none, tLoss := none, rxPart := [], rxHeld := [], crRet := [], crSent := []
           crNext := 0 }

/-- A lane before training. -/
def LaneSt.fresh (l : LaneSt) : LaneSt := 
  { l with los := false, lol := false, fail := false, locked := false, soak := false, framed := false, rxBip := none
           failing := false }

/-- A lane's settings are those of a rung, once it has been trained at all (R328). -/
def eqAt (d : Dev) (p rung j : Nat) (l : LaneSt) : LaneSt :=
  if l.rung = 0 then l else { l with rung := rung, eq := if l.rung = rung then l.eq else eqEntry d p j rung }

/-- A lane shows the default settings (R308). -/
def LaneSt.byDefault (l : LaneSt) : Bool := decide (0 < l.rung) && !bit l.eq 63

/-- A port starts training with frames of rung 1 and width 2 (R306 step 1); the target is free again (R307).
(DEDUCED, log entry 86) -/
def startTraining (p : Nat) (d : Dev) : Dev :=
  if mayTrain d p && ((getPort d p).st = .disabled || (getPort d p).st = .down) then
    updPort p (fun x =>
      let l0 := eqAt d p 1 0 x.l0.fresh
      let l1 := eqAt d p 1 1 x.l1.fresh
      { x.clear with
        st := .training, rung := 1, target := 3, restart := false, l0 := l0, l1 := l1
        eqDefault := l0.byDefault || l1.byDefault, txWidth := 2, nextWidth := 2, rxWidth := 2 }) d
  else d

/-- A lane of a port in training still waits for its lock. -/
def laneWaits (d : Dev) (p j : Nat) : Bool :=
  portLaneEn d p j && !((getPort d p).lanes j).locked && !((getPort d p).lanes j).lol

/-! ### Requests for a change (R311, R313) -/

/-- A port that may exchange changes. -/
def changing (s : PortSt) : Bool := s = .nibOnly || s = .up

/-- The lane is locked at the port's rung. -/
def laneReady (x : Port) (j : Nat) : Bool := (x.lanes j).locked && decide ((x.lanes j).rung = x.rung)

/-- A change can apply in the port's state (R311, R323). -/
def chgFits (d : Dev) (p : Nat) (c : Chg) : Bool :=
  let x := getPort d p
  let j := c.lane % 2
  match c.kind with
  | 1 => portLaneEn d p j && laneReady x j && (decide (x.width = 2) || decide (x.lane ≠ j))
  | 2 => decide (x.width = 1) && portLaneEn d p 0 && portLaneEn d p 1 && laneReady x (1 - x.lane)
  | 3 => portLaneEn d p j
  | 4 => decide (c.rate + 1 ≠ x.rung)
  | _ => false

/-- Two requests are identical (R313). -/
def sameChg (a b : Chg) : Bool := decide (a.kind = b.kind ∧ a.lane = b.lane ∧ a.rate = b.rate)

/-- A change as a link-local message. -/
def chgMsg (nt : Byte) (c : Chg) : LinkMsg :=
  { ntype := nt, token := c.token, kind := BitVec.ofNat 4 c.kind, lane := decide (c.lane = 1), rate := BitVec.ofNat 2 c.rate }

/-- The change a link-local message spells. -/
def msgChg (m : LinkMsg) : Chg := { kind := m.kind.toNat, lane := b2n m.lane, rate := m.rate.toNat, token := m.token }

/-- This end asks for a change; it waits its turn while another is under way (R311, R313). -/
def requestChg (p : Nat) (c : Chg) (d : Dev) : Dev :=
  let x := getPort d p
  if !changing x.st then d
  else if x.own.isSome || x.prog.isSome || x.busyWait then
    if x.plan.any (sameChg c) || x.own.any (sameChg c) || x.prog.any (sameChg c) then d
    else setPort p { x with plan := x.plan ++ [c] } d
  else
    let c1 := { c with token := x.nextToken, tries := 0 }
    sendLink p (chgMsg 0x02 c1)
      (setPort p { x with own := some c1, nextToken := x.nextToken + 1, cmdStatus := if c.cmd then 1 else x.cmdStatus } d)

/-- A lane's temperature has drifted from that of its last training by more than TEMP_DELTA (R317). -/
def drifted (d : Dev) (p j : Nat) : Bool :=
  portTempEn d p && portLaneEn d p j
  && decide (2 * portTempDelta d p < (d.therm.tjMax - ((getPort d p).lanes j).trainTj).natAbs)

/-- The RATE of the change that brings a port a step towards its target rung; none where it is there (R306 step 4, R318). -/
def rateNext (d : Dev) (p : Nat) : Option Nat :=
  let r := (getPort d p).rung
  let t := tgtRung d p
  if t = r then none else some (if r < t then r else t - 1)

/-- The cause of a request that had to wait still holds (R313): the change can apply, and what asked for it still does: a CMD;
a lane that fails, or that LANE_EN excludes; a lane adrift in temperature, or taken out; the target rung. (DEDUCED, log entry
83) -/
def causeHolds (d : Dev) (p : Nat) (c : Chg) : Bool :=
  let x := getPort d p
  let j := c.lane % 2
  chgFits d p c
  && (c.cmd || match c.kind with
    | 1 => if c.reason = 1 then decide (x.width = 2) && (x.lanes (1 - j)).failing else !portLaneEn d p (1 - j)
    | 3 => (c.reason != 3 || drifted d p j) && (c.reason != 5 || (x.lanes j).fail)
    | 4 => rateNext d p == some c.rate
    | _ => true)

/-- The next change this end still has to request, if its cause still holds; a CMD that can no longer apply is refused
(R313, R323). -/
def nextPlan (p : Nat) : Nat → Dev → Dev
  | 0, d => d
  | fuel + 1, d =>
    let x := getPort d p
    match x.plan with
    | [] => d
    | c :: rest =>
      if x.own.isSome || x.prog.isSome || x.busyWait then d
      else
        let d1 := setPort p { x with plan := rest } d
        if causeHolds d1 p c then requestChg p c d1
        else nextPlan p fuel (if c.cmd then setPort p { x with plan := rest, cmdStatus := 3 } d else d1)

/-- One change of KIND RATE towards the target rung, where the port is not there (R306 step 4, R318). -/
def wantRate (p : Nat) (d : Dev) : Dev :=
  let x := getPort d p
  let isRate := fun c : Chg => decide (c.kind = 4)
  match rateNext d p with
  | none => d
  | some r =>
    if !changing x.st || !bit x.info 20 || x.own.any isRate || x.prog.any isRate || x.plan.any isRate then d
    else requestChg p { kind := 4, rate := r, reason := 4 } d

/-- R306 step 6: at the target rung the announcements are exchanged and the port may enter UP. -/
def settleAnn (p : Nat) (d : Dev) : Dev :=
  if (getPort d p).st = .nibOnly && bit (getPort d p).info 20 && atTarget d p then
    enterUp p (sendMode p (updPort p (fun x => { x with annOwn := wantsAll d p }) d))
  else d

/-- R306 steps 4 to 6: the next rung, or the announcements. (DESIGN CHOICE, log entry 81) -/
def proceedUp (p : Nat) (d : Dev) : Dev := settleAnn p (wantRate p d)

/-! ### Going down (R319) -/

/-- The packet in mid-sending is lost with the link: what it holds of its ingress buffer is discarded (R293, R319). -/
def dropCur (p : Nat) (d : Dev) : Dev :=
  match (getPort d p).txCur with
  | some c => releaseHold c.ing c.hold d
  | none => d

/-- The port goes to DOWN with a cause (R319), its queued packets are routed again (R250), and the loss is recorded when
it leaves UP or NIB_ONLY but for causes 6 and 7. (DEDUCED, log entry 82) -/
def goDown (p cause : Nat) (d : Dev) : Dev :=
  let x := getPort d p
  if x.st = .disabled || x.st = .down then d
  else
    let d1 := requeuePort p (leaveUp p cause .down (dropCur p d))
    let d2 := updPort p (fun y => { y.clear with
      st := .down, cause := cause, downCount := satAdd 0xFFFF y.downCount 1
      cmdStatus := if y.cmdStatus = 1 then 4 else y.cmdStatus }) d1
    if changing x.st && cause ≠ 6 && cause ≠ 7 then
      reportError (srcLink p) .contained caLinkDown (BitVec.ofNat 8 cause) 0 1 d2
    else d2

/-- A lane that training may use: locked, and not excluded by LANE_EN (R306, R321). -/
def laneUp (d : Dev) (p j : Nat) : Bool := ((getPort d p).lanes j).locked && portLaneEn d p j

/-- Training is complete: NIB_ONLY at rung 1, on the lanes that locked, with HELLO (R303, R306). Numbering and credit start
again; the receiving side does with the partner's own entry where that came first. HELLO goes ahead of what waited
(R292, R294). (DEDUCED, log entry 146) -/
def enterNib (p : Nat) (d : Dev) : Dev :=
  let both := laneUp d p 0 && laneUp d p 1
  let w := if both then 2 else 1
  let l := if both || laneUp d p 0 then 0 else 1
  let waiting := (getPort d p).llOut
  let d1 := updPort p (fun x => { (if x.rxStart then x.txReset else x.txReset.rxReset) with
    st := .nibOnly, rung := 1, width := w, lane := l, nextWidth := w, nextLane := l, rxWidth := w, rxLane := l
    frameLock := true, llOut := [] }) d
  proceedUp p (updPort p (fun x => { x with llOut := x.llOut ++ waiting }) (sendHello p d1))

/-- A port in training leaves it once no lane waits: to NIB_ONLY, or where no lane may be used to DOWN (R306). -/
def trained (p : Nat) (d : Dev) : Dev :=
  if (getPort d p).st ≠ .training || laneWaits d p 0 || laneWaits d p 1 then d
  else if laneUp d p 0 || laneUp d p 1 then enterNib p d
  else goDown p 5 d

/-! ### Carrying a change out (R311, R314 to R318) -/

/-- PORT_WIDTH, posted in UP (R320). -/
def postWidth (p reason : Nat) (d : Dev) : Dev := if (getPort d p).st = .up then postPortWidth p reason d else d

/-- A lane in use that LANE_EN excludes is left: by NARROW, or at width 1 by training the other lane and moving to it
(R321). -/
def leaveLanes (p : Nat) (d : Dev) : Dev :=
  let x := getPort d p
  let gone := fun j => !portLaneEn d p j
  if !changing x.st then d
  else if x.width = 2 && gone 0 then requestChg p { kind := 1, lane := 1 } d
  else if x.width = 2 && gone 1 then requestChg p { kind := 1, lane := 0 } d
  else if x.width = 1 && gone x.lane then
    requestChg p { kind := 1, lane := 1 - x.lane } (requestChg p { kind := 3, lane := 1 - x.lane } d)
  else d

/-- What a committed LANE_EN still asks of a port (R321): a lane in use that it excludes is left; a lane that it has enabled is
trained, at width 1, and taken in. -/
def carryLanes (p : Nat) (d : Dev) : Dev :=
  let x := getPort d p
  if !changing x.st then d
  else if !portLaneEn d p 0 || !portLaneEn d p 1 then leaveLanes p d
  else if x.widenDue && x.width = 1 then
    requestChg p { kind := 2 } (requestChg p { kind := 3, lane := 1 - x.lane } (setPort p { x with widenDue := false } d))
  else if x.widenDue && x.own.isNone && x.prog.isNone then setPort p { x with widenDue := false } d
  else d

/-- The change in progress ends, and is counted where it completed (R326): the next planned request follows, and the next
rung. -/
def endChg (p : Nat) (completed : Bool) (d : Dev) : Dev :=
  let d1 := updPort p (fun x => { x with
    prog := none, merged := false, mine := false, applied := false, two := false, doneOwn := false, donePeer := false
    outage := false, changes := if completed then x.changes.add 1 else x.changes
    switchAt := none, peerSwitch := none, txSwitched := false, rxSwitched := false
    cmdStatus := if x.prog.any (·.cmd) && x.cmdStatus = 1 then 0 else x.cmdStatus }) d
  proceedUp p (carryLanes p (nextPlan p ((getPort d1 p).plan.length + 1) d1))

/-- The change in progress is complete. -/
def finish (p : Nat) (d : Dev) : Dev := endChg p true d

/-- The retrain outage begins once every flit of both ends is acknowledged: this end's replay buffer is empty, and its last
flit acknowledged all it has received (R316): RETRAINING. -/
def tryOutage (p : Nat) (d : Dev) : Dev :=
  let x := getPort d p
  if x.outage && x.replay.isEmpty && x.acked == x.expect && changing x.st then
    leaveUp p 9 .retraining (updPort p (fun y => ({ y with prev := x.st }).updLane x.lane fun l => { l with locked := false }) d)
  else d

/-- The port returns from RETRAINING to its previous state; where an announcement bars UP, to NIB_ONLY with HELLO
(R303, R304, R316). -/
def resume (p : Nat) (d : Dev) : Dev :=
  let x := getPort d p
  if x.prev = .up && x.annOwn && x.annPeer = some true then
    announce p (notifyPort p (postPortUp p (setPort p { x with st := .up } d)))
  else announce p (sendHello p (setPort p { x with st := .nibOnly } d))

/-- The reason PORT_WIDTH gives for the change in progress: this end's own, or the partner's request (R320). -/
def chgReason (x : Port) : Nat :=
  match x.prog with
  | some c => c.reason
  | none => 6

/-- A lane has been taken out by this end: marked, and counted as a corrected error of the lane (R315, R414). -/
def takeOut (p j : Nat) (d : Dev) : Dev :=
  reportCorrected (srcLane p) 1 (updPort p (fun x => x.updLane j fun l => { l with fail := true }) d)

/-- The width and lane that the transmitters change to at their switch points; none for a change of neither (R311, R316,
R318). -/
def chgFormat (x : Port) (c : Chg) : Option (Nat × Nat) :=
  match c.kind with
  | 1 => some (1, c.lane % 2)
  | 2 => some (2, 0)
  | 3 => if x.width = 2 then some (1, 1 - c.lane % 2) else none
  | 4 => if x.width = 2 then some (1, 1) else none
  | _ => none

/-- The agreed change begins (R311). -/
def applyChg (p : Nat) (d : Dev) : Dev :=
  let x := getPort d p
  match x.prog with
  | none => d
  | some c =>
    let x := { x with applied := true, switchAt := none, peerSwitch := none, txSwitched := false, rxSwitched := false }
    let j := c.lane % 2
    let out := fun i => (x.updLane i fun l => { l with locked := false, soak := false })
    let unsoaked := { x with l0 := { x.l0 with soak := false }, l1 := { x.l1 with soak := false } }
    match c.kind with
    | 1 =>
      let d1 := postWidth p (chgReason x) (setPort p { x with width := 1, lane := j } d)
      finish p (if c.reason = 1 then takeOut p (1 - j) d1 else d1)
    | 2 => finish p (postWidth p (chgReason x) (setPort p { unsoaked with width := 2, lane := 0 } d))
    | 3 =>
      if x.width = 2 then postWidth p (chgReason x) (setPort p { out j with width := 1, lane := 1 - j, two := true } d)
      else if x.lane = j then tryOutage p (setPort p { x with outage := true } d)
      else setPort p (out j) d
    | 4 =>
      if x.width = 2 then postWidth p (chgReason x) (setPort p { out 0 with width := 1, lane := 1, two := true } d)
      else tryOutage p (setPort p { x with outage := true } d)
    | _ => finish p d

/-- The agreed change begins once this end's transmitter is at its switch point and the partner's is known, and, where width or
lane changes, the receiver has switched too (R311, R312). -/
def trySwitch (p : Nat) (d : Dev) : Dev :=
  let x := getPort d p
  match x.prog with
  | some c =>
    if !x.applied && x.peerSwitch.isSome && x.txSwitched && ((chgFormat x c).isNone || x.rxSwitched) then applyChg p d
    else d
  | none => d

/-- Both ends have locked on the retrained lane (R315, R316, R318): the next step of the change, or its end. The
transmitter changes with its next frame, and a lane that LANE_EN has meanwhile excluded is not widened onto (R321). A lane
trained while it is idle carries IDLE-only frames from both ends in its soak (R315 step 2). -/
def afterDone (p : Nat) (d : Dev) : Dev :=
  let x := getPort d p
  match x.prog with
  | none => d
  | some c =>
    if !(x.doneOwn && x.donePeer) then d
    else if c.kind = 4 && x.rung ≠ c.rate + 1 then
      let y := x.updLane 1 fun l => { l with locked := false }
      postWidth p (chgReason x)
        (setPort p { y with
          rung := c.rate + 1, lane := 0, nextWidth := 1, nextLane := 0, doneOwn := false, donePeer := false } d)
    else if x.two && portLaneEn d p 0 && portLaneEn d p 1 then
      finish p (postWidth p (chgReason x) (setPort p { x with width := 2, lane := 0, nextWidth := 2, nextLane := 0 } d))
    else
      let j := c.lane % 2
      finish p (setPort p (x.updLane j fun l => { l with soak := decide (c.kind = 3 ∧ x.width = 1 ∧ x.lane ≠ j ∧ !x.two) }) d)

/-- The lane that the change in progress trains beside traffic. -/
def trainee (x : Port) : Option Nat :=
  match x.prog with
  | some c =>
    if x.applied && !x.outage && decide (x.width = 1) then
      let j := if c.kind = 3 then c.lane % 2 else 1 - x.lane
      if (c.kind = 3 || c.kind = 4) && !(x.lanes j).locked then some j else none
    else none
  | none => none

/-- The rung the change in progress trains at. -/
def trainRung (x : Port) : Nat :=
  match x.prog with
  | some c => if c.kind = 4 then c.rate + 1 else x.rung
  | none => x.rung

/-! ### Lock and loss -/

/-- Narrow to a lane without negotiation: the trailer of the frame being sent says so, and the next frame goes out on that
lane alone (R314). (DEDUCED, log entry 84) -/
def narrowNow (p keep : Nat) (d : Dev) : Dev :=
  trySwitch p (postWidth p 2 (updPort p (fun x => { x with width := 1, lane := keep, nextWidth := 1, nextLane := keep }) d))

/-- The receiver takes frames of a width and lane (R312). Where that is the change in progress it has switched; where the
partner narrows without one, this end's transmitter follows (R314). -/
def rxFormat (p w l : Nat) (d : Dev) : Dev :=
  let x := getPort d p
  let y := { x with rxWidth := w, rxLane := l }
  let agreed := match x.prog with
    | some c => !x.applied && chgFormat x c == some (w, l)
    | none => false
  if agreed then trySwitch p (setPort p { y with rxSwitched := true } d)
  else if x.rxWidth = 2 && w = 1 && x.width = 2 && changing x.st then narrowNow p l (setPort p y d)
  else setPort p y d

/-- A link lane has its frame lock, with swap and polarity corrected, on frames of two-lane or of one-lane format (R285,
R306, R312, R316). The search for a lost lock takes either width and either lane, a lane in its soak apart. -/
def frameLockGained (p j : Nat) (two sw inv : Bool) (d : Dev) : Dev :=
  let x := getPort d p
  match x.st with
  | .training =>
    if portLaneEn d p j then trained p (trainLane p j 1 sw inv d) else d
  | .retraining =>
    if j = x.lane then
      let d1 := trainLane p j (trainRung x) sw inv d
      finish p (resume p (updPort p (fun y => { y with rung := trainRung x, outage := false }) d1))
    else d
  | .nibOnly | .up =>
    if trainee x = some j then
      let d1 := trainLane p j (trainRung x) sw inv d
      let c := x.prog.getD {}
      afterDone p (sendLink p (chgMsg 0x06 c) (updPort p (fun y => { y with doneOwn := true }) d1))
    else if !x.frameLock && (two || !(x.lanes j).soak) then
      let y := x.updLane j fun l => { l with framed := true, swapped := sw, inverted := inv }
      if two && !(y.l0.framed && y.l1.framed) then setPort p y d
      else rxFormat p (if two then 2 else 1) (if two then 0 else j) (setPort p { y with frameLock := true } d)
    else d
  | _ => d

/-- FRAME_LOCK_GAINED on receive lane j, which found `last` after these markers in successive frames
(R280, R283, R285):
the pattern names the link lane and the polarity; in one-lane format the lane stays the link lane it was. -/
def execFrameLockGained (p : Fin 64) (j : Fin 2) (before : List Mark) (last : Mark) (s : State) :
    Host.Outcome State Fault Refusal :=
  lift (fun d =>
    match lockOf (before ++ [last]) with
    | none => d
    | some (lane, inv) =>
      let k := lane.getD (if ((getPort d p.val).lanes j.val).swapped then 1 - j.val else j.val)
      frameLockGained p.val k lane.isSome (decide (k ≠ j.val)) inv d) s

/-- FRAME_LOCK_LOST, from the markers found in the last frames (R285): the search begins again; in TRAINING no lane is locked
any longer. -/
def execFrameLockLost (x : LockLoss) (s : State) : Host.Outcome State Fault Refusal :=
  lift0 (updPort x.p.val fun y =>
    if carriesLocal y.st && lockGone x.seen then
      let out := fun (l : LaneSt) => { l with framed := false, locked := l.locked && y.st != .training }
      { y with frameLock := false, l0 := out y.l0, l1 := out y.l1 }
    else y) s

/-- FRAME_LOCK_TIMEOUT (R319 cause 2). -/
def execFrameLockTimeout (p : Fin 64) (s : State) : Host.Outcome State Fault Refusal :=
  lift (fun d => if changing (getPort d p.val).st && !(getPort d p.val).frameLock then goDown p.val 2 d else d) s

/-- A lane has not locked at rung 1 within 1 ms (R306): it is left out; where neither lane locks, TRAIN_FAIL. -/
def trainLockTimeout (p j : Nat) (d : Dev) : Dev :=
  let x := getPort d p
  if x.st = .training && !(x.lanes j).locked then
    trained p (updPort p (fun y => y.updLane j fun l => { l with lol := true }) d)
  else d

/-- TRAIN_LOCK_TIMEOUT. -/
def execTrainLockTimeout (p : Fin 64) (j : Fin 2) (s : State) : Host.Outcome State Fault Refusal :=
  lift (trainLockTimeout p.val j.val) s

/-- A rung has failed to lock within 1 ms (R307): both ends return to the previous rung and its settings, and it is the
target until the next restart. The change did not complete (R326, R328). -/
def rateLockTimeout (p : Nat) (d : Dev) : Dev :=
  let x := getPort d p
  match x.prog with
  | some c =>
    if c.kind = 4 && x.applied && ((trainee x).isSome || x.st = .retraining) then
      let old := if x.rung = c.rate + 1 then (x.lanes 1).rung else x.rung
      let w := if x.two then 2 else 1
      let ln := if x.two then 0 else x.lane
      let y := { x with
        rung := old, target := old, rateFailed := true, width := w, lane := ln, nextWidth := w, nextLane := ln }
      let y := (y.updLane 0 fun l => { l with locked := l.locked || x.two || decide (x.lane = 0) }).updLane 1
        fun l => { l with locked := l.locked || x.two || decide (x.lane = 1) }
      let y := (y.updLane 0 (eqAt d p old 0)).updLane 1 (eqAt d p old 1)
      let y := { y with eqDefault := y.l0.byDefault || y.l1.byDefault, cmdStatus := if c.cmd then 4 else x.cmdStatus }
      let d1 := setPort p y d
      let d2 := if x.two then postWidth p (chgReason x) d1 else d1
      endChg p false (if x.st = .retraining then resume p d2 else d2)
    else d
  | none => d

/-- RATE_LOCK_TIMEOUT. -/
def execRateLockTimeout (p : Fin 64) (s : State) : Host.Outcome State Fault Refusal :=
  lift (rateLockTimeout p.val) s

/-- PORT_DOWN_DWELL_END (R304, R323). -/
def execPortDownDwellEnd (p : Fin 64) (s : State) : Host.Outcome State Fault Refusal :=
  lift (fun d =>
    let x := getPort d p.val
    if x.st = .down && (portAutoRetrain d p.val || x.restart) then startTraining p.val d else d) s

/-! ### Lane health (R310, R314, R315) -/

/-- Loss of signal or of lock on a lane (R314, R319 cause 1). While the only lane retrains, loss of its lock is part of the
retrain and loss of its signal is not. -/
def laneSignalLoss (p j : Nat) (lol : Bool) (d : Dev) : Dev :=
  let x := getPort d p
  let d1 := updPort p (fun y => y.updLane j fun l => { l with
    los := l.los || !lol, lol := l.lol || lol, locked := false, soak := false, framed := false }) d
  if changing x.st then
    if x.width = 2 then narrowNow p (1 - j) (takeOut p j d1)
    else if x.lane = j then goDown p 1 d1
    else d1
  else if x.st = .training then d1
  else if x.st = .retraining && !lol && x.lane = j then goDown p 1 d1
  else updPort p (fun y => y.updLane j fun l => { l with los := l.los || !lol, lol := l.lol || lol }) d

/-- LANE_SIGNAL_LOSS. -/
def execLaneSignalLoss (p : Fin 64) (j : Fin 2) (lol : Bool) (s : State) : Host.Outcome State Fault Refusal :=
  lift (laneSignalLoss p.val j.val lol) s

/-- A window's counts make the lane failing (R310). -/
def laneFailing (d : Dev) (p j sym unc : Nat) : Bool :=
  decide (portSymThresh d p < sym) || decide (16 ≤ unc) || ((getPort d p).lanes j).los || ((getPort d p).lanes j).lol

/-- A lane counting window ends (R310, R325): its counts, and what a failing lane brings. `sym`, `unc` and `bip` count the
frames of the window that came to the port as decoded flits; those that came symbol by symbol are in the lane's own counts. -/
def laneWindow (p j sym unc bip : Nat) (d : Dev) : Dev :=
  let l0 := (getPort d p).lanes j
  let syms := l0.winSym + sym
  let failing := laneFailing d p j syms (l0.winUnc + unc)
  let d1 := updPort p (fun y => y.updLane j fun l => { l with
    symWin := min 0xFFFFFF syms, uncorr := l.uncorr.add unc, bip := l.bip.add bip, soak := l.soak && !failing
    failing := failing, winSym := 0, winUnc := 0 }) d
  let x := getPort d1 p
  if failing && changing x.st && x.width = 2 then requestChg p { kind := 1, lane := 1 - j, reason := 1 } d1 else d1

/-- LANE_HEALTH_WINDOW. -/
def execLaneHealthWindow (p : Fin 64) (j : Fin 2) (sym unc bip : Nat) (s : State) : Host.Outcome State Fault Refusal :=
  lift (laneWindow p.val j.val sym unc bip) s

/-- LANE_RESTORE_TIMER (R315 steps 1 and 4): the end that took the lane out requests its RETRAIN. -/
def execLaneRestoreTimer (p : Fin 64) (j : Fin 2) (s : State) : Host.Outcome State Fault Refusal :=
  lift (fun d =>
    let x := getPort d p.val
    let l := x.lanes j.val
    if changing x.st && l.fail && !l.soak && portLaneEn d p.val j.val && x.width = 1 && x.lane != j.val then
      requestChg p.val { kind := 3, lane := j.val, reason := 5 } d
    else d) s

/-- LANE_SOAK_END (R315 step 3): the end that took the lane out requests WIDEN and clears the mark; a lane that LANE_EN excludes
is never restored. -/
def execLaneSoakEnd (p : Fin 64) (j : Fin 2) (s : State) : Host.Outcome State Fault Refusal :=
  lift (fun d =>
    let x := getPort d p.val
    let l := x.lanes j.val
    if l.soak && l.fail && portLaneEn d p.val 0 && portLaneEn d p.val 1 then
      requestChg p.val { kind := 2, reason := 5 }
        (setPort p.val (x.updLane j.val fun l => { l with soak := false, fail := false }) d)
    else if l.soak then setPort p.val (x.updLane j.val fun l => { l with soak := false }) d
    else d) s

/-! ### Link-local messages (R301 to R305, R311 to R316) -/

/-- Take a link-local message as handled. -/
def takeLink (p : Nat) (m : LinkMsg) (d : Dev) : Dev := updPort p (fun x => { x with llIn := x.llIn.eraseP fun e => e.1 = m }) d

/-- Act on a link-local message of an NTYPE on a port that carries them; one that fails its CRC is counted (R301). -/
def onLink (p : Nat) (nt : Byte) (m : LinkMsg) (g : Dev → Dev) (d : Dev) : Dev :=
  if m.ntype = nt && carriesLocal (getPort d p).st then
    let d1 := takeLink p m d
    if m.crc = linkCrc m then g d1 else updPort p (fun x => { x with crcFail := x.crcFail.add 1 }) d1
  else d

/-- PORT_n_PARTNER_INFO from a HELLO's VALUE (R303, R327). -/
def helloInfo (v : Word64) : Word64 :=
  ins 48 (fld v 32 16) ||| ins 26 (fld v 0 6) ||| ins 24 (fld v 6 2) ||| ins 22 (fld v 8 2) ||| ins 21 (fld v 10 1)
  ||| ins 20 1 ||| ins 0 (fld v 16 16)

/-- A HELLO has arrived (R303): the partner is stored; a new UNIT_ID takes an UP port down. -/
def linkHello (p : Nat) (m : LinkMsg) (d : Dev) : Dev :=
  let x := getPort d p
  if x.st = .up && m.unitId ≠ x.unitId then goDown p 7 d
  else
    let first := !bit x.info 20
    let d1 := setPort p { x with unitId := m.unitId, info := helloInfo m.value } d
    if first then proceedUp p d1 else wantRate p d1

/-- LINK_HELLO. -/
def execLinkHello (p : Fin 64) (m : LinkMsg) (s : State) : Host.Outcome State Fault Refusal :=
  lift (onLink p.val 0x01 m (linkHello p.val m)) s

/-- LINK_HELLO_TIMER (R303). -/
def execLinkHelloTimer (p : Fin 64) (s : State) : Host.Outcome State Fault Refusal :=
  lift0 (fun d => if changing (getPort d p.val).st then sendHello p.val d else d) s

/-- The responder accepts a change with CHANGE_ACK (R311 step 2). A partner that asks a port at rung 3 for rung 2 is hot
until it asks for rung 3 (R318; DEDUCED, log entry 148). -/
def acceptChg (p : Nat) (c : Chg) (merged : Bool) (answer : Byte) (d : Dev) : Dev :=
  sendLink p (chgMsg 0x03 { c with token := answer }) (updPort p (fun x => { x with
    prog := some c, merged := merged, mine := merged, own := none, applied := false
    peerHot := if c.kind = 4 ∧ !merged then decide (c.rate = 1 ∧ (x.rung = 3 ∨ x.peerHot)) else x.peerHot }) d)

/-- CHANGE_REQ as R313 says. -/
def changeReq (p : Nat) (m : LinkMsg) (d : Dev) : Dev :=
  let x := getPort d p
  let r := msgChg m
  if !changing x.st then d
  else if x.prog.isSome then sendLink p { ntype := 0x05, token := m.token } d
  else
    match x.own with
    | none => acceptChg p r false m.token d
    | some o =>
      if sameChg r o then acceptChg p o true m.token d
      else if m.unitId.toNat < d.fuse.unitId.toNat then
        acceptChg p r false m.token (setPort p { x with own := none, plan := o :: x.plan } d)
      else d

/-- CHANGE_REQ. -/
def execChangeReq (p : Fin 64) (m : LinkMsg) (s : State) : Host.Outcome State Fault Refusal :=
  lift (onLink p.val 0x02 m (changeReq p.val m)) s

/-- CHANGE_ACK: the requester sends CHANGE_GO; in a merged change it is the partner's GO (R311, R313). It names the
partner's switch point. -/
def changeAck (p : Nat) (m : LinkMsg) (d : Dev) : Dev :=
  let x := getPort d p
  match x.own with
  | some o =>
    if o.token = m.token then
      trySwitch p (sendLink p (chgMsg 0x04 o) (setPort p { x with
        own := none, prog := some o, mine := true, merged := false, applied := false, peerSwitch := some m.switch } d))
    else d
  | none =>
    if x.merged && !x.applied && x.prog.any (fun c => c.token = m.token) then
      trySwitch p (setPort p { x with peerSwitch := some m.switch } d)
    else d

/-- CHANGE_ACK. -/
def execChangeAck (p : Fin 64) (m : LinkMsg) (s : State) : Host.Outcome State Fault Refusal :=
  lift (onLink p.val 0x03 m (changeAck p.val m)) s

/-- CHANGE_GO. -/
def execChangeGo (p : Fin 64) (m : LinkMsg) (s : State) : Host.Outcome State Fault Refusal :=
  lift (onLink p.val 0x04 m fun d =>
    let x := getPort d p.val
    if !x.mine && !x.merged && !x.applied && x.prog.any (fun c => c.token = m.token) then
      trySwitch p.val (setPort p.val { x with peerSwitch := some m.switch } d)
    else d) s

/-- CHANGE_BUSY: the request waits at least 50 microseconds (R313). -/
def execChangeBusy (p : Fin 64) (m : LinkMsg) (s : State) : Host.Outcome State Fault Refusal :=
  lift0 (onLink p.val 0x05 m fun d =>
    let x := getPort d p.val
    match x.own with
    | some o =>
      if o.token = m.token then
        setPort p.val { x with own := none, plan := o :: x.plan, busyWait := true, cmdStatus := if o.cmd then 2 else x.cmdStatus } d
      else d
    | none => d) s

/-- CHANGE_BUSY_WAIT_END (R313). -/
def execChangeBusyWaitEnd (p : Fin 64) (s : State) : Host.Outcome State Fault Refusal :=
  lift (fun d =>
    let x := getPort d p.val
    if x.busyWait then nextPlan p.val (x.plan.length + 1) (setPort p.val { x with busyWait := false } d) else d) s

/-- CHANGE_DONE: the partner's receiver has locked (R316). -/
def execChangeDone (p : Fin 64) (m : LinkMsg) (s : State) : Host.Outcome State Fault Refusal :=
  lift (onLink p.val 0x06 m fun d =>
    let x := getPort d p.val
    if x.applied && x.prog.any (fun c => c.kind = 3 || c.kind = 4) then afterDone p.val (setPort p.val { x with donePeer := true } d)
    else d) s

/-- CHANGE_REQ_TIMEOUT (R311): resent with the same TOKEN up to four times, then CHANGE_FAIL. -/
def execChangeReqTimeout (p : Fin 64) (s : State) : Host.Outcome State Fault Refusal :=
  lift (fun d =>
    let x := getPort d p.val
    match x.own with
    | some o =>
      if o.tries < 4 then sendLink p.val (chgMsg 0x02 o) (setPort p.val { x with own := some { o with tries := o.tries + 1 } } d)
      else goDown p.val 4 d
    | none => d) s

/-- LINK_MODE: the partner's announcement (R305). -/
def linkMode (p : Nat) (m : LinkMsg) (d : Dev) : Dev :=
  let all := m.info.getLsbD 0
  let d1 := updPort p (fun x => { x with annPeer := some all }) d
  if all then enterUp p d1 else if (getPort d p).st = .up then leaveUp p 8 .nibOnly d1 else d1

/-- LINK_MODE. -/
def execLinkMode (p : Fin 64) (m : LinkMsg) (s : State) : Host.Outcome State Fault Refusal :=
  lift (onLink p.val 0x07 m (linkMode p.val m)) s

/-! ### Port commands (R304, R321 to R323) -/

/-- The fabric manager writes: PORT_n_CTL is fabric-owned (R268, R321). -/
def isFab : Master → Bool
  | .fabricManager => true
  | .fn _ => false

/-- CMD_STATUS of a port. -/
def setCmdStatus (p n : Nat) (d : Dev) : Dev := updPort p (fun x => { x with cmdStatus := n }) d

/-- A CMD that asks for a change (R323): refused, busy or requested. -/
def portCmd (p : Nat) (c : Chg) (d : Dev) : Dev :=
  let x := getPort d p
  if !changing x.st || !chgFits d p c then setCmdStatus p 3 d
  else if x.own.isSome || x.prog.isSome || x.busyWait then setCmdStatus p 2 d
  else requestChg p { c with cmd := true } (setCmdStatus p 1 d)

/-- CMD RESTART: the port goes down with cause DISABLED and trains (R323). -/
def portRestart (p : Nat) (d : Dev) : Dev :=
  if (getPort d p).st = .disabled then setCmdStatus p 3 d
  else setCmdStatus p 0 (updPort p (fun x => { x with restart := true }) (goDown p 6 d))

/-- The port is disabled (R304, R319 cause 6). -/
def portOff (p : Nat) (d : Dev) : Dev :=
  if (getPort d p).st = .disabled then d
  else
    updPort p (fun y => { y.clear with
      st := .disabled, cause := 6, cmdStatus := if y.cmdStatus = 1 then 4 else y.cmdStatus })
      (requeuePort p (leaveUp p 6 .disabled (dropCur p d)))

/-- ENABLE of a port's control register as it now stands takes effect (R304). -/
def portEnableSet (p : Nat) (d : Dev) : Dev :=
  if portEnable d p then (if (getPort d p).st = .disabled then startTraining p d else d) else portOff p d

/-- Store PORT_n_CTL, with ENABLE and DATA_EN taking effect (R304, R305). -/
def putPortCtl (p : Nat) (v : Word64) (d : Dev) : Dev :=
  announce p (portEnableSet p (putReg (0x10000 + p * 0x100) 0xBB00010000080819 v d))

/-- PORT_ENABLE. -/
def execPortEnable (m : Master) (p : Fin 64) (s : State) : Host.Outcome State Fault Refusal :=
  fabRow m (.portEnable m p) s (lift (fun d => if isFab m then putPortCtl p.val (portCtl d p.val ||| ins 63 1) d else d) s)

/-- PORT_DISABLE. -/
def execPortDisable (m : Master) (p : Fin 64) (s : State) : Host.Outcome State Fault Refusal :=
  fabRow m (.portDisable m p) s (lift (fun d => if isFab m then putPortCtl p.val (portCtl d p.val &&& ~~~ ins 63 1) d else d) s)

/-- NARROW_LANE0 (R323 code 1). -/
def execNarrowLane0 (m : Master) (p : Fin 64) (s : State) : Host.Outcome State Fault Refusal :=
  fabRow m (.narrowLane0 m p) s (lift (fun d => if isFab m then portCmd p.val { kind := 1, lane := 0 } d else d) s)

/-- NARROW_LANE1 (R323 code 2). -/
def execNarrowLane1 (m : Master) (p : Fin 64) (s : State) : Host.Outcome State Fault Refusal :=
  fabRow m (.narrowLane1 m p) s (lift (fun d => if isFab m then portCmd p.val { kind := 1, lane := 1 } d else d) s)

/-- WIDEN (R323 code 3). -/
def execWiden (m : Master) (p : Fin 64) (s : State) : Host.Outcome State Fault Refusal :=
  fabRow m (.widen m p) s (lift (fun d => if isFab m then portCmd p.val { kind := 2 } d else d) s)

/-- RETRAIN_LANE0 (R323 code 4). -/
def execRetrainLane0 (m : Master) (p : Fin 64) (s : State) : Host.Outcome State Fault Refusal :=
  fabRow m (.retrainLane0 m p) s (lift (fun d => if isFab m then portCmd p.val { kind := 3, lane := 0 } d else d) s)

/-- RETRAIN_LANE1 (R323 code 5). -/
def execRetrainLane1 (m : Master) (p : Fin 64) (s : State) : Host.Outcome State Fault Refusal :=
  fabRow m (.retrainLane1 m p) s (lift (fun d => if isFab m then portCmd p.val { kind := 3, lane := 1 } d else d) s)

/-- PORT_RESTART (R323 code 6). -/
def execPortRestart (m : Master) (p : Fin 64) (s : State) : Host.Outcome State Fault Refusal :=
  fabRow m (.portRestart m p) s (lift (fun d => if isFab m then portRestart p.val d else d) s)

/-! ### What other parts of the device ask of a port -/

/-- An event at this FSEQ happened less than REPLAY_TO ago. -/
def recently (d : Dev) (p : Nat) (at_ : Option (BitVec 12 × Nat)) (q : BitVec 12) : Bool :=
  match at_ with
  | some (q0, t) => q0 = q && decide (d.clk.now < t + portReplayTo d p)
  | none => false

/-- Ask the partner for a resend (R296). -/
def requestRetry (p : Nat) (d : Dev) : Dev :=
  let x := getPort d p
  if recently d p x.retryAt x.expect then d
  else setPort p { x with retryLeft := 4, retryAt := some (x.expect, d.clk.now), tLoss := some d.clk.now } d

/-- A tile of two ports is fenced until device reset (R414). -/
def tileFence (p : Nat) (d : Dev) : Dev :=
  [p / 2 * 2, p / 2 * 2 + 1].foldl (fun d q => updPort q (fun x => { x with noRetrain := true }) (goDown q 6 d)) d

/-- The temperature has been sampled (R317, R318). -/
def portThermal (p : Nat) (d : Dev) : Dev :=
  let x := getPort d p
  if !changing x.st then d
  else
    let tj := d.therm.tjMax
    let d1 := wantRate p (setPort p { x with thermal :=
      if 250 < tj then true else if tj ≤ 240 then false else x.thermal } d)
    let drift := drifted d p
    let ask := fun j d => requestChg p { kind := 3, lane := j, reason := 3 } d
    if x.width = 2 then
      let d2 := if drift 0 then ask 0 d1 else d1
      if drift 1 then ask 1 d2 else d2
    else if drift x.lane then ask x.lane d1
    else d1

/-- A commit has changed MAX_RATE or LANE_EN of a port (R307, R321): carried out through changes; in RETRAINING, and while one is
under way, once it ends. -/
def portCommitted (p : Nat) (old : Word64) (d : Dev) : Dev :=
  let d1 := if fld old 58 2 + 1 ≠ portMaxRung d p then updPort p (fun x => { x with target := 3, rateFailed := false }) d else d
  if (getPort d1 p).st = .training then trained p d1
  else
    let both := portLaneEn d1 p 0 && portLaneEn d1 p 1
    let d2 := if changing (getPort d1 p).st || (getPort d1 p).st = .retraining then
        updPort p (fun x => { x with widenDue := both && (x.widenDue || !(bit old 56 && bit old 57)) }) d1
      else d1
    wantRate p (carryLanes p d2)

end Sys2Proof.Machine
end

