-- ==== Sys2Proof/Machine/Faults.lean ====
section
/-!
DEFINITION. Faults: what each source's report brings (R409 to R434): grafts and lost slots (R190 to R192), failed Trellis
units (R231), uncorrectable words (R416), forced and broken reports (R422), and the clearing of records (R425, R426).
-/
namespace Sys2Proof.Machine

open Sys2Proof

/-! ### Engines (R187, R190 to R193) -/

/-- Connections of a function homed on a slot, by number. -/
def slotConns (d : Dev) (f : Option FnId) (s : Nat) : List Nat :=
  (d.xpt.conns.filter fun c => decide (connSlot c.1 = s) && f.all fun g => decide (c.2.fn = g)).map (·.1)

/-- Match contexts of a function homed on a slot, by number. -/
def slotMctxs (d : Dev) (f : Option FnId) (s : Nat) : List Nat :=
  (d.mtc.ctxs.filter fun m => decide (mctxSlot m.1 = s) && f.all fun g => decide (m.2.fn = g)).map (·.1)

/-- ENGINE_GRAFTED or ENGINE_LOST, to the owner function and to every function with a context on the slot (R191). -/
def postEngine (code : EvCode) (engine spare slot : Nat) (d : Dev) : Dev :=
  let fs := (fnKeys d).map fnOfKey
  fs.foldl (fun d f =>
    let nc := (slotConns d (some f) slot).length
    let nm := (slotMctxs d (some f) slot).length
    if isOwner d f || decide (0 < nc + nm) then
      postEvent f code (BitVec.ofNat 32 engine) (BitVec.ofNat 64 (spare + slot * 2 ^ 8)) (BitVec.ofNat 64 (nc + nm * 2 ^ 24)) d
    else d) d

/-- A match context becomes Lost (R164, R192, R416). -/
def loseMctx (m : Nat) (d : Dev) : Dev :=
  match getMctx d m with
  | none => d
  | some _ =>
    let d1 := discardMsgs m false (flushPosted m .engineLost d)
    match getMctx d1 m with
    | none => d1
    | some x => setMctx m { x with st := .lost } d1

/-- A slot is lost (R192). -/
def loseSlot (engine slot : Nat) (d : Dev) : Dev :=
  let cs := slotConns d none slot
  let ms := slotMctxs d none slot
  let d1 := postEngine .engineLost engine 0x3F slot { d with eng := { d.eng with lost := d.eng.lost ||| 2 ^ slot } }
  let d2 := cs.foldl (fun d n => failConn n .engineLost .engineLost .engineLost false d) d1
  ms.foldl (fun d m => loseMctx m d) d2

/-- A spare that is free and has not failed (R190). -/
def freeSpare (d : Dev) (k : Nat) : Bool :=
  !d.eng.failed.testBit k && !(d.eng.slotMpe.any fun e => e.2 == k) && !(d.eng.grafting.any fun g => g.2.2 == k)

/-- The recorded unit has failed: the recording stops at once (R476). -/
def inkUnitFailed (u : Nat) (d : Dev) : Dev := if d.ink.unit = u then inkStop 4 d else d

/-- Packets that wait in the miss buffer for a slot's contexts are refused while it is fenced (R190 step 3). -/
def fenceSlot (slot : Nat) (d : Dev) : Dev :=
  (slotConns d none slot).foldl (fun d n => refuseMiss n .grafting d)
    { d with xpt := { d.xpt with
      onDie := d.xpt.onDie.filter fun n => connSlot n != slot
      fetching := d.xpt.fetching.filter fun n => connSlot n != slot } }

/-- An engine has failed (R190, R192): its slot is fenced for a graft onto the lowest free spare, or lost.
(DEDUCED, log entry 108) -/
def engineFails (k : Nat) (d : Dev) : Dev :=
  if d.eng.failed.testBit k then d
  else
    let slot := servedSlot d k
    let d1 := inkUnitFailed k { d with eng := { d.eng with failed := d.eng.failed ||| 2 ^ k } }
    match slot with
    | none => d1
    | some s =>
      let d2 : Dev := { d1 with eng := { d1.eng with
        slotMpe := tdel d1.eng.slotMpe s, grafting := d1.eng.grafting.filter fun g => g.1 != s } }
      match [32, 33].find? (freeSpare d2) with
      | some sp => fenceSlot s { d2 with eng := { d2.eng with grafting := d2.eng.grafting ++ [(s, k, sp)] } }
      | none => loseSlot k s d2

/-- GRAFT_DONE (R190 steps 4 to 6): the spare serves the slot, atomic writes not yet acknowledged are issued again, requests that
were held are sent again, its contexts go on, ENGINE_GRAFTED is posted. (DEDUCED, log entry 143) -/
def execGraftDone (slot : Fin 32) (s : State) : Host.Outcome State Fault Refusal :=
  lift (fun d =>
    match d.eng.grafting.find? (fun g => g.1 == slot.val) with
    | none => d
    | some (_, k, sp) =>
      let d1 : Dev := { d with eng := { d.eng with
        slotMpe := tput d.eng.slotMpe slot.val sp, grafting := d.eng.grafting.filter fun g => g.1 != slot.val } }
      postEngine .engineGrafted k sp slot.val
        ((d1.xpt.conns.map (·.1)).foldl (fun d n => goOn n (if engineUp d n then afterExec n false d else d))
          (releaseHeld slot.val (reissueAtomics slot.val d1)))) s

/-! ### Trellis units (R231) -/

/-- A Trellis unit has failed: every operation on a tree whose entry names it ends with TREE_FAULT. -/
def unitFails (k : Nat) (d : Dev) : Dev :=
  let d1 := inkUnitFailed (0x40 + k) { d with tre := { d.tre with failed := d.tre.failed ||| 2 ^ k } }
  d1.tre.nodes.foldl (fun d e => if (opEntries d e.1).any fun t => t.1.tu = k then endIfRunning e.1 .treeFault d else d) d1

/-! ### Reports (R411 to R415) -/

/-- What an uncorrectable word does to its holder (R416); `object` names the holder, and for a cache the entry by its place: in the
lookaside buffer, or after its places in the walk cache. -/
def eccEffect (src detail object : Nat) (d : Dev) : Dev :=
  match detail with
  | 0x01 => failConn object .connError .connError .connError false d
  | 0x02 => loseMctx object d
  | 0x03 => { d with xl := { d.xl with l2 := d.xl.l2.eraseIdx object } }
  | 0x04 => endIfRunning object .treeFault d
  | 0x05 => { d with ink := { d.ink with segs := tmod d.ink.segs object fun s => { s with damaged := true } } }
  | 0x10 => { d with xpt := { d.xpt with onDie := d.xpt.onDie.filter (· != object) } }
  | 0x11 =>
    let tile := src - 0xF8
    let n := ((tget d.xl.tlb tile).getD []).length
    if object < n then { d with xl := { d.xl with tlb := tmod d.xl.tlb tile fun l => l.eraseIdx object } }
    else { d with xl := { d.xl with wcache := tmod d.xl.wcache tile fun l => l.eraseIdx (object - n) } }
  | 0x12 => { d with xpt := { d.xpt with miss := d.xpt.miss.eraseIdx object } }
  | 0x13 => updPort src (fun x => { x with bad := x.bad ++ [BitVec.ofNat 12 object] }) d
  | _ => d

/-- The class of an uncorrectable word by its holder, with the sources that hold such words (R414, R416). -/
def eccClass (src detail : Nat) : Option FClass :=
  let mem := decide (0x100 ≤ src ∧ src ≤ 0x103)
  match detail with
  | 0x01 | 0x02 | 0x04 | 0x05 => if mem then some .contained else none
  | 0x03 => if mem then some .corrected else none
  | 0x06 => if mem then some .fatal else none
  | 0x10 | 0x12 => if 0xC0 ≤ src ∧ src < 0xE2 then some .corrected else none
  | 0x11 => if 0xF8 ≤ src ∧ src ≤ 0xF9 then some .corrected else none
  | 0x13 => if src < 0x40 then some .contained else none
  | _ => none

/-- A source that reports corrected single-bit errors (R414). -/
def hasEccCorr (src : Nat) : Bool :=
  decide (0xC0 ≤ src ∧ src < 0xE2) || decide (0xF8 ≤ src ∧ src ≤ 0xF9) || decide (0x100 ≤ src ∧ src ≤ 0x103) || decide (src = 0x149)

/-- STALL, PARITY or an uncorrectable word: what fails a unit (R414). -/
def hardCause (cause : Nat) : Bool := cause = caStall || cause = caParity || cause = caEccUncorr

/-- The class of a cause at a source, by R414's table; of an uncorrectable word whose holder DETAIL names, by R416's. None: the
source has no such report. -/
def causeClass (src cause detail : Nat) : Option FClass :=
  let one := fun (c : Nat) (k : FClass) => if cause = c then some k else none
  if cause = caEccUncorr && (eccClass src detail).isSome then eccClass src detail
  else if cause = caEccCorr then (if hasEccCorr src then some .corrected else none)
  else if src < 0x40 then (if cause = caLinkDown || cause = caStall || cause = caParity then some .contained else none)
  else if src < 0x80 then
    (if cause = caParity then some .corrected else if cause = caProtocol || cause = caDomain then some .contained else none)
  else if src < 0xC0 then one caLaneOut .corrected
  else if src < 0xE2 then (if hardCause cause || cause = caProtocol then some .contained else none)
  else if 0xE8 ≤ src ∧ src < 0xF0 then (if hardCause cause then some .contained else none)
  else if 0xF0 ≤ src ∧ src < 0xF4 then one caPcie .contained
  else if 0xF4 ≤ src ∧ src < 0xF8 then one caDomain .contained
  else if src = 0xF8 ∨ src = 0xF9 then one caWalkTarget .contained
  else if src = 0x104 ∨ src = 0x105 then (if cause = caHbmStack || cause = caThermal then some .fatal else none)
  else if 0x108 ≤ src ∧ src < 0x148 then (if cause = caStall || cause = caParity then some .fatal else none)
  else if src = srcQuill then (if cause = caWatchdog || cause = caEccUncorr then some .fatal else none)
  else if src = srcTables then one caEccUncorr .fatal
  else if src = srcAvsbus then one caAvsbus .contained
  else if src = srcReportPath then one caReportPath .contained
  else if src = srcCfgCrc then one caCfgCrc .contained
  else if src = srcThermtrip then one caThermal .fatal
  else if src = srcMgr then one caTakeover .corrected
  else if 0x150 ≤ src ∧ src < 0x15B then one caRegParity .contained
  else if 0x160 ≤ src ∧ src < 0x164 then one caLinkDown .corrected
  else if 0x168 ≤ src ∧ src < 0x170 then one caTapStall .contained
  else none

/-- An HBM stack has failed (R420). -/
def stackFails (n : Nat) (d : Dev) : Dev :=
  let g := fun h : HbmT => { h with failed := true }
  { d with therm := if n = 0 then { d.therm with hbm0 := g d.therm.hbm0 } else { d.therm with hbm1 := g d.therm.hbm1 } }

/-- What a source's error does to its object (R414, R416): a tile is fenced, a beat's flit is replayed, an engine is grafted or
lost, a Trellis unit fails, a stored word's holder suffers, a stack has failed, Quill restarts. What a port's loss, a lane, a
register mismatch or another unit's own event brings comes with that event's command. -/
def faultEffect (src cause detail object : Nat) (d : Dev) : Dev :=
  if cause = caEccUncorr && (eccClass src detail).isSome then eccEffect src detail object d
  else if src < 0x40 then (if cause = caStall || cause = caParity then tileFence src d else d)
  else if src < 0x80 then (if cause = caParity then requestRetry (src - 0x40) d else d)
  else if decide (0xC0 ≤ src ∧ src < 0xE2) && hardCause cause then engineFails (src - 0xC0) d
  else if decide (0xE8 ≤ src ∧ src < 0xF0) && hardCause cause then unitFails (src - 0xE8) d
  else if decide (src = 0x104 ∨ src = 0x105) && cause = caHbmStack then stackFails (src - 0x104) d
  else if src = srcQuill then emit .quillRestart d
  else d

/-- The sources a report is recorded on: both ports of a port tile for STALL and PARITY (R414). -/
def recordOn (src cause : Nat) : List Nat :=
  if src < 0x40 && (cause = caStall || cause = caParity) then [src / 2 * 2, src / 2 * 2 + 1] else [src]

/-- An error of a host port is reported to the host too (R83): DETAIL is its status bit, OBJECT its function. -/
def tellHost (src cause : Nat) (detail : Byte) (object : BitVec 24) (d : Dev) : Dev :=
  if decide (0xF0 ≤ src ∧ src < 0xF4) && cause == caPcie then
    aerReport { port := Fin.ofNat 4 (src - 0xF0), num := Fin.ofNat 256 object.toNat } (detail.toNat % 32) d
  else d

/-- A source has met errors of one cause: their effect, and its capture register drives the report that the collector takes at
the next tick (R409, R411, R413); a masked source's is ignored (R412), and a cause the source does not have is none.
(DEDUCED, log entry 10) (DESIGN CHOICE, log entry 125) -/
def faultReport (x : FltIn) (d : Dev) : Dev :=
  let c := x.cause.toNat
  match causeClass x.src.val c x.detail.toNat with
  | none => d
  | some k =>
    if !knownSource d x.src.val || (getRec d x.src.val).masked then d
    else
      (recordOn x.src.val c).foldl (fun d q => report q k c x.detail x.object x.n d)
        (faultEffect x.src.val c x.detail.toNat x.object.toNat (tellHost x.src.val c x.detail x.object d))

/-- FAULT_REPORT (R413). -/
def execFaultReport (x : FltIn) (s : State) : Host.Outcome State Fault Refusal := lift (faultReport x) s

/-- HANDSHAKE_STALL (R419). -/
def execHandshakeStall (src : Fin 512) (s : State) : Host.Outcome State Fault Refusal :=
  lift (faultReport { src := src, cause := BitVec.ofNat 8 caStall }) s

/-- NOTIFY_HOLDOFF_END (R364): the latest state is sent. -/
def execNotifyHoldoffEnd (s : State) : Host.Outcome State Fault Refusal :=
  lift0 (fun d => sendNotify { d with svc := { d.svc with notifyHold := false } }) s

/-- REPORT_PATH_FAILURE (R412). -/
def execReportPathFailure (src : Fin 512) (s : State) : Host.Outcome State Fault Refusal := lift (reportPath src.val) s

/-! ### Clearing and injecting (R422, R425, R426, R432) -/

/-- A record's clear is ignored: it is fatal, and the device is in Quarantine (R425). -/
def clearBarred (d : Dev) (src : Nat) : Bool :=
  d.mode = .quarantine && (getRec d src).valid && decide ((getRec d src).cls = .fatal)

/-- Clear a record (R425). An error of the same tick is taken after it, at the tick (R16). -/
def clearRec (src : Nat) (d : Dev) : Dev :=
  if clearBarred d src then d else setRec src (getRec d src).cleared d

/-- Clear a source's corrected count (R432). -/
def clearCorr (src : Nat) (d : Dev) : Dev := setRec src { getRec d src with corr := 0 } d

/-- FAULT_RECORD_CLEAR (R425). -/
def execFaultRecordClear (m : Master) (src : Fin 512) (s : State) : Host.Outcome State Fault Refusal :=
  fabRow m (.faultRecordClear m src) s (
    lift0 (fun d => if mayWrite d m && knownSource d src.val then clearRec src.val d else d) s)

/-- CORR_CLR (R432). -/
def execCorrClr (m : Master) (src : Fin 512) (s : State) : Host.Outcome State Fault Refusal :=
  fabRow m (.corrClr m src) s (lift0 (fun d => if mayWrite d m && knownSource d src.val then clearCorr src.val d else d) s)

/-- FLT_CTL (R429). -/
def fltCtl (d : Dev) : Word64 := regInForce d 0x4000 0

/-- FCLASS is written: a field of type RW, which the checksum covers (R434, R491, R494). -/
def putFclass (src fc : Nat) (d : Dev) : Dev :=
  let r := getRec d src
  let d1 : Dev := setRec src { r with fclass := fc }
    { d with cfg := { d.cfg with bad := d.cfg.bad.filter fun x => x != (2, 0x7000 + 8 * src) } }
  if r.fclass = fc then d1 else noteWrite d1

/-- A write of FORCE = 1 with an FCLASS (R422, R434): ignored but for FCLASS where it is not permitted; else the source drives a
report at the next tick. What DETAIL and OBJECT a forced record holds is not stated: free values. -/
def fltForce (src : Nat) (fc : Nat) (d : Dev) : Dev :=
  let d1 := putFclass src fc d
  if !bit (fltCtl d) 0 || fencedBlk d 2 || (decide (fc = 3) && !bit (fltCtl d) 1) then d1
  else
    let v := takeFree d1
    let cls : FClass := if fc = 1 then .corrected else if fc = 3 then .fatal else .contained
    report src cls caForced (v.1.setWidth 8) ((v.1 >>> 8).setWidth 24) 1 v.2

/-- FLT_FORCE (R422). -/
def execFltForce (m : Master) (src : Fin 512) (fc : Fin 4) (s : State) : Host.Outcome State Fault Refusal :=
  fabRow m (.fltForce m src fc) s (
    lift (fun d => if mayWrite d m && knownSource d src.val then fltForce src.val fc.val d else d) s)

/-- BREAK of a source: its pair is driven illegal for two ticks (R422). -/
def breakPair (src : Nat) (d : Dev) : Dev :=
  if knownSource d src && !(getRec d src).masked then setRec src { getRec d src with broken := 2 } d else d

/-- FLT_BREAK (R422): the pair is driven illegal, which R412 records; ignored while INJECT_EN is 0. -/
def execFltBreak (m : Master) (src : Fin 512) (s : State) : Host.Outcome State Fault Refusal :=
  fabRow m (.fltBreak m src) s (
    lift (fun d => if mayWrite d m && bit (fltCtl d) 0 && !fencedBlk d 2 then breakPair src.val d else d) s)

/-- FAULT_CLEAR (R426). -/
def execFaultClear (f : FnId) (e : Desc) (s : State) : Host.Outcome State Fault Refusal :=
  admin (.faultClear f e) 0x4A .owner f e (fun _ d =>
    let src := e.f 0x08 0 9
    let all := bit e.w1 16
    let corr := bit e.w1 17
    if all then
      let on := (List.range 512).filter fun n => knownSource d n && !clearBarred d n
      let n := (on.filter fun k => (getRec d k).valid).length
      let d1 := on.foldl (fun d k => if thas d.flt.recs k then
        (let c := clearRec k d; if corr then clearCorr k c else c) else d) d
      .done .success (BitVec.ofNat 64 n) 0 d1
    else if !knownSource d src then say .invalidParam d
    else if clearBarred d src then say .notPermitted d
    else
      let d1 := clearRec src d
      .done .success (BitVec.ofNat 64 (b2n (getRec d src).valid)) 0 (if corr then clearCorr src d1 else d1)) s

/-! ### Stored words (R416, R418, R420) -/

/-- ECC_UNCORRECTABLE (R416). -/
def execEccUncorrectable (src : Fin 512) (detail : Byte) (object : BitVec 24) (s : State) : Host.Outcome State Fault Refusal :=
  lift (fun d =>
    match eccClass src.val detail.toNat with
    | none => d
    | some c =>
      report src.val c caEccUncorr detail object 1 (eccEffect src.val detail.toNat object.toNat d)) s

/-- ECC_CORRECTED (R416). -/
def execEccCorrected (src : Fin 512) (s : State) : Host.Outcome State Fault Refusal :=
  lift0 (fun d => if hasEccCorr src.val then reportCorrected src.val 1 d else d) s

/-- HBM_STACK_FAILURE (R420): the stack has failed, which is fatal. -/
def execHbmStackFailure (n : Fin 2) (s : State) : Host.Outcome State Fault Refusal :=
  lift (fun d => report (srcHbm n.val) .fatal caHbmStack 0 0 1 (stackFails n.val d)) s

end Sys2Proof.Machine
end

