-- ==== Sys2Proof/Machine/Trees.lean ====
section
/-!
DEFINITION. Tree packets at a node (R198, R208 to R217, R227, R228), and the end of a staged copy (R177).
-/
namespace Sys2Proof.Machine

open Sys2Proof

/-- A tree-packet command: the packet must be of the row's type, and the device not in Quarantine (R410). -/
def onTree (pt : Byte) (port : Fin 64) (p : TreePkt) (act : TreeWords → Dev → Dev) (s : State) :
    Host.Outcome State Fault Refusal :=
  lift (fun d =>
    if p.ptype = pt && d.mode ≠ .quarantine then
      inkArrive (.tree p) ((entryFor d p.tree.toNat p.rh.epoch).any fun t => tuRecorded d t.tu) .once (treeBytes p)
        (treeArrive port.val p act) d
    else d) s

/-- The operation a packet belongs to, bound to the packet's epoch and with its header known (R206, R232). -/
def withOp (p : TreePkt) (act : TreeOp → Dev → Dev) (d : Dev) : Dev :=
  let tree := p.tree.toNat
  let d1 := updOpn tree (fun o => { o with hdr := some (o.hdr.getD (pktHdr p)) }) (bindAny tree p.rh.epoch d)
  match (getNode d1 tree).op with
  | none => d1
  | some o => act o d1

/-- TREE_UP: a contribution from a child (R212, R213, R217); beyond its credit it is discarded (R198). -/
def treeUp (port : Nat) (p : TreePkt) (t : TreeWords) (d : Dev) : Dev :=
  let tree := p.tree.toNat
  let credit := match (getNode d tree).op with | some o => max t.depth o.credited | none => t.depth
  if !(p.null && p.chunk == 0xFFFFFFFF) && decide (credit ≤ p.chunk.toNat) then treeDiscard port p d
  else takeContrib tree t (pktHdr p)
    { child := port, chunk := p.chunk.toNat, null := p.null, flags := p.flags &&& 0x1F, epoch := p.rh.epoch, data := p.payload } d

/-- TREE_UP. -/
def execTreeUp (port : Fin 64) (p : TreePkt) (s : State) : Host.Outcome State Fault Refusal :=
  onTree ptTreeUp port p (treeUp port.val p) s

/-- TREE_DOWN: a result chunk from the parent, forwarded and placed (R212, R214). -/
def treeDown (port : Nat) (p : TreePkt) (t : TreeWords) (d : Dev) : Dev :=
  let tree := p.tree.toNat
  let credit := match (getNode d tree).op with | some o => max t.depth o.downCredited | none => t.depth
  if credit ≤ p.chunk.toNat then treeDiscard port p d
  else withOp p (fun o d =>
    downProgress tree t (giveDown tree t (o.hdr.getD (pktHdr p))
      { chunk := p.chunk.toNat, flags := p.flags &&& 0x1F, epoch := p.rh.epoch, data := p.payload } d)) d

/-- TREE_DOWN. -/
def execTreeDown (port : Fin 64) (p : TreePkt) (s : State) : Host.Outcome State Fault Refusal :=
  onTree ptTreeDown port p (treeDown port.val p) s

/-- UP_CREDIT: combined chunks that waited for it are sent (R212). -/
def upCredit (p : TreePkt) (t : TreeWords) (d : Dev) : Dev :=
  let tree := p.tree.toNat
  withOp p (fun o d =>
    o.upHeld.foldl (fun d c => passUp tree t (o.hdr.getD (pktHdr p)) c d)
      (updOpn tree (fun o => { o with upLimit := max o.upLimit p.chunk.toNat, upHeld := [] }) d)) d

/-- UP_CREDIT. -/
def execUpCredit (port : Fin 64) (p : TreePkt) (s : State) : Host.Outcome State Fault Refusal :=
  onTree ptUpCredit port p (upCredit p) s

/-- DOWN_CREDIT: result chunks that waited for this child's credit are sent (R212). -/
def downCredit (port : Nat) (p : TreePkt) (t : TreeWords) (d : Dev) : Dev :=
  let tree := p.tree.toNat
  withOp p (fun o d =>
    let mine := o.downHeld.filter fun x => x.1 == port
    let d1 := updOpn tree (fun o => { o with
      downLimits := tput o.downLimits port (max ((tget o.downLimits port).getD 0) p.chunk.toNat)
      downHeld := o.downHeld.filter fun x => x.1 != port }) d
    downProgress tree t (mine.foldl (fun d x => sendDownTo tree t x.2 port d) d1)) d

/-- DOWN_CREDIT. -/
def execDownCredit (port : Fin 64) (p : TreePkt) (s : State) : Host.Outcome State Fault Refusal :=
  onTree ptDownCredit port p (downCredit port.val p) s

/-- TREE_ACK: a child has acknowledged (R215). -/
def execTreeAck (port : Fin 64) (p : TreePkt) (s : State) : Host.Outcome State Fault Refusal :=
  onTree ptTreeAck port p (fun t =>
    withOp p (fun _ d => downProgress p.tree.toNat t
      (updOpn p.tree.toNat (fun o => { o with
        acked := if o.acked.contains port.val then o.acked else o.acked ++ [port.val] }) d))) s

/-- TREE_DONE: the operation ends with SUCCESS (R215). -/
def execTreeDone (port : Fin 64) (p : TreePkt) (s : State) : Host.Outcome State Fault Refusal :=
  onTree ptTreeDone port p (fun t => withOp p (fun _ d => endDone p.tree.toNat t d)) s

/-- The status a TREE_ABORT carries (R209). -/
def abortStatus (p : TreePkt) : Status := if p.chunk.toNat % 256 = 0x41 then .treeTimeout else .treeFault

/-- TREE_ABORT: the operation ends with the status it carries; for one already ended it is ignored (R228). -/
def treeAbort (port : Nat) (p : TreePkt) (t : TreeWords) (d : Dev) : Dev :=
  let tree := p.tree.toNat
  let node := getNode d tree
  if node.opn = p.opn.toNat then endOpBy [(t, p.rh.epoch)] tree (abortStatus p) p.mismatch port d
  else if opnBehind node.opn p.opn.toNat then d
  else endOpBy [(t, p.rh.epoch)] tree .treeFault true 64 d

/-- TREE_ABORT. -/
def execTreeAbort (port : Fin 64) (p : TreePkt) (s : State) : Host.Outcome State Fault Refusal :=
  onTree ptTreeAbort port p (treeAbort port.val p) s

/-- TREE_TIMEOUT: the operation in progress on a tree ends with TREE_TIMEOUT (R227). -/
def execTreeTimeout (tree : BitVec 14) (s : State) : Host.Outcome State Fault Refusal :=
  lift (endIfRunning tree.toNat .treeTimeout) s

/-- STAGED_COPY_DONE: the copies of a message's staged bytes into its receive buffer have ended (R177). -/
def execStagedCopyDone (id : Nat) (s : State) : Host.Outcome State Fault Refusal :=
  lift (fun d => match getMsg d id with
    | some r =>
      if r.issued = 0 then d
      else settleMsg id (updMsg id (fun r => { r with copying := r.copying - r.issued, issued := 0 }) d)
    | none => d) s

end Sys2Proof.Machine
end

