-- ==== Sys2Proof/Machine/Route.lean ====
section
/-!
DEFINITION. Fabric routing: the route decision (R242 to R250), packet age (R251), epochs (R256 to R260), the table window
(R261, R271, R272), the coordinate (R240), and the drain of a host domain (R265).
-/
namespace Sys2Proof.Machine

open Sys2Proof

/-! ### The route decision (R246 to R249) -/

/-- A port is a candidate (R246). -/
def candidate (d : Dev) (q : Nat) : Bool := (getPort d q).st = .up

/-- Digit of a coordinate in a dimension (R19). -/
def digit (c dim : Nat) : Nat := c / 16 ^ dim % 16

/-- Bytes of an item on the wire. -/
def itemLen : Item → Nat
  | .data p => pktLen p
  | .tree t => 52 + t.payload.length
  | .nib _ => 32

/-- Q(q): 64-byte units of data packets queued for a port (R246). (DEDUCED, log entry 76) -/
def portQ (d : Dev) (q : Nat) : Nat :=
  let x := getPort d q
  (((tget d.rt.egress q).getD []).map fun i => match i.item with | .data p => (pktLen p + 63) / 64 | _ => 0).sum
  + match x.txCur with | some c => if c.vc < 16 then (c.bytes.length + 63) / 64 else 0 | none => 0

/-- The port-map entry of a bank for a digit (R239). -/
def pmEntry (d : Dev) (bank : Bool) (dim v : Nat) : Word64 :=
  (tget (if bank then d.rt.pmB else d.rt.pmA) (dim * 16 + v)).getD 0

/-- Its ports, PORT0 first. -/
def pmPorts (w : Word64) : List Nat := (if bit w 6 then [fld w 0 6] else []) ++ if bit w 14 then [fld w 8 6] else []

/-- The exception entry of a bank for a destination (R247). -/
def exEntry (d : Dev) (bank : Bool) (dest : Nat) : Word64 × Word64 :=
  (tget (if bank then d.rt.exB else d.rt.exA) dest).getD (0, 0)

/-- RT_ADAPT (R274). -/
def rtAdapt (d : Dev) : Word64 := regInForce d 0x20048 0x11000000040

/-- What a route decision needs of an item. -/
structure RouteIn where
  dest   : Nat := 0
  epoch  : Bool := false
  detour : BitVec 4 := 0
  det    : Bool := false
  nib    : Bool := false
  t      : Nat := 0
deriving DecidableEq, Repr

/-- The outcome of a route decision: a port with the dimension it detours in, or nothing. -/
inductive RouteOut where
  | port (q : Nat) (dim : Option Nat)
  | noRoute
deriving DecidableEq, Repr

/-- Ports not forbidden that are candidates. -/
def usable (d : Dev) (forbid : Word64) (ps : List Nat) : List Nat := ps.filter fun q => candidate d q && !bit forbid q

/-- Minimal candidates with their dimension, and detour candidates (R248). -/
def routeSets (d : Dev) (r : RouteIn) : List (Nat × Nat) × List (Nat × Nat) :=
  let x := exEntry d r.epoch r.dest
  let mode := fld x.1 0 2
  let restrict := mode = 1 || mode = 2
  let forbidDim := if restrict then fld x.1 4 4 else 0
  let forbid : Word64 := if restrict then x.2 else 0
  let noDetour := restrict && bit x.1 8
  let uAll := [0, 1, 2, 3].filter fun k => digit (coord d) k != digit r.dest k
  let u := uAll.filter fun k => !forbidDim.testBit k
  let mins := u.flatMap fun k => (usable d forbid (pmPorts (pmEntry d r.epoch k (digit r.dest k)))).map fun q => (k, q)
  let nons :=
    if noDetour || decide (8 < r.t + 1 + uAll.length) then []
    else (u.filter fun k => !r.detour.getLsbD k).flatMap fun k =>
      ((List.range 16).filter fun v => v != digit (coord d) k && v != digit r.dest k).flatMap fun v =>
        (usable d forbid (pmPorts (pmEntry d r.epoch k v))).map fun q => (k, q)
  (mins, nons)

/-- The least Q of a set of ports; 0 for the empty set. -/
def leastQOf (d : Dev) (ps : List (Nat × Nat)) : Nat :=
  match ps.map fun p => portQ d p.2 with
  | [] => 0
  | q :: qs => qs.foldl min q

/-- The candidate with the least Q; among equals the first after the port last chosen by the same ingress port (R248).
(DESIGN CHOICE, log entry 75) -/
def leastQPort (d : Dev) (ing : Nat) (ps : List (Nat × Nat)) : Option (Nat × Nat) :=
  let best := ps.filter fun p => portQ d p.2 == leastQOf d ps
  let last := (tget d.rt.leastQ ing).getD 63
  best.foldl (fun b p => match b with
    | none => some p
    | some c => if (p.2 + 63 - last) % 64 < (c.2 + 63 - last) % 64 then some p else some c) none

/-- The adaptive choice goes off the minimal path (R248). -/
def goesAround (d : Dev) (mins nons : List (Nat × Nat)) : Bool :=
  let a := rtAdapt d
  !nons.isEmpty && bit a 40
  && decide ((leastQOf d nons : Int) < ((leastQOf d mins * fld a 32 8 / 8 : Nat) : Int) + signed 16 (fld a 0 16))

/-- The route decision past the hop test (R245, R248, R249). -/
def routeChoice (d : Dev) (ing : Nat) (r : RouteIn) : RouteOut :=
  let x := exEntry d r.epoch r.dest
  if fld x.1 0 2 = 2 && candidate d (fld x.1 16 6) then .port (fld x.1 16 6) none
  else
    let (mins, nons) := routeSets d r
    let pick := fun (s : List (Nat × Nat)) (off : Bool) =>
      match leastQPort d ing s with
      | some p => RouteOut.port p.2 (if off then some p.1 else none)
      | none => .noRoute
    if r.det then
      match mins, nons with
      | p :: _, _ => .port p.2 none
      | [], p :: _ => .port p.2 (some p.1)
      | [], [] => .noRoute
    else if mins.isEmpty then pick nons true
    else if !r.nib && goesAround d mins nons then pick nons true
    else pick mins false

/-- Age of an item in units of 2 us at a time (R251). -/
def ageNow (age : Byte) (since now : Nat) : Nat := age.toNat + (now - since + 1999) / 2000

/-- AGE of an item. -/
def itemAge : Item → Byte
  | .data p => p.rh.age
  | .tree t => t.rh.age
  | .nib n => n.age

/-- What routing reads of an item that came from an ingress port; tree packets are not routed. (DEDUCED, log entry 77) -/
def routeIn (ing : Nat) : Item → Option RouteIn
  | .data p => some { dest := epCoord p.rh.dest, epoch := p.rh.epoch, detour := p.rh.detour, det := p.rh.det,
                      t := if ing = 64 then 0 else p.rh.hop.toNat + 1 }
  | .nib n => some { dest := epCoord n.dest, epoch := n.epoch, detour := n.detour, nib := true,
                     t := if ing = 64 then 0 else n.hop.toNat + 1 }
  | .tree _ => none

/-- BYTES_TX of a packet this device formed, as it is handed to a port tile or delivered (R388). -/
def tallyTx (ing : Nat) (it : Item) (d : Dev) : Dev :=
  match it with
  | .data p => if ing = 64 then tally (epFn p.rh.src) 0 (pktLen p) d else d
  | _ => d

/-- Route an item (R248, R251, R258); one that is delivered or discarded frees what it held of its ingress buffer. -/
def routeItem (q : QItem) (d : Dev) : Dev :=
  match routeIn q.ingress q.item with
  | none => d
  | some r =>
    let free := releaseHold q.ingress q.hold d
    if bankState d r.epoch ≠ .armed || !coordValid d then
      { free with rt := { free.rt with badEpoch := free.rt.badEpoch.add 1 } }
    else if 250 ≤ ageNow (itemAge q.item) q.since d.clk.now then { free with rt := { free.rt with aged := free.rt.aged.add 1 } }
    else if r.dest = coord d then
      tallyTx q.ingress q.item { free with rt := { free.rt with localQ := free.rt.localQ ++ [q.item] } }
    else if r.t = 8 then { free with rt := { free.rt with hop := free.rt.hop.add 1 } }
    else
      match routeChoice d q.ingress r with
      | .noRoute => { free with rt := { free.rt with noroute := free.rt.noroute.add 1 } }
      | .port p dim =>
        let d1 := queuePort p { q with dims := match dim with | some k => 2 ^ k | none => 0 } (tallyTx q.ingress q.item d)
        { d1 with rt := { d1.rt with leastQ := tput d1.rt.leastQ q.ingress p } }

/-- Take an item out of the routing queue. -/
def takeRoute (ing : Nat) (it : Item) (d : Dev) : Option QItem × Dev :=
  match d.rt.routeQ.find? fun q => q.item == it && q.ingress == ing with
  | some q => (some q, { d with rt := { d.rt with routeQ := d.rt.routeQ.erase q } })
  | none => (none, d)

/-- ROUTE_PACKET (R248): `resid` is the residence so far, in ns, of an item the routing queue does not hold. -/
def execRoutePacket (ing : Fin 65) (it : Item) (resid : Nat) (s : State) : Host.Outcome State Fault Refusal :=
  lift (fun d =>
    let t := takeRoute ing.val it d
    routeItem (t.1.getD { item := it, ingress := ing.val, since := d.clk.now - resid }) t.2) s

/-- Take the first such item out of the queues where it waits: for routing, or for a port. -/
def dropWaiting (it : Item) (d : Dev) : Option Dev :=
  match d.rt.routeQ.find? fun q => q.item == it with
  | some q => some (releaseHold q.ingress q.hold { d with rt := { d.rt with routeQ := d.rt.routeQ.erase q } })
  | none =>
    match d.rt.egress.find? fun e => e.2.any fun q => q.item == it with
    | none => none
    | some e =>
      match e.2.find? fun q => q.item == it with
      | none => none
      | some q =>
        some (releaseHold q.ingress q.hold { d with rt := { d.rt with egress := tput d.rt.egress e.1 (e.2.erase q) } })

/-- PACKET_AGE_EXPIRY (R251): a waiting packet's age reaches 250. -/
def execPacketAgeExpiry (it : Item) (s : State) : Host.Outcome State Fault Refusal :=
  lift0 (fun d => match dropWaiting it d with
    | some d1 => { d1 with rt := { d1.rt with aged := d1.rt.aged.add 1 } }
    | none => d) s

/-- A queued item is a routed Nib message. -/
def isNib (q : QItem) : Bool := match q.item with | .nib _ => true | _ => false

/-- NIB_STALL_DISCARD (R245): the Nib message at the head of a port's output queue has waited 10 us. -/
def execNibStallDiscard (p : Fin 64) (s : State) : Host.Outcome State Fault Refusal :=
  lift0 (fun d =>
    let q := (tget d.rt.egress p.val).getD []
    match q.find? isNib with
    | some n => releaseHold n.ingress n.hold
        { d with rt := { d.rt with egress := tput d.rt.egress p.val (q.erase n), nibStall := d.rt.nibStall.add 1 } }
    | none => d) s

/-! ### Epochs (R256 to R260, R269) -/

/-- DRAIN in ns (R269). -/
def epochDrain (d : Dev) : Nat :=
  let v := fld (regInForce d 0x20000 0) 32 16
  (if v = 0 then 100 else max 60 v) * 10000

/-- The whole port map of a bank passes the arm check (R261). (DEDUCED, log entry 78) -/
def armCheck (d : Dev) (bank : Bool) : Bool :=
  let es := (if bank then d.rt.pmB else d.rt.pmA).filter fun e => bit e.2 6
  let ports := es.flatMap fun e => pmPorts e.2
  decide (ports.length = ports.eraseDups.length)
  && [0, 1, 2, 3].all (fun k => !bit (pmEntry d bank k (digit (coord d) k)) 6)
  && decide (es.length ≤ 60)

/-- Set the state of a bank. -/
def setBank (bank : Bool) (s : BankSt) (d : Dev) : Dev :=
  { d with rt := if bank then { d.rt with bankB := s } else { d.rt with bankA := s } }

/-- CMD_ERR. -/
def setCmdErr (n : Nat) (d : Dev) : Dev := { d with rt := { d.rt with cmdErr := n } }

/-- ARM of a bank (R259). -/
def armBank (bank : Bool) (d : Dev) : Dev :=
  if bankState d bank ≠ .idle || !coordValid d then setCmdErr 1 d
  else if !armCheck d bank then setCmdErr 2 d
  else setCmdErr 0 (setBank bank .armed d)

/-- RETIRE of a bank (R259). -/
def retireBank (bank : Bool) (d : Dev) : Dev :=
  let last := if bank then d.rt.last1 else d.rt.last0
  if bankState d bank ≠ .armed || d.rt.stamp = bank then setCmdErr 1 d
  else if last.any fun t => decide (d.clk.now < t + epochDrain d) then setCmdErr 3 d
  else setCmdErr 0 (retireBanks (setBank bank .retiring d))

/-- A bank command (R259). -/
def epochCmd (c : Nat) (d : Dev) : Dev :=
  match c with
  | 0 => d
  | 1 => armBank false d
  | 2 => armBank true d
  | 3 => retireBank false d
  | 4 => retireBank true d
  | _ => setCmdErr 4 d

/-- A STAMP (R257). -/
def stampTo (e : Bool) (d : Dev) : Dev :=
  if e = d.rt.stamp then d
  else if bankState d e ≠ .armed then setCmdErr 1 d
  else
    let d := noteWrite d
    { d with rt := { d.rt with
      stamp := e
      stampTime := BitVec.ofNat 32 (fld d.clk.tsc 10 32)
      last0 := if e then some d.clk.now else d.rt.last0
      last1 := if e then d.rt.last1 else some d.clk.now } }

/-- EPOCH_CTL is written (R257, R269): DRAIN first, then CMD, then STAMP; while block 5 is fenced CMD and STAMP are
refused (R490). -/
def epochCtlWrite (w : Wr) (d : Dev) : Dev :=
  let b := wrBits w
  let d1 := putReg 0x20000 0 (mergeWr (regInForce d 0x20000 0) (ins 32 0xFFFF) w) d
  if !bit b.2 0 then d1
  else
    let c := fld b.1 8 4
    let e := bit b.1 0
    if fencedBlk d 5 then (if c ≠ 0 || e ≠ d.rt.stamp then setCmdErr 1 d1 else d1)
    else
      let d2 := epochCmd c d1
      stampTo e d2

/-- The CMD a write of EPOCH_CTL carries. -/
def wrCmd (w : Wr) : Nat := let b := wrBits w; if bit b.2 0 then fld b.1 8 4 else 0

/-- A write of EPOCH_CTL with a given CMD, by the fabric manager (R268). -/
def epochRow (c : Nat) (m : Master) (w : Wr) (s : State) : Host.Outcome State Fault Refusal :=
  lift (fun d => if isFab m && wrCmd w = c then epochCtlWrite w d else d) s

/-- ARM_A (R259). -/
def execArmA (m : Master) (w : Wr) (s : State) : Host.Outcome State Fault Refusal :=
  fabRow m (.armA m w) s (epochRow 1 m w s)

/-- ARM_B (R259). -/
def execArmB (m : Master) (w : Wr) (s : State) : Host.Outcome State Fault Refusal :=
  fabRow m (.armB m w) s (epochRow 2 m w s)

/-- RETIRE_A (R259). -/
def execRetireA (m : Master) (w : Wr) (s : State) : Host.Outcome State Fault Refusal :=
  fabRow m (.retireA m w) s (epochRow 3 m w s)

/-- RETIRE_B (R259). -/
def execRetireB (m : Master) (w : Wr) (s : State) : Host.Outcome State Fault Refusal :=
  fabRow m (.retireB m w) s (epochRow 4 m w s)

/-- STAMP_WRITE (R257): a write of EPOCH_CTL without a CMD. -/
def execStampWrite (m : Master) (w : Wr) (s : State) : Host.Outcome State Fault Refusal :=
  fabRow m (.stampWrite m w) s (epochRow 0 m w s)

/-! ### The table window (R260, R261, R271, R272, R196) -/

/-- TBL_WIN_DATAk. -/
def tblData (d : Dev) (k : Nat) : Word64 := regInForce d (0x20018 + 8 * k) 0

/-- Set STATUS. -/
def tblStatus (n : Nat) (d : Dev) : Dev := { d with rt := { d.rt with tblStatus := n } }

/-- Put words into the data registers. -/
def setTblData (ws : List Word64) (d : Dev) : Dev :=
  { d with regs := (ws.zipIdx).foldl (fun t w => tput t (0x20018 + 8 * w.2) w.1) d.regs }

/-- Entries of a table (R271). -/
def tblSize : Nat → Nat
  | 0 => 64 | 1 => 65536 | 2 => 16384 | 3 => 4096 | _ => 0

/-- A read access leaves the entry in the data registers (R271), its reserved bits as they were written.
(DESIGN CHOICE, log entry 136) -/
def tblRead (table idx : Nat) (bank : Bool) (d : Dev) : Dev :=
  tblStatus 0 (match table with
    | 0 => setTblData [pmEntry d bank (idx / 16) (idx % 16)] d
    | 1 => setTblData [(exEntry d bank idx).1, (exEntry d bank idx).2] d
    | 2 => let t := treeEntry d bank idx; setTblData [t.w0, t.w1, t.w2, t.w3] d
    | _ => setTblData [(tget d.rt.reach idx).getD 0] d)

/-- A port-map entry passes its own check (R261, R272). -/
def pmOk (w : Word64) : Bool :=
  decide (fld w 15 49 = 0) && !bit w 7 && (!bit w 14 || (bit w 6 && fld w 0 6 != fld w 8 6))

/-- An exception entry passes its check (R261, R272). -/
def exOk (w : Word64) : Bool :=
  decide (fld w 22 42 = 0) && decide (fld w 9 7 = 0) && decide (fld w 2 2 = 0) && fld w 0 2 != 3

/-- A tree entry passes the content checks of R196, in place of the entry of a bank. -/
def treeOk (d : Dev) (bank : Bool) (tree : Nat) (t : TreeWords) : Bool :=
  let old := treeEntry d bank tree
  t.role != 3 && (!t.present ||
    (decide (1 ≤ t.depth ∧ t.depth ≤ 32) && !t.children.isEmpty
     && !(t.role == 2 && t.childFabric t.parent) && t.domain != 0 && !d.tre.failed.testBit t.tu
     && decide (slotsUsed d - old.slots + t.slots ≤ slotArea d)))

/-- Store a tree entry. Where no bank had the tree, its node starts again at operation number 0.
(DEDUCED, log entry 70) -/
def putTree (bank : Bool) (tree : Nat) (t : TreeWords) (d : Dev) : Dev :=
  let fresh := t.present && !(treeEntry d false tree).present && !(treeEntry d true tree).present
  let d1 := if fresh then { d with tre := { d.tre with nodes := tdel d.tre.nodes tree } } else d
  if bank then { d1 with rt := { d1.rt with trB := tput d1.rt.trB tree t } }
  else { d1 with rt := { d1.rt with trA := tput d1.rt.trA tree t } }

/-- A write access takes its entry from the data registers (R260, R261, R271). -/
def tblWrite (table idx : Nat) (bank force : Bool) (d : Dev) : Dev :=
  let st := bankState d bank
  let w := tblData d 0
  if table = 3 then tblStatus 0 { d with rt := { d.rt with reach := tput d.rt.reach idx w } }
  else if st = .retiring || (st = .armed && !force) then
    tblStatus 1 (if table = 2 && !force && boundTo d idx bank then { d with tre := { d.tre with refused := d.tre.refused.add 1 } } else d)
  else
    match table with
    | 0 =>
      if !pmOk w then tblStatus 2 d
      else tblStatus 0 (if bank then { d with rt := { d.rt with pmB := tput d.rt.pmB idx w } }
                        else { d with rt := { d.rt with pmA := tput d.rt.pmA idx w } })
    | 1 =>
      if !exOk w then tblStatus 2 d
      else
        let e := (w, tblData d 1)
        tblStatus 0 (if bank then { d with rt := { d.rt with exB := tput d.rt.exB idx e } }
                     else { d with rt := { d.rt with exA := tput d.rt.exA idx e } })
    | _ =>
      let t : TreeWords := { w0 := w, w1 := tblData d 1, w2 := tblData d 2, w3 := tblData d 3 }
      let refuse := fun n => tblStatus n { d with tre := { d.tre with refused := d.tre.refused.add 1 } }
      if !treeOk d bank idx t then refuse 2
      else if boundTo d idx bank && st ≠ .armed then refuse 3
      else
        let d1 := if boundTo d idx bank then endIfRunning idx .treeFault d else d
        tblStatus 0 (putTree bank idx t d1)

/-- One access through the table window (R271); refused while block 5 is fenced (R490). -/
def tblAccess (a : Word64) (d : Dev) : Dev :=
  let table := fld a 16 3
  let idx := fld a 0 16
  if fencedBlk d 5 then tblStatus 1 d
  else if tblSize table ≤ idx then tblStatus 4 d
  else if bit a 20 then tblWrite table idx (bit a 19) (bit a 21) d
  else tblRead table idx (bit a 19) d

/-- A write of TBL_WIN_ADDR (R271): it starts an access where it reaches the fields that name one. (DEDUCED, log entry 80) -/
def tblAddrWrite (w : Wr) (d : Dev) : Dev :=
  let a := mergeWr (regInForce d 0x20010 0) 0x3FFFFF w
  let d1 := putReg 0x20010 0 a d
  if bit (wrBits w).2 0 then tblAccess a d1 else d1

/-- A write of TBL_WIN_ADDR with given WRITE and FORCE bits, by the fabric manager. -/
def tblRow (ok : Word64 → Bool) (m : Master) (w : Wr) (s : State) : Host.Outcome State Fault Refusal :=
  lift (fun d => if isFab m && bit (wrBits w).2 0 && ok (wrBits w).1 then tblAddrWrite w d else d) s

/-- TABLE_READ (R271). -/
def execTableRead (m : Master) (w : Wr) (s : State) : Host.Outcome State Fault Refusal :=
  fabRow m (.tableRead m w) s (tblRow (fun a => !bit a 20) m w s)

/-- TABLE_WRITE (R271). -/
def execTableWrite (m : Master) (w : Wr) (s : State) : Host.Outcome State Fault Refusal :=
  fabRow m (.tableWrite m w) s (tblRow (fun a => bit a 20 && !bit a 21) m w s)

/-- FORCED_WRITE (R260). -/
def execForcedWrite (m : Master) (w : Wr) (s : State) : Host.Outcome State Fault Refusal :=
  fabRow m (.forcedWrite m w) s (tblRow (fun a => bit a 20 && bit a 21) m w s)

/-! ### The coordinate (R240) and the drain of a host domain (R265) -/

/-- A write of RT_COORD, ignored while a bank is ARMED or RETIRING; HELLO goes out on a change (R240, R303, R358). -/
def coordWrite (w : Wr) (d : Dev) : Dev :=
  if d.rt.bankA ≠ .idle || d.rt.bankB ≠ .idle then d
  else
    let v := mergeWr (rtCoordWord d) 0x1FFFF w
    let d1 := putReg 0x20040 0 v d
    if v = rtCoordWord d then d1 else svcHellos d (helloAll d1)

/-- RT_COORD_WRITE (R240). -/
def execRtCoordWrite (m : Master) (w : Wr) (s : State) : Host.Outcome State Fault Refusal :=
  fabRow m (.rtCoordWrite m w) s (lift (fun d => if isFab m then coordWrite w d else d) s)

/-- A write of RT_HP_DRAIN (R265, R276): a bit set drains at once, a bit cleared lets the port work from the next tick. -/
def hpDrainWrite (w : Wr) (d : Dev) : Dev :=
  let v := mergeWr (regInForce d 0x20060 0) 0xFFFF000F w
  let d1 := putReg 0x20060 0 v d
  { d1 with rt := { d1.rt with drain := d1.rt.drain ||| fld v 0 4 } }

/-- RT_HP_DRAIN_WRITE (R265). -/
def execRtHpDrainWrite (m : Master) (w : Wr) (s : State) : Host.Outcome State Fault Refusal :=
  fabRow m (.rtHpDrainWrite m w) s (lift (fun d => if mayWrite d m then hpDrainWrite w d else d) s)

/-- Descriptors in flight of the functions of a port, with their submission queue and function. -/
def inFlightOf (d : Dev) (p : Fin 4) : List (FnId × Nat × Fetched) :=
  (d.fns.filter fun e => decide ((fnOfKey e.1).port = p)).flatMap fun e =>
    e.2.sqs.flatMap fun q => q.2.inflight.map fun x => (fnOfKey e.1, q.1, x)

/-- The accesses and waits of a function's NOTEs are given up. -/
def dropNotes (f : FnId) (d : Dev) : Dev :=
  let isNote := fun (a : Access) => a.fn = f && match a.cont with | .noteRead .. => true | _ => false
  let d1 := updFn f (fun x => { x with
    admPt := x.admPt.map fun e => (e.1, e.2.filter fun it => it.note.isNone), trapQ := x.trapQ.filter fun u => !isNote u.acc }) d
  { d1 with
    xl := { d1.xl with todo := d1.xl.todo.filter fun a => !isNote a, walks := d1.xl.walks.filter fun w => !isNote w.acc }
    xpt := { d1.xpt with reads := d1.xpt.reads.filter fun r => match r.why with | .payload a => !isNote a | .walk _ => true } }

/-- End the COLLs of a function with a status (R229, R265). -/
def failColls (f : FnId) (s : Status) (d : Dev) : Dev :=
  (getFn d f).trees.foldl (fun d t =>
    let waiting := t.2.waitQ
    let d1 := updFn f (fun x => { x with trees := tmod x.trees t.1 fun m => { m with waitQ := [] } }) d
    waiting.foldl (fun d r => completeColl t.1 r s false d) (memberFails t.1 f s d1)) d

/-- Complete a function's posted receives with a status (R265). -/
def failPosted (f : FnId) (s : Status) (d : Dev) : Dev :=
  (d.mtc.ctxs.filter fun m => decide (m.2.fn = f)).foldl (fun d m => flushPosted m.1 s d) d

/-- End every operation of a function that is still outstanding with DEST_DOWN (R265). -/
def limitFn (f : FnId) (d : Dev) : Dev :=
  let busy := d.xpt.conns.filter fun c => decide (c.2.fn = f) && c.2.st != .error && c.2.ops.any fun o => !o.written
  let d1 := busy.foldl (fun d c => failConn c.1 .destDown .destDown .destDown false d) d
  let d2 := failPosted f .destDown (failColls f .destDown d1)
  let notes := (getFn d2 f).sqs.flatMap fun q => (q.2.inflight.filter fun x => x.d.opcode == 7).map fun x => (q.1, x)
  notes.foldl (fun d n => endNote f n.1 n.2.cnt n.2.d .destDown d) (dropNotes f d2)

/-- DRAIN_LIMIT_EXPIRY (R265): what a drained host domain still has outstanding completes with DEST_DOWN. -/
def execDrainLimitExpiry (p : Fin 4) (s : State) : Host.Outcome State Fault Refusal :=
  lift (fun d =>
    if portDrained d p then
      ((fnKeys d).map fnOfKey).foldl (fun d f => if f.port = p then limitFn f d else d) d
    else d) s

end Sys2Proof.Machine
end

