-- ==== Sys2Proof/Machine/Tc.lean ====
section
/-!
DEFINITION. Traffic control: the refill of shapers and policers (R331, R335), time gates (R340 to R342), the gate-list
window (R345), and the weights (R339, R346).
-/
namespace Sys2Proof.Machine

open Sys2Proof

/-! ### Refill (R331) -/

/-- One tick's refill of a bucket. -/
def refill (b : Bucket) : Bucket := { b with t := min (b.t + (b.rate * 128 : Nat)) (bucketFull b.burst) }

/-- Refill every bucket of a function, and let go what now may. -/
def refillFn (f : FnId) (d : Dev) : Dev :=
  let d1 := updFn f (fun x => { x with
    shapers := x.shapers.map fun e => (e.1, refill e.2), polOut := x.polOut.map refill, polIn := x.polIn.map refill }) d
  (List.range 8).foldl (fun d c => drainClass f c (((tget (getFn d f).admPt c).getD []).length + 1) d) d1

/-- SHAPER_REFILL (R331): one management tick's refill of every shaper and policer. -/
def execShaperRefill (s : State) : Host.Outcome State Fault Refusal :=
  lift (fun d => ((fnKeys d).map fnOfKey).foldl (fun d f => refillFn f d) d) s

/-! ### Gates (R340 to R342, R347) -/

/-- A port's gate. -/
def getGate (d : Dev) (p : Nat) : Gate := (tget d.tc.gates p).getD {}

/-- Set a port's gate. -/
def setGate (p : Nat) (g : Gate) (d : Dev) : Dev := { d with tc := { d.tc with gates := tput d.tc.gates p g } }

/-- A traffic-control register of a port has failed its parity (R490). -/
def tcPortBad (d : Dev) (p : Nat) : Bool :=
  d.cfg.hit.contains (6, 0x31000 + p * 8) || d.cfg.hit.contains (6, 0x32000 + p * 0x20)
  || d.cfg.hit.contains (6, 0x32008 + p * 0x20)

/-- The entry of a list in force. -/
def gateEnt (l : GateList) (i : Nat) : GateEnt := (l.ents[i]?).getD {}

/-- Mask now in force: 0xFF when no list runs, or while the port's registers are fenced (R347, R490).
(DEDUCED, log entry 21) -/
def gateMask (d : Dev) (p : Nat) : Nat :=
  if tcPortBad d p then 0xFF
  else match (getGate d p).run with
    | some l => (gateEnt l (getGate d p).entry).gates
    | none => 0xFF

/-- Length of a list's cycle in ns. -/
def cycleNs (l : GateList) : Nat := max 1 l.cycle * 4

/-- The first cycle start of a list at or after a fabric time (R340, R342). -/
def cycleStart (l : GateList) (t : Nat) : Nat :=
  if t ≤ l.base then l.base else l.base + (t - l.base + cycleNs l - 1) / cycleNs l * cycleNs l

/-- Time into a list's cycle (R340). -/
def phaseOf (l : GateList) (t : Nat) : Nat := (t - l.base) % cycleNs l

/-- The entry whose turn it is at a time into the cycle, in units of 4 ns (R340). -/
def entAt : List GateEnt → Nat → Nat
  | e :: es, u => if u < e.dur ∨ es = [] then 0 else entAt es (u - e.dur) + 1
  | [], _ => 0

/-- GATE_ENTRY_CHANGE (R340 to R342): fabric time has reached the start of an entry. A pending list takes over from its first
cycle start on; the entry in force is the one whose turn it is. `starts` says whether a cycle starts with it; an event
that fabric time contradicts changes nothing (log entry 88). -/
def execGateEntryChange (p : Fin 64) (starts : Bool) (s : State) : Host.Outcome State Fault Refusal :=
  lift0 (fun d =>
    let t := d.clk.tsc.toNat
    let g := getGate d p.val
    let g1 : Gate := match g.pend with
      | some l => if l.start ≤ t then { g with run := some l, pend := none } else g
      | none => g
    match g1.run with
    | some l =>
      let e := entAt l.ents (phaseOf l t / 4)
      if starts = (e == 0) then setGate p.val { g1 with entry := e } d else d
    | none => d) s

/-- Units of 4 ns from the start of a list's cycle to the end of entry i. -/
def entEnd (l : GateList) (i : Nat) : Nat := ((l.ents.take (i + 1)).map (·.dur)).sum

/-- Units of 4 ns for which a class stays open from entry i on, over at most n further entries (R341). -/
def openRun (l : GateList) (c : Nat) : Nat → Nat → Nat
  | 0, _ => 0
  | n + 1, i =>
    let e := gateEnt l (i % l.ents.length)
    if e.gates.testBit c then e.dur + openRun l c n (i + 1) else 0

/-- Nanoseconds until gate c of a port closes by the list in force; none where it never does (R341). -/
def untilRun (d : Dev) (p c : Nat) : Option Nat :=
  match (getGate d p).run with
    | none => none
    | some l =>
      let i := (getGate d p).entry
      if l.ents.all (fun e => e.gates.testBit c) then none
      else
        let phase := phaseOf l d.clk.tsc.toNat
        let start := (entEnd l i - (gateEnt l i).dur) * 4
        let stop := entEnd l i * 4
        let left := if start ≤ phase ∧ phase < stop then stop - phase else (gateEnt l i).dur * 4
        some (left + 4 * openRun l c l.ents.length (i + 1))

/-- Nanoseconds until gate c of a port closes; none where it never does: by the list in force until a pending list's first
cycle start, and by that list from then on (R341, R342). -/
def untilClose (d : Dev) (p c : Nat) : Option Nat :=
  if tcPortBad d p then none
  else match (getGate d p).pend with
    | none => untilRun d p c
    | some l =>
      let wait := l.start - d.clk.tsc.toNat
      let next := if l.ents.all (fun e => e.gates.testBit c) then none else some (wait + 4 * openRun l c l.ents.length 0)
      match untilRun d p c with
      | some ns => if ns < wait then some ns else next
      | none => next

/-- Flit rate of a port in Gb/s (R286). -/
def flitRate (x : Port) : Nat :=
  let r := match x.rung with | 1 => 25 | 2 => 100 | 3 => 200 | _ => 0
  r * x.width

/-- The guard band (R341): the packet ends no later than the next closing of its gate. -/
def guardOk (d : Dev) (p c len : Nat) : Bool :=
  match untilClose d p c with
  | none => true
  | some ns => decide ((len + overhead d) * 8 * 256 ≤ ns * 240 * flitRate (getPort d p))

/-- Quantum of a class on a port (R339, R346). -/
def quantum (d : Dev) (p c : Nat) : Nat :=
  (if tcPortBad d p then 0x10 else fld (regInForce d (0x31000 + p * 8) 0x1010101010101010) (8 * c) 8) * 256

/-! ### The gate-list window (R345) -/

/-- A write of TC_GCL_ADDR: one access to a staged entry; ports from 64 on are ignored. -/
def gclAddrWrite (w : Wr) (d : Dev) : Dev :=
  let a := mergeWr (regInForce d 0x30010 0) 0x1FFFF w
  let d1 := putReg 0x30010 0 a d
  let port := fld a 8 8
  let key := port * 256 + fld a 0 8
  if !bit (wrBits w).2 0 || decide (64 ≤ port) then d1
  else if bit a 16 then
    let v := regInForce d 0x30018 0
    { d1 with tc := { d1.tc with gclStg := tput d1.tc.gclStg key { gates := fld v 32 8, dur := fld v 0 28 } } }
  else
    let e := (tget d.tc.gclStg key).getD {}
    { d1 with regs := tput d1.regs 0x30018 (ins 32 e.gates ||| ins 0 e.dur) }

/-- A write of TC_GCL_ADDR with a given WRITE bit, by the fabric manager (R343). -/
def gclRow (wr : Bool) (m : Master) (w : Wr) (s : State) : Host.Outcome State Fault Refusal :=
  lift0 (fun d => if isFab m && bit (wrBits w).2 0 && bit (wrBits w).1 16 == wr then gclAddrWrite w d else d) s

/-- GCL_READ (R345). -/
def execGclRead (m : Master) (w : Wr) (s : State) : Host.Outcome State Fault Refusal :=
  fabRow m (.gclRead m w) s (gclRow false m w s)

/-- GCL_WRITE (R345). -/
def execGclWrite (m : Master) (w : Wr) (s : State) : Host.Outcome State Fault Refusal :=
  fabRow m (.gclWrite m w) s (gclRow true m w s)

end Sys2Proof.Machine
end

