-- ==== Sys2Proof/Machine/Flits.lean ====
section
/-!
DEFINITION. Flits: what an arriving flit does (R288, R290, R293 to R299, R305), what the next flit of a port is (R293,
R295, R297, R298, R300, R311, R337 to R341), and the replay timer (R297).
-/
namespace Sys2Proof.Machine

open Sys2Proof

/-! ### Replay (R297) -/

/-- A port whose receiver delivers flits: frame lock is held, in TRAINING on a lane that has it (R285, R304). -/
def linkUp (x : Port) : Bool := changing x.st && x.frameLock || x.st = .training && (x.l0.framed || x.l1.framed)

/-- The oldest unacknowledged FSEQ (R294). -/
def oldest (x : Port) : BitVec 12 := x.txNext - BitVec.ofNat 12 x.replay.length

/-- Start a replay of every unacknowledged flit; past REPLAY_LIMIT rounds the port goes down (R297). -/
def startReplay (p : Nat) (q : BitVec 12) (timer : Bool) (d : Dev) : Dev :=
  let x := getPort d p
  if x.replay.isEmpty then d
  else
    let y := { x with
      toReplay := x.replay.length, replayAt := some (q, d.clk.now), rounds := x.rounds + 1
      replays := if timer then x.replays else x.replays.add 1
      timerReplays := if timer then x.timerReplays.add 1 else x.timerReplays }
    let d1 := setPort p y d
    if portReplayLimit d p < y.rounds then goDown p 3 d1 else d1

/-- REPLAY_TIMEOUT (R297). -/
def execReplayTimeout (p : Fin 64) (s : State) : Host.Outcome State Fault Refusal :=
  lift (fun d => if carriesLocal (getPort d p.val).st then startReplay p.val (oldest (getPort d p.val)) true d else d) s

/-! ### Reception (R290, R293, R294, R296) -/

/-- Accept an ACK (R294): it frees every flit below it. -/
def takeAck (p : Nat) (a : BitVec 12) (d : Dev) : Dev :=
  let x := getPort d p
  let n := (a - oldest x).toNat
  if 1 ≤ n ∧ n ≤ x.replay.length then
    let rest := x.replay.drop n
    tryOutage p (setPort p { x with
      replay := rest, toReplay := min x.toReplay rest.length, rounds := 0
      bad := x.bad.filter fun q => rest.any fun f => f.fseq == q } d)
  else d

/-- Apply a returned credit count (R293). -/
def takeCredit (p : Nat) (sel : Nat) (count : Nat) (d : Dev) : Dev :=
  let x := getPort d p
  let held := (tget x.crHeld sel).getD 0
  let k := (count + 65536 - held) % 65536
  if sel < 20 && decide (1 ≤ k ∧ k ≤ 4096) then
    setPort p { x with crHeld := tput x.crHeld sel count, bal := tput x.bal sel ((tget x.bal sel).getD 0 - k) } d
  else d

/-- A malformed thing arrived on a port: a contained error of its check source (R121, R244, R288, R302). -/
def checkError (p : Nat) (d : Dev) : Dev := report (srcCheck p) .contained caProtocol 0 0 1 d

/-- Count a flit or message that fails its CRC (R326). -/
def countCrc (p : Nat) (d : Dev) : Dev := updPort p (fun x => { x with crcFail := x.crcFail.add 1 }) d

/-- The link-local NTYPEs (R302). -/
def knownLink (t : Byte) : Bool := decide (1 ≤ t.toNat ∧ t.toNat ≤ 7) || t = 0x10 || t = 0x11

/-- AGE with what the link's losses added, held at 255 (R299). -/
def addAge (a : Byte) (n : Nat) : Byte := BitVec.ofNat 8 (min 255 (a.toNat + n))

/-- A Nib message has arrived whole (R244, R301, R302). A time exchange after a loss on the link is dropped (R368), and
TRAINING carries no routed message (R304). A routed one takes the age of its flit's losses (R299). -/
def rxNib (p : Nat) (part : RxPart) (d : Dev) : Dev :=
  let free := releaseHold p part.hold d
  let t := BitVec.ofNat 8 (fld (word part.bytes 8) 0 8)
  if t.toNat < 0x80 then
    let m := linkOf part.bytes
    if knownLink t then
      (if part.late && (m.ntype = 0x10 || m.ntype = 0x11) then (if m.crc = linkCrc m then free else countCrc p free)
       else updPort p (fun x => { x with llIn := x.llIn ++ [(m, d.clk.tsc)] }) free)
    else if m.crc = linkCrc m then checkError p free else countCrc p free
  else if t.toNat < 0x88 then
    if (getPort d p).st = .training then free
    else
      let n := nibOf part.bytes
      { d with rt := { d.rt with routeQ := d.rt.routeQ ++ [{
        item := .nib { n with age := addAge n.age part.age }, ingress := p, since := part.since, hold := part.hold }] } }
  else checkError p free

/-- A data packet has arrived whole: routed, or discarded where this end has announced Nib only or PTYPE is unknown
(R121, R305). (DEDUCED, log entry 85) -/
def rxData (p vc : Nat) (part : RxPart) (d : Dev) : Dev :=
  let free := releaseHold p part.hold d
  let k := packetOf part.bytes
  if !(getPort d p).annOwn then free
  else if k.ptype.toNat < 1 ∨ 7 < k.ptype.toNat then checkError p free
  else
    let k1 := { k with rh := { k.rh with age := addAge k.rh.age part.age, hop := BitVec.ofNat 3 (vc % 8) } }
    { d with rt := { d.rt with routeQ := d.rt.routeQ ++ [{ item := .data k1, ingress := p, since := part.since, hold := part.hold }] } }

/-- A tree packet has arrived whole: it is for this node (R208, R251). -/
def rxTree (p : Nat) (part : RxPart) (d : Dev) : Dev :=
  let free := releaseHold p part.hold d
  let k := treeOf part.bytes
  let age := addAge k.rh.age part.age
  if !(getPort d p).annOwn then free
  else if treeCrc k ≠ k.crc then { free with tre := { free.tre with discards := free.tre.discards.add 1 } }
  else if k.ptype.toNat < 0x10 ∨ 0x16 < k.ptype.toNat then checkError p free
  else if 250 ≤ ageNow age part.since d.clk.now then { free with rt := { free.rt with aged := free.rt.aged.add 1 } }
  else { free with rt := { free.rt with localQ := free.rt.localQ ++ [.tree { k with rh := { k.rh with age := age } }] } }

/-- A packet or message of a channel has arrived whole. (DEDUCED, log entry 69) -/
def rxWhole (p vc : Nat) (part : RxPart) (d : Dev) : Dev :=
  if vc = 18 then rxNib p part d else if vc < 16 then rxData p vc part d else rxTree p part d

/-- Length of the packet whose bytes these are: none while LEN has not arrived (R290). -/
def wholeLen (vc : Nat) (bs : List Byte) : Option Nat :=
  if vc = 18 then some 32 else if bs.length < 16 then none else some (wireLen bs)

/-- The next packet of a channel begins in the flit that the last ended in: both hold it (R293). -/
def Port.shareFlit (x : Port) (k : Nat) : Port :=
  match tget x.rxHeld k with
  | some (c, u, n) => { x with rxHeld := tput x.rxHeld k (c, u, n + 1) }
  | none => x

/-- Cut a channel's bytes into packets (R290). A LEN outside R119's range, after which no boundary can be found, drops the
channel's bytes and is an error of the port tile (DEDUCED, log entry 85). `fresh` describes packets that begin in this flit. -/
def rxCut (p vc : Nat) (fresh : RxPart) : Nat → RxPart → Dev → RxPart × Dev
  | 0, part, d => (part, d)
  | fuel + 1, part, d =>
    match wholeLen vc part.bytes with
    | none => (part, d)
    | some n =>
      if vc ≠ 18 ∧ (n < 52 ∨ 4148 < n) then ({ fresh with hold := [] }, checkError p (releaseHold p part.hold d))
      else if part.bytes.length < n then (part, d)
      else
        let rest := part.bytes.drop n
        let d0 := if rest.isEmpty then d else updPort p (fun x => fresh.hold.foldl (fun y h => y.shareFlit h.1) x) d
        let d1 := rxWhole p vc { part with bytes := part.bytes.take n } d0
        let d2 := if rest.isEmpty || vc = 18 then d1 else updPort p (fun x => { x with rxp := x.rxp + counted d 1 }) d1
        rxCut p vc fresh fuel (if rest.isEmpty then { fresh with hold := [] }
          else { fresh with bytes := rest, hold := fresh.hold.map fun h => (h.1, rest.length) }) d2

/-- Take a flit's payload (R290, R293, R296, R299, R464). -/
def takePayload (p : Nat) (f : Flit) (d : Dev) : Dev :=
  let x := getPort d p
  let vc := f.vc.toNat
  let n := f.valid.toNat
  let bs := (f.payload ++ List.replicate (240 - f.payload.length) 0).take n
  let age := match x.tLoss with | some t => (d.clk.now - t + 1999) / 2000 | none => 0
  let k := x.rxSerial
  let old := tget x.rxPart vc
  let fresh : RxPart := { age := age, late := x.tLoss.isSome, since := d.clk.now, hold := [(k, n)] }
  let part := match old with
    | some o => { o with bytes := o.bytes ++ bs, hold := o.hold ++ [(k, n)] }
    | none => { fresh with bytes := bs }
  let begins := old.isNone && vc ≠ 18
  let d1 := setPort p { x with
    rxSerial := k + 1, rxHeld := tput x.rxHeld k (if f.pool then 19 else vc, (n + 63) / 64, 1)
    expect := x.expect + 1, tLoss := none, rxb := x.rxb + counted d n, bwRxNow := x.bwRxNow + counted d n
    rxp := x.rxp + counted d (b2n begins) } d
  let r := rxCut p vc fresh 16 part d1
  updPort p (fun y => { y with rxPart := if r.1.bytes.isEmpty then tdel y.rxPart vc else tput y.rxPart vc r.1 }) r.2

/-- A flit R288 treats as a CRC failure. -/
def flitBad (f : Flit) : Bool :=
  decide (1 < f.ftype.toNat) || (f.ftype = 1 && (decide (19 ≤ f.vc.toNat) || f.valid = 0 || decide (240 < f.valid.toNat)))

/-- A Nib flit that carries a HELLO. -/
def helloFlit (f : Flit) : Bool :=
  f.vc = 18 && (List.range 7).any fun i => decide (32 * i + 32 ≤ f.valid.toNat) && f.payload.getD (32 * i + 8) 0 == 0x01

/-- The first flit that the partner sends from NIB_ONLY on, FSEQ 0 with its HELLO: what this end receives starts again with it
(R292, R294, R303). (DEDUCED, log entry 146) -/
def peerStarts (p : Nat) (f : Flit) (d : Dev) : Dev :=
  let x := getPort d p
  if !x.rxStart && f.ftype = 1 && f.fseq = 0 && carriesLocal x.st && helloFlit f then
    setPort p { x.rxReset with rxStart := true } d
  else d

/-- A flit has arrived (R296). (DESIGN CHOICE, log entry 149) -/
def flitArrives (p : Nat) (f : Flit) (d : Dev) : Dev :=
  if flitCrc f ≠ f.crc then requestRetry p (countCrc p d)
  else if flitBad f then checkError p (requestRetry p (countCrc p d))
  else
    let d1 := takeCredit p f.crSel.toNat f.crCount.toNat (takeAck p f.ack (peerStarts p f d))
    let d2 := if f.retry && !recently d1 p (getPort d1 p).replayAt f.ack then startReplay p f.ack false d1 else d1
    if f.ftype = 0 || !carriesLocal (getPort d2 p).st then d2
    else
      let k := (f.fseq - (getPort d2 p).expect).toNat
      if k = 0 then takePayload p f d2
      else if 2048 ≤ k then d2
      else requestRetry p d2

/-! ### The receiver's frames and its elastic buffer (R280, R284, R300, R312, R314) -/

/-- One flit time of the port tile: the oldest flit of the elastic buffer arrives; while the buffer holds fewer than two, an
IDLE flit is inserted, which the link layer ignores (R300). -/
def tileSlot (p : Nat) (d : Dev) : Dev :=
  let x := getPort d p
  match x.elastic with
  | f :: g :: rest => flitArrives p f (setPort p { x with elastic := g :: rest } d)
  | _ => d

/-- A decoded flit enters the elastic buffer, which deletes an IDLE flit, known as one by its CRC (R289), while it holds more than
four (R300); where all eight places are taken the oldest flit goes first, so that none is lost. (DESIGN CHOICE, log entry 149) -/
def elasticIn (p : Nat) (f : Flit) (d : Dev) : Dev :=
  let held := (getPort d p).elastic.length
  if f.ftype = 0 && f.crc = flitCrc f && decide (4 < held) then d
  else updPort p (fun x => { x with elastic := x.elastic ++ [f] }) (if 8 ≤ held then tileSlot p d else d)

/-- Flit times of the port tile. -/
def tileSlots (p : Nat) : Nat → Dev → Dev
  | 0, d => d
  | n + 1, d => tileSlots p n (tileSlot p d)

/-- A trailer has been decoded: the receiver takes the next frame's width and lane (R312, R314). -/
def onTrailer (p : Nat) (t : Trailer) (d : Dev) : Dev :=
  if t.nextWidth = 1 then rxFormat p 1 (t.nextLane % 2) d else rxFormat p 2 0 d

/-- The receiver switches once it has taken the partner's SWITCH flit (R311, R312). -/
def rxSwitch (p : Nat) (d : Dev) : Dev :=
  let x := getPort d p
  match x.prog, x.peerSwitch with
  | some c, some q =>
    match chgFormat x c with
    | some (w, l) =>
      if !x.applied && !x.rxSwitched && decide ((x.expect - 1 - q).toNat < 2048) then
        trySwitch p (setPort p { x with rxWidth := w, rxLane := l, rxSwitched := true } d)
      else d
    | none => d
  | _, _ => d

/-- What link lane k brought of a frame, from what the receive lanes brought: swap and polarity corrected (R280). -/
def linkLane (x : Port) (k : Nat) (a b : List Sym) : List Sym :=
  let l := x.lanes k
  let raw := if (decide (k = 0) == l.swapped) then b else a
  if l.inverted then raw.map fun s => ~~~ s else raw

/-- A lane's share of a received frame: what was corrected on it, and its BIP against the trailer's (R284, R310, R325). -/
def laneFrame (p k : Nat) (ss : List Sym) (fixed : List (Option Nat)) (t : Option Trailer) (d : Dev) : Dev :=
  let bad := match t, ((getPort d p).lanes k).rxBip with
    | some t, some b => decide ((if k = 0 then t.bip0 else t.bip1) ≠ b)
    | _, _ => false
  updPort p (fun x => x.updLane k fun l => { l with
    winSym := l.winSym + fixed.foldl (fun n c => n + c.getD 0) 0
    winUnc := l.winUnc + (fixed.filter (·.isNone)).length
    uncorr := l.uncorr.add (fixed.filter (·.isNone)).length
    bip := if bad then l.bip.add 1 else l.bip
    rxBip := some (bip8 ss) }) d

/-- A link frame has arrived, symbol by symbol (R278, R281, R284): its codewords are corrected, its lanes' errors counted,
and its flits and its trailer handled. -/
def frameArrives (p : Nat) (a b : List Sym) (slots : Nat) (d : Dev) : Dev :=
  let x := getPort d p
  let s0 := linkLane x 0 a b
  let s1 := linkLane x 1 a b
  let r := if x.rxWidth = 2 then decodeFrame 2 s0 s1 else decodeFrame 1 (if x.rxLane = 0 then s0 else s1) []
  let d1 :=
    if x.rxWidth = 2 then
      laneFrame p 1 s1 [r.fixed.getD 1 none, r.fixed.getD 3 none] r.trailer
        (laneFrame p 0 s0 [r.fixed.getD 0 none, r.fixed.getD 2 none] r.trailer d)
    else
      updPort p (fun y => y.updLane (1 - x.rxLane) fun l => { l with rxBip := none })
        (laneFrame p x.rxLane (if x.rxLane = 0 then s0 else s1) r.fixed r.trailer d)
  let d2 := (r.flits.take 9).foldl (fun d bs => tileSlot p (elasticIn p (flitOf bs) d)) d1
  let d3 := tileSlots p slots ((r.flits.drop 9).foldl (fun d bs => elasticIn p (flitOf bs) d) d2)
  match r.trailer with
  | some t => onTrailer p t d3
  | none => d3

/-- FLIT_RECEIVE (R296): a flit from the frame decoder, with the last of a frame what its trailer says, or a whole frame symbol
by symbol; and the port tile's flit times that pass with it, 1 but for the two clocks' drift (R300). (DESIGN CHOICE, log entry
149) -/
def execFlitReceive (p : Fin 64) (a : Arrival) (slots : Fin 3) (s : State) : Host.Outcome State Fault Refusal :=
  lift (fun d =>
    if !linkUp (getPort d p.val) then d
    else
      rxSwitch p.val (match a with
        | .flit f none => tileSlots p.val slots.val (elasticIn p.val f d)
        | .flit f (some t) => onTrailer p.val t (tileSlots p.val slots.val (elasticIn p.val f d))
        | .frame a b => frameArrives p.val a b slots.val d)) s

/-! ### Transmission (R293, R295, R298, R300, R337 to R341) -/

/-- Own allotment of a counter in 64-byte units (R291). -/
def allotment (c : Nat) : Nat :=
  if c < 16 then 80 else if c < 18 then 40 else if c = 18 then 16 else if c = 19 then 2720 else 0

/-- Units left of a counter (R292, R293). -/
def creditLeft (x : Port) (c : Nat) : Nat := allotment c - (tget x.bal c).getD 0

/-- The counter a charge comes from: the channel's own where it suffices, else what the pool holds beyond what is kept for
another packet (R293, R338). -/
def chargeFrom (x : Port) (vc units kept : Nat) : Option Nat :=
  if units ≤ creditLeft x vc then some vc else if units + kept ≤ creditLeft x 19 then some 19 else none

/-- Units of the pool kept for the packet in progress (R338). -/
def poolKept (x : Port) : Nat := match x.txCur with | some c => c.pool | none => 0

/-- Choose the counter a flit carries: the next that has changed since it was last sent, else simply the next, so that a count
lost with its flit goes out again (R293). -/
def creditSel (x : Port) : Nat :=
  (((List.range 20).map fun i => (x.crNext + i) % 20).find? fun c =>
    (tget x.crRet c).getD 0 % 65536 != (tget x.crSent c).getD 0 % 65536).getD (x.crNext % 20)

/-- Put the current ACK, credit count, RETRY and CRC on a flit and send it (R287, R298, R416). -/
def emitFlit (p : Nat) (f : Flit) (d : Dev) : Dev :=
  let x := getPort d p
  let sel := creditSel x
  let ret := fun c => (tget x.crRet c).getD 0
  let f1 := sealFlit { f with
    ack := x.expect
    crSel := BitVec.ofNat 5 sel
    crCount := BitVec.ofNat 16 (ret sel)
    retry := decide (0 < x.retryLeft) }
  let f2 := if f.ftype = 1 && x.bad.contains f.fseq then { f1 with crc := ~~~ f1.crc } else f1
  let y := { x with
    retryLeft := x.retryLeft - 1
    crSent := tput x.crSent sel (ret sel)
    crNext := (sel + 1) % 20
    acked := x.expect
    txFrame := x.txFrame ++ [f2]
    sinceIdle := if f.ftype = 0 then 0 else x.sinceIdle + 1 }
  emit (.flit p f2) (setPort p y d)

/-- The rung a port's lanes in use are driven at. -/
def lineRung (x : Port) : Nat := if x.st = .retraining then trainRung x else x.rung

/-- A transmit lane sends its symbols of one frame, through the line code with the settings of the board table (R278, R282,
R284, R306, R308). -/
def sendLane (p k rung : Nat) (ss : List Sym) (d : Dev) : Dev :=
  let r := lineLevels rung (eqEntry d p k rung) ((getPort d p).lanes k).txLevel (symBits ss)
  emit (.lane p k r.1) (updPort p (fun x => x.updLane k fun l => { l with txBip := bip8 ss, txLevel := r.2 }) d)

/-- The trailer of the frame being sent (R283, R284): at one-lane width the other lane's BIP field is 0. -/
def txTrailer (x : Port) : Trailer :=
  let one := fun k => decide (x.txWidth = 2) || decide (x.txLane = k)
  { width := x.txWidth, nextWidth := x.nextWidth, lane := if x.txWidth = 2 then 0 else x.txLane
    nextLane := if x.nextWidth = 2 then 0 else x.nextLane
    bip0 := if one 0 then x.l0.txBip else 0, bip1 := if one 1 then x.l1.txBip else 0 }

/-- The lanes beside the traffic that carry IDLE-only frames in one-lane format: one in training, or in its soak (R315, R316). -/
def sideLanes (x : Port) : List Nat :=
  [0, 1].filter fun j => (changing x.st && (trainee x == some j || (x.lanes j).soak))

/-- An IDLE flit of a frame beside the traffic, with ACK and a credit count as every flit (R293, R294). -/
def sideIdle (x : Port) (i : Nat) : Flit :=
  let c := (x.crNext + i) % 20
  sealFlit { ack := x.expect, crSel := BitVec.ofNat 5 c, crCount := BitVec.ofNat 16 ((tget x.crRet c).getD 0) }

/-- A frame of IDLE flits in one-lane format on a lane beside the traffic. -/
def sideFrame (p j : Nat) (d : Dev) : Dev :=
  let x := getPort d p
  let b := (x.lanes j).txBip
  let t : Trailer := { width := 1, nextWidth := 1, lane := j, nextLane := j
                       bip0 := if j = 0 then b else 0, bip1 := if j = 0 then 0 else b }
  let rung := if trainee x == some j then trainRung x else x.rung
  sendLane p j rung (laneSyms 1 j (frameMsg ((List.range 10).map fun i => flitBytes (sideIdle x i)) t)) d

/-- The frame of ten flits goes out on the lanes of its width, with its trailer (R281 to R283). -/
def sendFrame (p : Nat) (d : Dev) : Dev :=
  let x := getPort d p
  let m := frameMsg (x.txFrame.map flitBytes) (txTrailer x)
  let ks := if x.txWidth = 2 then [0, 1] else [x.txLane]
  let d1 := ks.foldl (fun d k => sendLane p k (lineRung x) (laneSyms x.txWidth k m) d) (emit (.trailer p (txTrailer x)) d)
  (sideLanes x).foldl (fun d j => sideFrame p j d) d1

/-- The transmitter makes the change in progress at the end of its frame: its SWITCH flit has gone out, or every flit it sent has
been acknowledged and no more are to come before it (R311, R312). (DEDUCED, log entry 147) -/
def txDue (x : Port) : Option Chg :=
  match x.prog, x.switchAt with
  | some c, some q =>
    if !x.applied && !x.txSwitched && (decide ((x.txNext - 1 - q).toNat < 2048) || x.replay.isEmpty) then some c
    else none
  | _, _ => none

/-- After each tenth flit the frame ends with its trailer, and the next frame has the width and lane it named (R281, R283,
R311, R312, R314). -/
def endFlit (p : Nat) (d : Dev) : Dev :=
  let x := getPort d p
  if x.txFrame.length < 10 then d
  else
    let x1 := match txDue x with
      | some c =>
        let n := (chgFormat x c).getD (x.nextWidth, x.nextLane)
        { x with nextWidth := n.1, nextLane := n.2, txSwitched := true }
      | none => x
    trySwitch p (updPort p (fun y => { y with txFrame := [], txWidth := y.nextWidth, txLane := y.nextLane })
      (sendFrame p (setPort p x1 d)))

/-- Send a new DATA flit of a channel: numbered, charged and kept for replay (R293, R294, R295, R464). -/
def sendNew (p vc ctr : Nat) (bs : List Byte) (d : Dev) : Dev :=
  let x := getPort d p
  let n := bs.length
  let f : Flit := { ftype := 1, fseq := x.txNext, vc := BitVec.ofNat 5 vc, valid := BitVec.ofNat 8 n
                    pool := ctr != vc, payload := bs }
  emitFlit p f (setPort p { x with
    txNext := x.txNext + 1, replay := x.replay ++ [f]
    bal := tput x.bal ctr ((tget x.bal ctr).getD 0 + (n + 63) / 64)
    txb := x.txb + counted d n, bwTxNow := x.bwTxNow + counted d n } d)

/-- Hops an item has taken when it leaves this router: the HOP it is sent with (R242). -/
def hopOut (q : QItem) : Nat :=
  if q.ingress = 64 then 0 else match q.item with | .data k => k.rh.hop.toNat + 1 | .nib n => n.hop.toNat + 1 | .tree _ => 0

/-- The item as it is sent: HOP, DETOUR and AGE written (R242, R248, R251). -/
def finalItem (now : Nat) (q : QItem) : Item :=
  let age := fun (a : Byte) => BitVec.ofNat 8 (min 255 (ageNow a q.since now + 2))
  let hop := BitVec.ofNat 3 (hopOut q)
  let dims := BitVec.ofNat 4 q.dims
  match q.item with
  | .data k => .data { k with rh := { k.rh with hop := hop, detour := k.rh.detour ||| dims, age := age k.rh.age } }
  | .nib n => .nib { n with hop := hop, detour := n.detour ||| dims, age := age n.age }
  | .tree t => .tree { t with rh := { t.rh with age := age t.rh.age } }

/-- An item's bytes on the wire. -/
def itemBytes : Item → List Byte
  | .data k => pktBytes k
  | .nib n => nibBytes n
  | .tree t => treeBytes t

/-- The channel an item is sent on (R241, R242). -/
def itemVc (q : QItem) : Nat :=
  match q.item with
  | .data k => hopOut q + (if k.rh.resp then 8 else 0)
  | .nib _ => 18
  | .tree t => if upward t || t.ptype = ptTreeAbort then 16 else 17

/-- Its traffic class (R337). -/
def itemClass (q : QItem) : Nat := match q.item with | .data k => k.rh.tc.toNat | _ => 0

/-- Items of a port's queue whose age has run out are discarded (R251). -/
def purgeAged (p : Nat) (d : Dev) : Dev :=
  let q := (tget d.rt.egress p).getD []
  let old := q.filter fun i => decide (250 ≤ ageNow (itemAge i.item) i.since d.clk.now)
  if old.isEmpty then d
  else
    let d1 := old.foldl (fun d i => releaseHold i.ingress i.hold d) d
    { d1 with rt := { d1.rt with
      egress := tput d1.rt.egress p (q.filter fun i => !old.contains i), aged := d1.rt.aged.add old.length } }

/-- The Nib messages that go into the next Nib flit: link-local ones first, seven at most, as many as credit allows (R290,
R293). -/
def nibBatch (d : Dev) (p : Nat) : List LinkMsg × List QItem × Nat :=
  let x := getPort d p
  let nibs := ((tget d.rt.egress p).getD []).filter isNib
  let want := min 7 (x.llOut.length + nibs.length)
  match ((List.range want).map fun i => want - i).find? fun k => (chargeFrom x 18 ((k * 32 + 63) / 64) (poolKept x)).isSome with
  | none => ([], [], 0)
  | some k => (x.llOut.take k, nibs.take (k - x.llOut.length), k)

/-- What the port tile fills into a link-local message on the flit that carries it: SWITCH of a CHANGE_ACK or CHANGE_GO,
the FSEQ of that flit plus 16 (R311); the time-stamp counter in a TIME_REQ or TIME_RESP, and in the latter the residence
time since the counter value its VALUE held (R302, R368). -/
def fillLink (q : BitVec 12) (tsc : Word64) (m : LinkMsg) : LinkMsg :=
  let m1 :=
    if m.ntype = 0x03 || m.ntype = 0x04 then { m with switch := q + 16 }
    else if m.ntype = 0x10 then { m with value := tsc }
    else if m.ntype = 0x11 then { m with value := tsc, info := (tsc - m.value).setWidth 32 }
    else m
  { m1 with crc := linkCrc m1 }

/-- A TIME_REQ leaves: t1 is noted (R368). -/
def noteReq (ms : List LinkMsg) (d : Dev) : Dev :=
  if ms.any fun m => m.ntype = 0x10 then { d with ft := { d.ft with req := some d.clk.tsc } } else d

/-- Send a Nib flit, if one can go (R337 step 2). -/
def sendNibFlit (p : Nat) (d : Dev) : Option Dev :=
  let b := nibBatch d p
  if b.2.2 = 0 then none
  else
    let x := getPort d p
    let bs := b.1.flatMap (fun m => linkBytes (fillLink x.txNext d.clk.tsc m))
      ++ b.2.1.flatMap (fun q => itemBytes (finalItem d.clk.now q))
    let d1 := updPort p (fun y => { y with
      llOut := y.llOut.drop b.1.length
      switchAt := if b.1.any (fun m => m.ntype = 0x03 || m.ntype = 0x04) then some (x.txNext + 16) else y.switchAt }) d
    let d2 : Dev := { d1 with rt := { d1.rt with
      egress := tput d1.rt.egress p (((tget d1.rt.egress p).getD []).filter fun q => !b.2.1.contains q) } }
    let d3 := b.2.1.foldl (fun d q => releaseHold q.ingress q.hold d) (noteReq b.1 d2)
    let d4 := if b.2.1.any fun q => decide (q.ingress < 64) then occur { ev := 0x0B, vc := some 18 } d3 else d3
    match chargeFrom x 18 ((bs.length + 63) / 64) (poolKept x) with
    | some c => some (sendNew p 18 c bs d4)
    | none => none

/-- Send the next flit of the packet in progress (R337 step 3): the credit kept for it when it started suffices (R338). The flits
of the ingress buffer all of whose bytes have gone are released with it (R293). -/
def sendPart (p : Nat) (c : TxCur) (d : Dev) : Option Dev :=
  let bs := c.bytes.take 240
  let rest := c.bytes.drop 240
  let units := (bs.length + 63) / 64
  match chargeFrom (getPort d p) c.vc units 0 with
  | none => none
  | some ctr =>
    let h := if rest.isEmpty then (c.hold, []) else splitHold bs.length c.hold
    let d1 := sendNew p c.vc ctr bs (updPort p (fun x => { x with
      txCur := if rest.isEmpty then none
        else some { c with bytes := rest, hold := h.2, pool := if ctr = 19 then c.pool - units else c.pool } }) d)
    let d2 := releaseHold c.ing h.1 d1
    some (if c.ing < 64 then occur { ev := 0x0B, vc := some c.vc, tc := some c.tc } d2 else d2)

/-- Units for the flits a packet may touch: four for each (R338). -/
def flitUnits (q : QItem) : Nat := 4 * ((itemLen q.item + 239) / 240 + 1)

/-- A packet is eligible (R338). -/
def eligible (d : Dev) (p : Nat) (q : QItem) : Bool :=
  let x := getPort d p
  let c := itemClass q
  let need := flitUnits q
  (gateMask d p).testBit c && guardOk d p c (itemLen q.item)
  && (decide (need ≤ creditLeft x (itemVc q)) || decide (need ≤ creditLeft x 19))

/-- The heads of a class's channels that are eligible, in round-robin order from the channel last served (R338). -/
def classHeads (d : Dev) (p c : Nat) : List QItem :=
  let q := ((tget d.rt.egress p).getD []).filter fun i => !isNib i && itemClass i == c
  let last := (tget (getPort d p).rrVc c).getD 17
  (((List.range 18).map fun i => (last + 1 + i) % 18).filterMap fun v => q.find? fun i => itemVc i == v).filter (eligible d p)

/-- The charged length of a queued packet (R329). -/
def chargedOf (d : Dev) (q : QItem) : Nat := itemLen q.item + overhead d

/-- Choose a new packet by deficit-weighted round robin (R339). -/
def chooseNew (p : Nat) : Nat → Dev → Option QItem × Dev
  | 0, d => (none, d)
  | fuel + 1, d =>
    let x := getPort d p
    let c := x.drr
    let next := { x with drr := (c + 1) % 8, drrNew := true }
    match classHeads d p c with
    | [] => chooseNew p fuel (setPort p { next with deficit := tput x.deficit c 0 } d)
    | heads =>
      let def0 := (tget x.deficit c).getD 0
      let def1 := if x.drrNew then def0 + quantum d p c else def0
      match heads.find? fun q => decide (chargedOf d q ≤ def1) with
      | some q =>
        (some q, setPort p { x with
          drrNew := false, deficit := tput x.deficit c (def1 - chargedOf d q), rrVc := tput x.rrVc c (itemVc q) } d)
      | none => chooseNew p fuel (setPort p { next with deficit := tput x.deficit c def1 } d)

/-- Start a new packet (R337 step 4); its credit is kept for it (R338). With none eligible the visits still empty the
deficits, and an IDLE flit goes out (R339). -/
def sendPacketFlit (p : Nat) (d : Dev) : Option Dev :=
  match chooseNew p 256 d with
  | (none, d1) => some (emitFlit p {} d1)
  | (some q, d1) =>
    let cur : TxCur := { vc := itemVc q, bytes := itemBytes (finalItem d.clk.now q), ing := q.ingress
                         tc := itemClass q, hold := q.hold
                         pool := if flitUnits q ≤ creditLeft (getPort d p) (itemVc q) then 0 else flitUnits q }
    let d2 : Dev := { d1 with rt := { d1.rt with egress := tput d1.rt.egress p (((tget d1.rt.egress p).getD []).erase q) } }
    sendPart p cur (updPort p (fun x => { x with txp := x.txp + counted d 1 }) d2)

/-- Send an IDLE flit (R287). -/
def sendIdle (p : Nat) (d : Dev) : Dev := emitFlit p {} d

/-- Resend the next flit of a replay (R297, R298). -/
def sendReplay (p : Nat) (d : Dev) : Option Dev :=
  let x := getPort d p
  if x.toReplay = 0 then none
  else
    match x.replay[x.replay.length - x.toReplay]? with
    | none => none
    | some f => some (emitFlit p f (setPort p { x with toReplay := x.toReplay - 1 } d))

/-- The next new DATA flit, in R337's order; none while the replay buffer is full or an outage waits (R295, R316). TRAINING and
NIB_ONLY send Nib flits alone: a packet in mid-sending waits for UP (R304). (DEDUCED, log entry 85) -/
def sendFresh (p : Nat) (d : Dev) : Option Dev :=
  let x := getPort d p
  if x.outage || decide (512 ≤ x.replay.length) then none
  else
    match sendNibFlit p d with
    | some d1 => some d1
    | none =>
      if x.st ≠ .up then none
      else
        match x.txCur with
        | some c => sendPart p c d
        | none => sendPacketFlit p d

/-- One flit slot of a port's transmitter: at least one flit in 2,048 is IDLE (R300), and a replay goes ahead of new flits (R297).
RETRAINING sends the IDLE-only frames that train its lane (R304, R306, R316). -/
def flitSlot (p : Nat) (d : Dev) : Dev :=
  let x := getPort d p
  match x.st with
  | .retraining => endFlit p (sendIdle p d)
  | .training | .nibOnly | .up =>
    let d1 := purgeAged p d
    tryOutage p (endFlit p (
      if 2047 ≤ x.sinceIdle then sendIdle p d1
      else
        match sendReplay p d1 with
        | some d2 => d2
        | none => (sendFresh p d1).getD (sendIdle p d1)))
  | _ => d

/-- FLIT_SEND: the next flit of a port goes out (R281, R283, R295, R298, R300, R337 to R341). -/
def execFlitSend (p : Fin 64) (s : State) : Host.Outcome State Fault Refusal := lift (flitSlot p.val) s

end Sys2Proof.Machine
end

