-- ==== Sys2Proof/Machine/Time.lean ====
section
/-!
DEFINITION. Fabric time (R41, R368, R369, R380): the exchange with the time parent, the correction of the time-stamp
counter, PPS_IN and PPS_OUT, and FT_SET.
-/
namespace Sys2Proof.Machine

open Sys2Proof

/-- FT_CTL in force (R380). -/
def ftCtl (d : Dev) : Word64 := ctl9 d 0x60200 0x3E8
/-- EN. -/
def ftEn (d : Dev) : Bool := bit (ftCtl d) 63
/-- ROOT. -/
def ftRoot (d : Dev) : Bool := bit (ftCtl d) 62
/-- PPS_EN. -/
def ftPps (d : Dev) : Bool := bit (ftCtl d) 61
/-- PPS_OUT_EN. -/
def ftPpsOut (d : Dev) : Bool := bit (ftCtl d) 60
/-- PARENT_PORT. -/
def ftParent (d : Dev) : Nat := fld (ftCtl d) 48 6

/-- Nanoseconds in a second. -/
def secondNs : Nat := 1000000000

/-- The counter has gone from an old value to its present one: PPS_OUT rises where that crosses a whole second (R369). -/
def ppsEdge (old : Word64) (d : Dev) : Dev :=
  if ftPpsOut d && decide (old.toNat / secondNs < d.clk.tsc.toNat / secondNs) then
    { d with ft := { d.ft with ppsOut := true, ppsOutAt := d.clk.now } }
  else d

/-- PPS_OUT falls 100 microseconds after it rose, or when it is no longer driven (R369). -/
def ppsFall (d : Dev) : Dev :=
  if d.ft.ppsOut && (!ftPpsOut d || decide (100000 ≤ d.clk.now - d.ft.ppsOutAt)) then
    { d with ft := { d.ft with ppsOut := false } }
  else d

/-- Correct the counter by an offset rounded towards zero to a multiple of 4 ns: forward as a step, backward by
increments still to be skipped (R41, R368). (DESIGN CHOICE, log entry 29) -/
def correctTime (off : Int) (d : Dev) : Dev :=
  let n := off.tdiv 4
  if 0 ≤ n then
    ppsEdge d.clk.tsc { d with clk := { d.clk with tsc := d.clk.tsc + BitVec.ofInt 64 (4 * n), debt := 0 } }
  else { d with clk := { d.clk with debt := n.natAbs } }

/-- When the flit that carries a message arrived: as its port noted it, else now (R368). -/
def arrivedAt (d : Dev) (p : Nat) (m : LinkMsg) : Word64 :=
  match (getPort d p).llIn.find? fun e => e.1 = m with | some e => e.2 | none => d.clk.tsc

/-- TIME_REQ (R368): a TIME_RESP goes back; its VALUE holds the arrival time until the port tile fills it in. -/
def execTimeReq (p : Fin 64) (m : LinkMsg) (s : State) : Host.Outcome State Fault Refusal :=
  lift (fun d => onLink p.val 0x10 m (sendLink p.val { ntype := 0x11, value := arrivedAt d p.val m }) d) s

/-- LOCKED with a new offset: set by eight offsets in a row within 4 ns, cleared by two outside 12 ns (R368). -/
def relock (off : Int) (t : Ft) : Ft :=
  let good := if off.natAbs ≤ 4 then min 8 (t.good + 1) else 0
  let bad := if t.locked && decide (12 < off.natAbs) then t.bad + 1 else t.bad
  if t.locked && decide (2 ≤ bad) then { t with locked := false, good := 0, bad := 0 }
  else if !t.locked && good = 8 then { t with locked := true, good := good, bad := 0 }
  else { t with good := good, bad := bad }

/-- One-way delay and offset of an exchange (R368). -/
def timeOffset (t1 t3 t4 : Word64) (r : Nat) : Int × Int :=
  let delay := ((t4 - t1).toInt - r).tdiv 2
  (delay, (t3 - t4).toInt + delay)

/-- A TIME_RESP is used (R368). How the rate error is estimated is not stated: a free value. -/
def timeResp (m : LinkMsg) (t1 t4 : Word64) (d : Dev) : Dev :=
  let r := timeOffset t1 m.value t4 m.info.toNat
  let v := takeFree d
  let t := { v.2.ft with
    offset := r.2, delay := r.1.toNat % 65536, req := none, asked := false, missed := 0, holdover := false
    rate := (v.1.setWidth 32).toInt, set := true }
  correctTime r.2 { v.2 with ft := relock r.2 t }

/-- TIME_RESP (R368). -/
def execTimeResp (p : Fin 64) (m : LinkMsg) (s : State) : Host.Outcome State Fault Refusal :=
  lift (fun d =>
    let t4 := arrivedAt d p.val m
    onLink p.val 0x11 m (fun d =>
      match d.ft.req with
      | some t1 => if ftEn d && !ftRoot d && decide (ftParent d = p.val) then timeResp m t1 t4 d else d
      | none => d) d) s

/-- TIME_EXCHANGE_TIMER (R368): a period without an answer is counted, three set HOLDOVER, and TIME_REQ goes out. -/
def execTimeExchangeTimer (s : State) : Host.Outcome State Fault Refusal :=
  lift0 (fun d =>
    if !ftEn d || ftRoot d then d
    else
      let missed := if d.ft.asked then min 3 (d.ft.missed + 1) else d.ft.missed
      let d1 : Dev := { d with ft := { d.ft with
        missed := missed, holdover := d.ft.holdover || decide (3 ≤ missed), asked := true } }
      let st := (getPort d (ftParent d)).st
      if st = .nibOnly || st = .up then sendLink (ftParent d) { ntype := 0x10 } d1 else d1) s

/-- The counter's distance from the nearest whole second, as a correction (R369). -/
def ppsError (c : Nat) : Int :=
  let r := c % secondNs
  if 2 * r ≤ secondNs then -(r : Int) else ((secondNs - r : Nat) : Int)

/-- PPS_IN_EDGE (R369). -/
def execPpsInEdge (s : State) : Host.Outcome State Fault Refusal :=
  lift0 (fun d =>
    let d1 : Dev := { d with ft := { d.ft with ppsSeen := true, ppsAt := d.clk.now } }
    if ftPps d && ftRoot d then correctTime (ppsError d.clk.tsc.toNat) d1 else d1) s

/-- A write of FT_SET at the time root; a 32-bit write is ignored (R369, R380). -/
def ftSetWrite (w : Wr) (d : Dev) : Dev :=
  match w with
  | .full v =>
    if ftRoot d then
      correctTime ((v.toNat : Int) - d.clk.tsc.toNat) { d with ft := { d.ft with set := true } }
    else d
  | _ => d

/-- FT_SET (R369), by the fabric manager (R370). -/
def execFtSet (m : Master) (w : Wr) (s : State) : Host.Outcome State Fault Refusal :=
  fabRow m (.ftSet m w) s (lift0 (fun d => if isFab m then ftSetWrite w d else d) s)

/-- The clock cycle's increment of the counter (R41, R368): 4, or 0 while a backward correction is absorbed, on no more than one
cycle in four; a rate correction adds or skips single increments. -/
def clockCycle (d : Dev) : Dev :=
  let c := d.clk
  let acc := d.ft.acc + d.ft.rate
  let debt := if acc ≤ -4294967296 then c.debt + 1 else c.debt
  let extra : Nat := if 4294967296 ≤ acc then 4 else 0
  let acc1 := if acc ≤ -4294967296 then acc + 4294967296 else if 4294967296 ≤ acc then acc - 4294967296 else acc
  let skip := decide (0 < debt) && decide (3 ≤ c.phase)
  let inc : Nat := (if skip then 0 else 4) + extra
  let d1 : Dev := { d with
    clk := { c with
      now := c.now + 4
      tsc := c.tsc + BitVec.ofNat 64 inc
      debt := if skip then debt - 1 else debt
      phase := if skip then 0 else min 3 (c.phase + 1) }
    ft := { d.ft with acc := acc1 } }
  ppsFall (ppsEdge c.tsc d1)

end Sys2Proof.Machine
end

