-- ==== Sys2Proof/Machine/Svc.lean ====
section
/-!
DEFINITION. The service network (R348 to R359, R364 to R367, R371): links and their speeds, the arrival and forwarding of
frames, HELLO, the heartbeat tree, the manager role, DISCOVER and the service route table.
-/
namespace Sys2Proof.Machine

open Sys2Proof

/-! ### Links (R349, R350, R376) -/

/-- A link is lost or taken down: its window is discarded, what waited for it is dropped, and the port locks again where it
is enabled; the loss of the upstream drops it (R349, R355). -/
def svcDown (n : Nat) (d : Dev) : Dev :=
  let x := getSvc d n
  let was := x.link = 2 || x.switching
  let fresh : SvcPort := {
    link := if svcEnable d n then 1 else 0
    downCount := if was then satAdd 0xFFFF x.downCount 1 else x.downCount
    crcFail := x.crcFail, resends := x.resends, codeErr := x.codeErr
    drops := x.drops.add (x.waitQ.filter fun w => w.2.isSome).length }
  let d1 := setSvc n fresh d
  let d2 := svcPorts.foldl (fun d q => updSvc q (fun y => { y with
    waitQ := y.waitQ.map fun w => (w.1, match w.2 with | some (m, t) => if m = n then none else some (m, t) | none => none) }) d) d1
  let d3 := if x.speed ≠ 0 then emit (.svcSpeed n 0) d2 else d2
  let d4 : Dev := if d.svc.upstream = some n then { d3 with svc := { d3.svc with upstream := none } } else d3
  let d5 := if was then reportCorrected (srcSvc n) 1 d4 else d4
  svcRun (svcHellos d d5)

/-- The speed the two ends make for: the highest both allow that is above the present one and has not failed (R350). -/
def nextSpeed (d : Dev) (n : Nat) : Option Nat :=
  let x := getSvc d n
  let ok := fun s => decide (s ≤ svcMaxSpeed d n ∧ s ≤ x.peerMax ∧ x.speed < s) && !x.failedSpeeds.contains s
  if ok 2 then some 2 else if ok 1 then some 1 else none

/-- The end with the lower UNIT_ID sends SPEED (R350 step 3). The place of the speed in its payload is not stated: free
bytes. (DESIGN CHOICE, log entry 92) -/
def trySpeed (n : Nat) (d : Dev) : Dev :=
  let x := getSvc d n
  if !x.heard || x.link ≠ 2 || x.target.isSome || !decide (d.fuse.unitId.toNat < x.partner.toNat) then d
  else match nextSpeed d n with
    | none => d
    | some s =>
      svcSend n { ftype := 0x2, payload := Config.freeBytes d.free }
        { updSvc n (fun x => { x with target := some s }) d with free := d.free + 1 }

/-- SVC_LOCK_GAINED (R349): the link is up, or up again after a change of speed. -/
def execSvcLockGained (n : Fin 4) (s : State) : Host.Outcome State Fault Refusal :=
  lift0 (fun d =>
    let x := getSvc d n.val
    if !svcEnable d n.val || x.link = 2 then d
    else
      let d1 := setSvc n.val { x with link := 2, switching := false, target := if x.switching then none else x.target } d
      svcRun (trySpeed n.val (svcHello n.val d1))) s

/-- SVC_LOCK_LOST (R349, R377): code or running-disparity errors have come, at these symbols since the last such report; each
is counted, and four within 64 symbols take the link down. -/
def execSvcLockLost (x : CodeErrs) (s : State) : Host.Outcome State Fault Refusal :=
  lift0 (fun d =>
    if (getSvc d x.n.val).link ≠ 2 then d
    else
      let d1 := updSvc x.n.val (fun y => { y with codeErr := y.codeErr.add x.errs.length }) d
      if lockErrors x.errs then svcDown x.n.val d1 else d1) s

/-- SPEED_SWITCH (R350 step 4): the SPEED frame has been acknowledged; the transmitter switches and the receiver locks
again. -/
def execSpeedSwitch (n : Fin 4) (s : State) : Host.Outcome State Fault Refusal :=
  lift0 (fun d =>
    let x := getSvc d n.val
    let waits := x.unacked.any (fun f => f.ftype = 0x2) || x.waitQ.any fun w => w.1.ftype = 0x2
    match x.target with
    | some t =>
      if x.link ≠ 2 || waits then d
      else emit (.svcSpeed n.val t) (setSvc n.val { x with speed := t, switching := true, link := 1 } d)
    | none => d) s

/-- SPEED_LOCK_TIMEOUT (R350): back to 1.25 Gb/s; that speed is not tried again. -/
def execSpeedLockTimeout (n : Fin 4) (s : State) : Host.Outcome State Fault Refusal :=
  lift0 (fun d =>
    let x := getSvc d n.val
    match x.target with
    | some t =>
      if !x.switching then d
      else emit (.svcSpeed n.val 0) (setSvc n.val { x with speed := 0, target := none, failedSpeeds := x.failedSpeeds ++ [t] } d)
    | none => d) s

/-- A write of SVC_n_CTL (R376). -/
def svcCtlWrite (n : Nat) (w : Wr) (d : Dev) : Dev :=
  let v := mergeWr (svcCtl d n) 0xF00000000000FFFF w
  let d1 := putReg (0x60000 + n * 0x20) 0xC00000000000080A v d
  let restart := bit (wrBits w).1 59 && bit (wrBits w).2 59
  let d2 := if restart || (svcEnable d n && !svcEnable d1 n) then svcDown n d1 else d1
  let d3 := if svcEnable d2 n && decide ((getSvc d2 n).link = 0) then updSvc n (fun x => { x with link := 1 }) d2 else d2
  let d4 : Dev := if svcHold d3 n && decide (d3.svc.upstream = some n) then { d3 with svc := { d3.svc with upstream := none } } else d3
  trySpeed n (svcHellos d d4)

/-- SVC_RESTART (R376), by the fabric manager. -/
def execSvcRestart (m : Master) (n : Fin 4) (w : Wr) (s : State) : Host.Outcome State Fault Refusal :=
  fabRow m (.svcRestart m n w) s (
    lift0 (fun d => if isFab m && bit (wrBits w).1 59 && bit (wrBits w).2 59 then halfwise (svcCtlWrite n.val) w d else d) s)

/-! ### The arrival of a frame (R351 to R354) -/

/-- ACK and FREED of a frame are applied (R354). -/
def takeFrameAck (n : Nat) (f : Frame) (d : Dev) : Dev :=
  let x := getSvc d n
  let k := match x.unacked with | [] => 0 | g :: _ => (f.ack - g.seq).toNat
  let x1 := if decide (1 ≤ k ∧ k ≤ x.unacked.length) then { x with unacked := x.unacked.drop k, rounds := 0 } else x
  let c := (f.freed.toNat + 16 - x.held) % 16
  setSvc n (if 1 ≤ c ∧ c ≤ 8 then { x1 with held := f.freed.toNat, bal := min 8 (x1.bal + c) } else x1) d

/-- A frame arrives on a service port for the command of one FTYPE: checked, acknowledged, stored and handled; one out of
sequence is discarded, and one of a code R353 does not list is discarded and counted. (DEDUCED, log entry 93) -/
def svcArrive (code : BitVec 4) (n : Nat) (f : Frame) (handle : Nat → Dev → Dev) (d : Dev) : Dev :=
  let x := getSvc d n
  if x.link ≠ 2 || (f.ftype ≠ code && decide (f.ftype.toNat ≤ 9)) then d
  else if !frameGood f then updSvc n (fun x => { x with crcFail := x.crcFail.add 1 }) d
  else
    let d1 := takeFrameAck n f d
    if f.ftype = 0 then svcRun d1
    else if f.seq.toNat ≠ x.expect || decide (8 ≤ x.rxBuf.length) then svcRun (updSvc n (fun x => { x with ackDue := true }) d1)
    else
      let t := (leastFrom (fun t => !x.rxBuf.contains t) 9 0).getD 0
      let d2 := updSvc n (fun x => { x with expect := (x.expect + 1) % 16, rxBuf := x.rxBuf ++ [t], ackDue := true }) d1
      svcRun (if 9 < f.ftype.toNat then countDrop n d2 else handle t d2)

/-- SVC_LINK_ACK (R354). -/
def execSvcLinkAck (n : Fin 4) (f : Frame) (s : State) : Host.Outcome State Fault Refusal :=
  lift0 (svcArrive 0x0 n.val f fun _ d => d) s

/-- SVC_LINK_ACK_TIMER (R354): a LINK_ACK goes out where ACK or FREED is owed. -/
def execSvcLinkAckTimer (n : Fin 4) (s : State) : Host.Outcome State Fault Refusal :=
  lift0 (fun d =>
    let x := getSvc d n.val
    if x.link = 2 && x.ackDue then
      putFrame n.val (sealFrame { ack := BitVec.ofNat 4 x.expect, freed := BitVec.ofNat 4 x.freed })
        (setSvc n.val { x with ackDue := false } d)
    else d) s

/-- SVC_ACK_TIMEOUT (R354): every unacknowledged frame is resent in order; at RETRY_LIMIT resends without progress the link
is taken down. -/
def execSvcAckTimeout (n : Fin 4) (s : State) : Host.Outcome State Fault Refusal :=
  lift0 (fun d =>
    let x := getSvc d n.val
    if x.link ≠ 2 || x.unacked.isEmpty then d
    else if svcRetryLimit d n.val ≤ x.rounds then svcDown n.val d
    else
      let again := x.unacked.map fun f => sealFrame { f with ack := BitVec.ofNat 4 x.expect, freed := BitVec.ofNat 4 x.freed }
      again.foldl (fun d f => putFrame n.val f d)
        (setSvc n.val { x with rounds := x.rounds + 1, resends := x.resends.add 1, unacked := again, ackDue := false } d)) s

/-! ### Forwarding (R356) -/

/-- The service route table entry of a coordinate (R360, R379). -/
def svcRt (d : Dev) (c : Nat) : Nat := fld ((tget d.svc.rt (c / 16)).getD 0) (c % 16 * 4) 4

/-- A frame is discarded and counted at the port it came by. -/
def dropFrame (a : Option (Nat × Nat)) (d : Dev) : Dev := match a with | some (n, _) => countDrop n d | none => d

/-- Forward on a port, or discard where its link is down. -/
def forwardOn (p : Nat) (f : Frame) (a : Option (Nat × Nat)) (d : Dev) : Dev :=
  if (getSvc d p).link = 2 || (getSvc d p).switching then svcQueue p f a d else dropFrame a d

/-- Forward on the upstream. -/
def forwardUp (f : Frame) (a : Option (Nat × Nat)) (d : Dev) : Dev :=
  match d.svc.upstream with | some u => forwardOn u f a d | none => dropFrame a d

/-- Follow a frame's PATH. -/
def followPath (f : Frame) (a : Option (Nat × Nat)) (consume : Frame → Dev → Dev) (d : Dev) : Dev :=
  if f.pathLen = 0 then consume f d
  else forwardOn (f.path.toNat % 4) { f with path := f.path >>> 2, pathLen := f.pathLen - 1 } a d

/-- Handle a stored frame that is not link-local (R356); `a` is its port and receive buffer, none where this device sends it
itself. `up` consumes an UP frame at the active manager, `consume` one addressed to this device. -/
def routeFrame (f : Frame) (a : Option (Nat × Nat)) (up consume : Frame → Dev → Dev) (d : Dev) : Dev :=
  if f.up then
    if d.svc.role = 2 then up f d
    else if f.coord = 0 then dropFrame a d
    else forwardUp { f with coord := f.coord - 1 } a d
  else if f.flood then
    (svcPorts.filter fun p => svcRole d p == 2).foldl (fun d p => forwardOn p f a d) (if a.isSome then consume f d else d)
  else if f.via then
    if !bit (rtCoordReg d) 16 then dropFrame a d
    else if f.coord.toNat ≠ fld (rtCoordReg d) 0 16 then
      let e := svcRt d f.coord.toNat
      if e = 0 then forwardUp f a d
      else if 8 ≤ e ∧ e ≤ 11 then forwardOn (e - 8) f a d
      else dropFrame a d
    else followPath { f with via := false } a consume d
  else followPath f a consume d

/-- The manager role takes an UP frame: held for RECV, 64 at most (R363). -/
def mgrTake (f : Frame) (d : Dev) : Dev :=
  if d.svc.rx.length < 64 then { d with svc := { d.svc with rx := d.svc.rx ++ [f] } }
  else { d with svc := { d.svc with rxDrops := d.svc.rxDrops.add 1 } }

/-- An UP frame of this device's own; at the active manager it is the manager's at once (R356). -/
def sendToManager (ftype : BitVec 4) (payload : List Byte) (d : Dev) : Dev :=
  if d.svc.role = 2 then
    mgrTake (sealFrame { ftype := ftype, up := true, len := BitVec.ofNat 11 payload.length, payload := payload }) d
  else (sendUpFrame ftype payload d).2

/-- A frame of one FTYPE arrives; `consume` says what it means to this device. -/
def svcFrame (code : BitVec 4) (n : Nat) (f : Frame) (consume : Frame → Dev → Dev) (d : Dev) : Dev :=
  svcArrive code n f (fun t d => routeFrame f (some (n, t)) mgrTake consume d) d

/-- A frame whose arrival at a device that is not the active manager has no use of its own. -/
def execUpFrame (code : BitVec 4) (n : Fin 4) (f : Frame) (s : State) : Host.Outcome State Fault Refusal :=
  lift0 (svcFrame code n.val f fun _ d => d) s

/-- DISCOVER_REPLY (R359). -/
def execDiscoverReply (n : Fin 4) (f : Frame) (s : State) : Host.Outcome State Fault Refusal := execUpFrame 0x4 n f s
/-- RESPONSE (R362). -/
def execResponse (n : Fin 4) (f : Frame) (s : State) : Host.Outcome State Fault Refusal := execUpFrame 0x6 n f s
/-- NOTIFY (R364). -/
def execNotify (n : Fin 4) (f : Frame) (s : State) : Host.Outcome State Fault Refusal := execUpFrame 0x8 n f s

/-! ### HELLO (R358) and SPEED (R350) -/

/-- The number in n bytes of a payload from an offset; bytes that are not there read 0. -/
def payNat (f : Frame) (off n : Nat) : Nat := leNat ((f.payload.drop off).take n)

/-- A HELLO has arrived: the partner is stored, and an upstream that has none itself is dropped (R355, R358).
(DEDUCED, log entry 94) -/
def helloIn (n : Nat) (f : Frame) (d : Dev) : Dev :=
  let w : Word64 := BitVec.ofNat 64 (payNat f 8 8)
  let d1 := updSvc n (fun x => { x with
    partner := BitVec.ofNat 64 (payNat f 0 8), peerMax := min 2 (fld w 2 2), peerUp := bit w 4, peerHas := bit w 5
    heard := true }) d
  let d2 : Dev := if d1.svc.upstream = some n && !bit w 5 then { d1 with svc := { d1.svc with upstream := none } } else d1
  trySpeed n (svcHellos d d2)

/-- SVC_HELLO (R358). -/
def execSvcHello (n : Fin 4) (f : Frame) (s : State) : Host.Outcome State Fault Refusal :=
  lift0 (svcArrive 0x1 n.val f fun _ d => helloIn n.val f d) s

/-- SVC_HELLO_TIMER (R358): every 10 ms. -/
def execSvcHelloTimer (n : Fin 4) (s : State) : Host.Outcome State Fault Refusal :=
  lift0 (fun d => svcHello n.val d) s

/-- SPEED (R350): the speed the frame names, which the command gives, is the next one. -/
def execSpeed (n : Fin 4) (f : Frame) (speed : Fin 3) (s : State) : Host.Outcome State Fault Refusal :=
  lift0 (svcArrive 0x2 n.val f fun _ d => updSvc n.val (fun x => { x with target := some speed.val }) d) s

/-! ### Heartbeats and the tree (R355, R365, R366) -/

/-- A HEARTBEAT's payload (R366). -/
def heartbeatBytes (term hops coord : Nat) (unit tsc : Word64) (seq : Nat) : List Byte :=
  leBytes 8 (term + hops * 2 ^ 32 + coord * 2 ^ 48) ++ leBytes 8 unit.toNat ++ leBytes 8 tsc.toNat ++ leBytes 8 seq

/-- Adopt a heartbeat: its port becomes the upstream; a NOTIFY that was held goes out (R355, R364). -/
def adopt (n term hops : Nat) (unit : Word64) (d : Dev) : Dev :=
  let s := d.svc
  let s1 := { s with
    term := term, depth := hops, upstream := some n, unit := unit
    role := if s.role = 2 then 1 else s.role }
  svcHellos d { d with svc := s1 }

/-- The effect of a heartbeat on the tree (R355) and on an active manager (R365); a held port is never the upstream (R376). -/
def joinTree (n term hops : Nat) (unit : Word64) (d : Dev) : Dev :=
  let s := d.svc
  if s.role = 2 then
    if decide (s.term < term) || (decide (term = s.term) && decide (unit.toNat < d.fuse.unitId.toNat)) then
      if svcHold d n then svcHellos d { d with svc := { s with term := term, unit := unit, role := 1 } }
      else adopt n term hops unit d
    else d
  else if svcHold d n then d
  else if s.term < term then adopt n term hops unit d
  else if term ≠ s.term then d
  else match s.upstream with
    | none => adopt n term hops unit d
    | some u => if u = n || decide (hops < s.depth) then adopt n term hops unit d else d

/-- Forward a heartbeat once, whatever its TERM, on every port whose link is up but the one it came by (R355, R366): a device
that holds an upstream does, and a manager the heartbeat has just made standby (R365). -/
def passHeartbeat (n term seq : Nat) (demoted : Bool) (f : Frame) (d : Dev) : Dev :=
  if (d.svc.upstream.isNone && !demoted) || d.svc.hbDone.contains (term, seq) then d
  else
    let body := heartbeatBytes term (d.svc.depth + 1) (payNat f 6 2) (BitVec.ofNat 64 (payNat f 8 8))
      (BitVec.ofNat 64 (payNat f 0x10 8)) seq
    let d1 : Dev := { d with svc := { d.svc with hbDone := d.svc.hbDone ++ [(term, seq)] } }
    (svcPorts.filter fun p => p != n && decide ((getSvc d p).link = 2)).foldl
      (fun d p => svcSend p { f with payload := body } d) d1

/-- A HEARTBEAT has arrived. -/
def heartbeatIn (n : Nat) (f : Frame) (d : Dev) : Dev :=
  let term := payNat f 0 4
  let seq := payNat f 0x18 4
  let d1 : Dev := { d with svc := { d.svc with
    hbAt := some d.clk.now, heardHb := d.svc.heardHb || (d.svc.listening && decide (d.svc.term ≤ term)) } }
  let d2 := joinTree n term (payNat f 4 2) (BitVec.ofNat 64 (payNat f 8 8)) d1
  sendNotify (passHeartbeat n term seq (decide (d.svc.role = 2 ∧ d2.svc.role ≠ 2)) f d2)

/-- HEARTBEAT (R355, R365, R366). -/
def execHeartbeat (n : Fin 4) (f : Frame) (s : State) : Host.Outcome State Fault Refusal :=
  lift0 (svcArrive 0x7 n.val f fun _ d => heartbeatIn n.val f d) s

/-- UPSTREAM_TIMEOUT (R355): the upstream is dropped. -/
def execUpstreamTimeout (s : State) : Host.Outcome State Fault Refusal :=
  lift0 (fun d => svcHellos d { d with svc := { d.svc with upstream := none } }) s

/-- Flood a heartbeat on every port whose link is up (R355, R365, R367). -/
def sendHeartbeat (d : Dev) : Dev :=
  let body := heartbeatBytes d.svc.term (d.svc.depth + 1) (fld (rtCoordReg d) 0 16) d.fuse.unitId d.clk.tsc d.svc.hbSeq
  let d1 : Dev := { d with svc := { d.svc with hbSeq := (d.svc.hbSeq + 1) % 2 ^ 32 } }
  svcPorts.foldl (fun d p => svcSend p { ftype := 0x7, flood := true, payload := body } d) d1

/-- HEARTBEAT_TIMER (R365). -/
def execHeartbeatTimer (s : State) : Host.Outcome State Fault Refusal :=
  lift0 (fun d => if d.svc.role = 2 then sendHeartbeat d else d) s

/-- Become the active manager with the next term, and the time root (R365, R367, R368). -/
def becomeActive (d : Dev) : Dev :=
  let d1 : Dev := { d with svc := { d.svc with
    role := 2, term := (d.svc.term + 1) % 2 ^ 32, upstream := none, depth := 0, unit := d.fuse.unitId, hbSeq := 0
    listening := false } }
  svcHellos d (putReg 0x60200 0x3E8 (ftCtl d1 ||| ins 62 1) d1)

/-- MANAGER_LISTEN_END (R365): standby where a heartbeat of a TERM at least its own came, else active. -/
def execManagerListenEnd (s : State) : Host.Outcome State Fault Refusal :=
  lift0 (fun d =>
    if !d.svc.listening then d
    else if d.svc.heardHb then { d with svc := { d.svc with role := 1, listening := false } }
    else becomeActive d) s

/-- TAKEOVER (R367): a standby becomes active, records it and floods a heartbeat. -/
def execTakeover (s : State) : Host.Outcome State Fault Refusal :=
  lift0 (fun d => if d.svc.role = 1 then sendHeartbeat (reportCorrected srcMgr 1 (becomeActive d)) else d) s

/-- LEASE_TIMEOUT (R371). -/
def execLeaseTimeout (s : State) : Host.Outcome State Fault Refusal :=
  lift0 (fun d => { d with svc := { d.svc with lease := false } }) s

/-- A write of SVC_LEASE: HELD takes or ends the lease (R371, R379). (DEDUCED, log entry 96) -/
def leaseWrite (w : Wr) (d : Dev) : Dev :=
  let v := mergeWr (regInForce d 0x60120 0x14) 0x800000000000FFFF w
  let d1 := putReg 0x60120 0x14 v d
  if bit (wrBits w).2 63 then { d1 with svc := { d1.svc with lease := bit v 63 } } else d1

/-! ### DISCOVER (R359) -/

/-- DEV_STEP (R485). -/
def devStep : Nat := 0x0B2

/-- The DISCOVER_REPLY payload (R359); in Recovery MODE is 0 (R445). -/
def discoverBytes (d : Dev) : List Byte :=
  leBytes 8 d.fuse.unitId.toNat
  ++ leBytes 8 (fld (rtCoordReg d) 0 17 + modeCode d.mode * 2 ^ 17 + d.strap.role.toNat * 2 ^ 20
      + (d.svc.upstream.getD 0) * 2 ^ 22 + d.svc.depth * 2 ^ 24 + ifGen d * 2 ^ 40 + devStep % 256 * 2 ^ 56)
  ++ ([0, 1, 2, 3].flatMap fun k => leBytes 8 (getSvc d k).partner.toNat)
  ++ (allPorts.flatMap fun p => leBytes 8 (getPort d p).unitId.toNat)
  ++ allPorts.flatMap fun p => leBytes 2 (fld (getPort d p).info 26 6 + portStCode (getPort d p).st * 2 ^ 6)

/-- DISCOVER is answered unless its TERM is lower than the device's own; in Recovery whatever it is (R359, R445). -/
def discoverIn (f : Frame) (d : Dev) : Dev :=
  if d.mode ≠ .recovery && decide (payNat f 0 4 < d.svc.term) then d else sendToManager 0x4 (discoverBytes d) d

/-- DISCOVER (R359). -/
def execDiscover (n : Fin 4) (f : Frame) (s : State) : Host.Outcome State Fault Refusal :=
  lift0 (svcFrame 0x3 n.val f discoverIn) s

/-! ### The service route table (R360, R379) -/

/-- A write of SVC_RT_ADDR: one access. -/
def svcRtAddrWrite (w : Wr) (d : Dev) : Dev :=
  let a := mergeWr (regInForce d 0x60128 0) 0x4000000000000FFF w
  let d1 := putReg 0x60128 0 a d
  let i := fld a 0 12
  if !bit (wrBits w).2 0 then d1
  else if bit a 62 then { d1 with svc := { d1.svc with rt := tput d1.svc.rt i (ctl9 d 0x60130 0) } }
  else { d1 with regs := tput d1.regs 0x60130 ((tget d.svc.rt i).getD 0) }

/-- A write of SVC_RT_ADDR with a given WRITE bit, by the fabric manager. -/
def svcRtRow (wr : Bool) (m : Master) (w : Wr) (s : State) : Host.Outcome State Fault Refusal :=
  lift0 (fun d =>
    if isFab m && bit (wrBits w).2 0 && bit (mergeWr (regInForce d 0x60128 0) 0x4000000000000FFF w) 62 == wr then svcRtAddrWrite w d
    else d) s

/-- SVC_RT_READ (R379). -/
def execSvcRtRead (m : Master) (w : Wr) (s : State) : Host.Outcome State Fault Refusal :=
  fabRow m (.svcRtRead m w) s (svcRtRow false m w s)

/-- SVC_RT_WRITE (R379). -/
def execSvcRtWrite (m : Master) (w : Wr) (s : State) : Host.Outcome State Fault Refusal :=
  fabRow m (.svcRtWrite m w) s (svcRtRow true m w s)

end Sys2Proof.Machine
end

