-- ==== Sys2Proof/Machine/Meter.lean ====
section
/-!
DEFINITION. The metering island (R381 to R408): tally taps, samples, minute blocks and their signing, storing and release,
holds, the seal, the audit log, island time, parameters and firmware, and the readers of the export block.
-/
namespace Sys2Proof.Machine

open Sys2Proof

/-! ### The shared course of a meter command -/

/-- METER_HOLD and METER_RELEASED, where what they tell has changed (R401). -/
def meterNotify (d : Dev) : Dev :=
  let c := holdCause d
  let full := d.isl.full || !d.isl.powered
  if !d.fuse.meter || d.isl.seen = (c, full) then d
  else
    let d1 : Dev := { d with isl := { d.isl with seen := (c, full) } }
    let a : Word64 := BitVec.ofNat 64 (c + b2n full * 2 ^ 8)
    let b : Word64 := BitVec.ofNat 64 (d.isl.acked % 2 ^ 48)
    if c = 0 && !full then postSubscribed .meterReleased 0 a b d1 else postSubscribed .meterHold 0 a b d1

/-- A command of the island: nothing on a device without metering (R2); METER_HOLD and METER_RELEASED follow (R401). -/
def island (g : Dev → Dev) (s : State) : Host.Outcome State Fault Refusal :=
  .next { s with dev := if s.dev.fuse.meter then meterNotify (g s.dev) else s.dev }

/-- Change the island. -/
def updIsl (g : Isl → Isl) (d : Dev) : Dev := { d with isl := g d.isl }

/-- A write to the export block that the island ignores is counted (R383). (DEDUCED, log entry 102) -/
def ignoreWr (i : Isl) : Isl := { i with wrIgnored := i.wrIgnored.add 1 }

/-- A register write to the export block: it reaches the island where its master may write there and the island has power
(R49, R383). -/
def mtrWrite (m : Master) (g : Isl → Isl) (s : State) : Host.Outcome State Fault Refusal :=
  island (fun d => if mayWrite d m && d.isl.powered then updIsl g d else d) s

/-! ### The audit log (R403) -/

/-- The 128 bytes of an audit entry. -/
def auditBytes (e : Audit) : List Byte :=
  leBytes 8 e.seq ++ leBytes 8 e.time ++ leBytes 8 e.kind ++ leBytes 8 e.a.toNat ++ leBytes 8 e.b.toNat
  ++ leBytes 8 e.sealNo ++ leBytes 16 0 ++ (if e.prev.isEmpty then leBytes 64 0 else e.prev)

/-- SHA-512 of the latest entry; nothing where there is none. -/
def auditDigest (i : Isl) : List Byte := match i.audit.getLast? with | some e => Config.sha512 (auditBytes e) | none => []

/-- Log an event; the last 256 entries are kept for kinds 1 to 3. -/
def audit (kind : Nat) (a b : Word64) (i : Isl) : Isl :=
  if i.audit.length < 32512 || (i.audit.length < 32768 && decide (kind ≤ 3)) then
    { i with audit := i.audit ++ [{ seq := i.audit.length + 1, time := i.time, kind := kind, a := a, b := b
                                    sealNo := i.sealCount, prev := auditDigest i }] }
  else i

/-! ### Blocks (R390 to R394) -/

/-- Pages a block of n records takes (R393). -/
def blockPages (n : Nat) : Nat := (768 + 64 * n + 4095) / 4096

/-- Free block pages: all but those of blocks not released (R394, R408). -/
def pagesFree (i : Isl) : Nat :=
  50176 - ((i.blocks.filter fun b => decide (i.acked < b.seq)).map fun b => blockPages b.recs.length).sum

/-- A record has a quantity that is not zero (R390). -/
def Tally.used (t : Tally) : Bool :=
  t.tx != 0 || t.rx != 0 || t.rma != 0 || t.coll != 0 || t.connMs != 0 || t.hbmMs != 0 || t.onMs != 0

/-- The 64 bytes of a record (R390). -/
def tallyBytes (t : Tally) : List Byte :=
  leBytes 8 (t.fn.port.val * 2 ^ 8 + t.fn.num.val + t.dom.toNat * 2 ^ 16
    + (b2n t.gap + b2n t.flr * 2 + b2n t.split * 4 + b2n t.parked * 8) * 2 ^ 32)
  ++ leBytes 8 t.tx ++ leBytes 8 t.rx ++ leBytes 8 t.rma ++ leBytes 8 t.coll ++ leBytes 8 t.connMs ++ leBytes 8 t.hbmMs
  ++ leBytes 8 (t.onMs % 2 ^ 32)

/-- A digest field: 64 zero bytes where there is no digest. -/
def digestField (x : List Byte) : List Byte := if x.isEmpty then leBytes 64 0 else x

/-- The message of a block: its header and records (R391, R392). -/
def blockMsg (unit : Word64) (b : MBlock) : List Byte :=
  leBytes 8 (0x4B424D57 + 2 ^ 32 + b.recs.length * 2 ^ 48) ++ leBytes 8 b.seq ++ leBytes 8 b.start ++ leBytes 8 b.fin
  ++ leBytes 8 (b.span % 2 ^ 16 + (b2n (!b.gapTaps.isEmpty) + b2n (decide (1 < b.span)) * 2 + b2n b.adjusted * 4
      + b2n b.powerUp * 8 + b2n b.sealOpen * 16 + b2n b.fwChanged * 32) * 2 ^ 16 + b.sealCount * 2 ^ 32)
  ++ leBytes 8 unit.toNat ++ leBytes 8 b.operator.toNat ++ leBytes 8 (b.paramCrc.toNat + b.fwVersion * 2 ^ 32)
  ++ leBytes 8 b.auditSeq ++ leBytes 56 0 ++ digestField b.prevDigest ++ digestField b.auditDigest
  ++ b.recs.flatMap tallyBytes

/-- The bytes of a signed block. -/
def blockBytes (unit : Word64) (b : MBlock) : List Byte := blockMsg unit b ++ b.signature

/-- Effective trim (R387). -/
def trimSum (d : Dev) : Int := d.fuse.mtrTrim.toInt + d.isl.trimUsr.toInt

/-- The parameter checksum (R404). -/
def paramCrc (i : Isl) : Word32 := crc32c (leBytes 8 (i.trimUsr.signExtend 64).toNat ++ leBytes 8 i.operator.toNat)

/-- The tap that carries what concerns a host port's functions: its host tile's; or, for the HBM they take, a memory
tile's. -/
def tapsOf (p : Fin 4) : List Nat := [p.val, p.val + 4]

/-- A record before another in a block: ascending FN, the earlier domain of a split function first (R390). -/
def recBefore (k : MBlock) (a b : Tally) : Bool :=
  decide (fnKey a.fn < fnKey b.fn) || (decide (a.fn = b.fn) && decide (tget k.changed (fnKey b.fn) = some b.dom))

/-- Insert a record in its place. -/
def insertRec (k : MBlock) (t : Tally) : List Tally → List Tally
  | [] => [t]
  | x :: xs => if recBefore k t x then t :: x :: xs else x :: insertRec k t xs

/-- The records of a block as they are closed: those with a quantity, flagged and in order (R390). -/
def closeRecs (b : MBlock) : List Tally :=
  (b.recs.filter Tally.used).foldl (fun l t =>
    insertRec b { t with
      gap := (tapsOf t.fn.port).any fun k => b.gapTaps.contains k
      flr := b.flrFns.contains (fnKey t.fn)
      split := (tget b.changed (fnKey t.fn)).isSome } l) []

/-- Released blocks are dropped, oldest first, while the ring has no room for all (R394). -/
def trimRing (acked : Nat) : Nat → List MBlock → List MBlock
  | 0, l => l
  | fuel + 1, l =>
    if (l.map fun b => blockPages b.recs.length).sum ≤ 50176 then l
    else match l with
      | b :: rest => if b.seq ≤ acked then trimRing acked fuel rest else l
      | [] => []

/-- A fresh block. -/
def freshBlock (i : Isl) (powerUp : Bool) : MBlock :=
  { seq := i.seqNext, start := i.time, powerUp := powerUp, sealOpen := i.sealOpen, fwChanged := i.fwChanged, gapTaps := i.silent }

/-- Close a block with its final fields and store it (R391); one that closes within its first minute has SPAN 1. -/
def storeBlock (b : MBlock) (d : Dev) : Dev :=
  let i := d.isl
  let b1 : MBlock := { b with
    fin := i.time, span := max 1 b.span, recs := closeRecs b, adjusted := b.adjusted || i.slew != 0, sealCount := i.sealCount, operator := i.operator
    paramCrc := paramCrc i, fwVersion := i.fwVersion, auditSeq := i.audit.length, prevDigest := i.lastDigest
    auditDigest := auditDigest i }
  let l := i.blocks ++ [b1]
  let i1 := { i with
    blocks := trimRing i.acked l.length l, opened := none, seqNext := i.seqNext + 1, lastEnd := i.time
    lastDigest := Config.sha512 (blockMsg d.fuse.unitId b1) }
  { d with isl := i1 }

/-- Open the next block. -/
def openBlock (powerUp : Bool) (i : Isl) : Isl := { i with opened := some (freshBlock i powerUp), fwChanged := false }

/-- The open block fits the free pages (R399). -/
def blockFits (d : Dev) (b : MBlock) : Bool := decide (blockPages (closeRecs b).length ≤ pagesFree d.isl)

/-- Island time moves on to t; what is still to be absorbed of an adjustment falls by the thousandth of the way (R386). -/
def timeTo (t : Nat) (i : Isl) : Isl :=
  let t1 := max i.time t
  let moved := (t1 - i.time) * 100000000000
  { i with
    time := t1, frac := if t1 = i.time then i.frac else 0
    slew := if 0 ≤ i.slew then max 0 (i.slew - (moved / 1001 : Nat)) else min 0 (i.slew + (moved / 999 : Nat)) }

/-- The bytes of the staged image. -/
def stageBytes (i : Isl) : List Byte := i.fwStage.flatMap fun w => leBytes 8 w.2.toNat

/-- A staged firmware runs (R405): the next block opened has FW_CHANGED. (DEDUCED, log entry 104) -/
def activateFw (i : Isl) : Isl :=
  match i.fwNew with
  | none => i
  | some v =>
    audit 9 (BitVec.ofNat 64 v) (BitVec.ofNat 64 i.fwVersion) { i with
      fwRun := stageBytes i, fwVersion := v, fwNew := none, fwStatus := 0, fwChanged := true }

/-- MINUTE_BOUNDARY (R387, R391, R399, R400, R405): the trim takes effect; the open block closes, or under FULL is extended; a
staged firmware runs; and the next block opens. While TIME_UNSET is 1 no block is closed or opened (R385). -/
def minuteBoundary (d : Dev) : Dev :=
  let m := max (d.isl.time / 60000000) (d.isl.min + 1)
  let d0 := updIsl (fun i => { timeTo (m * 60000000) i with
    min := m, ms := max i.ms (max i.time (m * 60000000) / 1000 - 1), trimEff := trimSum d }) d
  match if d0.isl.timeUnset then none else d0.isl.opened with
  | none => updIsl activateFw d0
  | some b =>
    let b1 := { b with span := b.span + 1 }
    if blockFits d0 b1 then updIsl (fun i => openBlock false (activateFw { i with full := false })) (storeBlock b1 d0)
    else updIsl (fun i => activateFw { i with opened := some b1, full := true }) d0

/-- MINUTE_BOUNDARY. -/
def execMinuteBoundary (s : State) : Host.Outcome State Fault Refusal :=
  island (fun d => if d.isl.powered then minuteBoundary d else d) s

/-- BLOCK_SIGNED (R392): the oldest block not signed becomes readable. -/
def execBlockSigned (s : State) : Host.Outcome State Fault Refusal :=
  island (fun d =>
    match d.isl.blocks.find? fun b => !b.signed with
    | none => d
    | some b =>
      let b1 := { b with signed := true, signature := Config.rsaSign 1 (blockMsg d.fuse.unitId b) }
      if d.isl.powered then updIsl (fun i => { i with blocks := i.blocks.map fun x => if x.seq = b.seq then b1 else x }) d else d) s

/-- FLASH_WRITE_DONE (R393): the oldest signed block not in flash is written, or the write has failed after its retries. -/
def execFlashWriteDone (ok : Bool) (s : State) : Host.Outcome State Fault Refusal :=
  island (fun d =>
    match d.isl.blocks.find? fun b => b.signed && !b.inFlash with
    | none => d
    | some b =>
      if !d.isl.powered then d
      else if ok then updIsl (fun i => { i with
        flashHeld := false, flashEnd := max i.flashEnd b.fin
        blocks := i.blocks.map fun x => if x.seq = b.seq then { x with inFlash := true } else x }) d
      else updIsl (fun i => audit 13 0 0 { i with flashHeld := true }) d) s

/-! ### Taps and samples (R382, R388, R397) -/

/-- Add an increment to the record of its function and domain. -/
def addTo (a : Acc) (t : Tally) : Tally :=
  match a.what with
  | 0 => { t with tx := t.tx + a.n }
  | 1 => { t with rx := t.rx + a.n }
  | 2 => { t with rma := t.rma + a.n }
  | _ => { t with coll := t.coll + a.n }

/-- Change the record of a (function, domain) pair, made where it is not there. -/
def onRec (f : FnId) (dom : Dom) (g : Tally → Tally) (l : List Tally) : List Tally :=
  if l.any fun t => decide (t.fn = f ∧ t.dom = dom) then l.map fun t => if t.fn = f ∧ t.dom = dom then g t else t
  else l ++ [g { fn := f, dom := dom }]

/-- A function is parked: from the end of PARK_FUNCTION to that of UNPARK_FUNCTION (R156, R158). -/
def fnParked (x : Fn) : Bool := x.park = .parked || x.park = .unparking

/-- A function is enabled (R388): admin queue enabled, and not parked. -/
def fnEnabled (x : Fn) : Bool := x.aqEnable && !fnParked x

/-- The state beat a tap carries now (R382): a host tile's for the functions of its port, a memory tile's for the HBM they
take. -/
def beatOf (d : Dev) (tap : Nat) : List Beat :=
  ((fnKeys d).map fnOfKey).filterMap fun f =>
    if f.port.val ≠ tap % 4 then none
    else
      let x := getFn d f
      if tap < 4 then
        some { fn := f, dom := x.domain, on := fnEnabled x, parked := fnParked x
               conns := (d.xpt.conns.filter fun c => decide (c.2.fn = f) && c.2.st != .parked).length }
      else some { fn := f, dom := x.domain, hbm := (hbmUse d f + 1048575) / 1048576 }

/-- A tap delivers (R382, R397): its increments join the open block and wait where there is none; its state beat is kept; a
silent tap has resumed. (DESIGN CHOICE, log entry 99) -/
def deliver (tap : Nat) (d : Dev) : Dev :=
  let i := d.isl
  let mine := fun (a : Acc) => decide (tap < 4) && a.fn.port.val == tap
  let i1 := match i.opened with
    | none => i
    | some b => { i with
        opened := some { b with recs := (i.acc.filter mine).foldl (fun l (a : Acc) => onRec a.fn a.dom (addTo a) l) b.recs }
        acc := i.acc.filter fun a => !mine a }
  let i2 := { i1 with beats := tput i1.beats tap (beatOf d tap) }
  { d with isl := if i2.silent.contains tap then
      audit 12 (BitVec.ofNat 64 tap) 0 { i2 with silent := i2.silent.filter (· != tap) } else i2 }

/-- TALLY_TAP_DELIVERY (R382). -/
def execTallyTapDelivery (tap : Fin 8) (s : State) : Host.Outcome State Fault Refusal :=
  island (fun d => if d.isl.powered then deliver tap.val d else d) s

/-- TAP_SILENCE (R397, R414): the island holds with cause TAP, marks the block, logs it; the stall is recorded.
(DEDUCED, log entry 105) -/
def execTapSilence (tap : Fin 8) (s : State) : Host.Outcome State Fault Refusal :=
  island (fun d =>
    if !d.isl.powered || d.isl.silent.contains tap.val then d
    else
      let d1 := updIsl (fun i => audit 11 (BitVec.ofNat 64 tap.val) 0 { i with
        silent := i.silent ++ [tap.val], opened := i.opened.map fun b => { b with gapTaps := b.gapTaps ++ [tap.val] } }) d
      if asleep d1 then d1 else reportError (srcTap tap.val) .contained caTapStall 0 0 1 d1) s

/-- One function's sample joins its record (R388, R390). -/
def sampleBeat (l : List Tally) (x : Beat) : List Tally :=
  onRec x.fn x.dom (fun t => { t with
    connMs := t.connMs + x.conns, hbmMs := t.hbmMs + x.hbm, onMs := t.onMs + b2n x.on, parked := t.parked || x.parked }) l

/-- METER_SAMPLE (R388): island time is at its next whole millisecond, and the sampled quantities are taken. -/
def execMeterSample (s : State) : Host.Outcome State Fault Refusal :=
  island (fun d =>
    let i := d.isl
    if !i.powered || i.timeUnset then d
    else
      let k := max (i.time / 1000) (i.ms + 1)
      updIsl (fun i => { timeTo (k * 1000) i with
        ms := k
        opened := i.opened.map fun b => { b with recs := (i.beats.flatMap (·.2)).foldl sampleBeat b.recs } }) d) s

/-! ### Island time (R384 to R387) -/

/-- One METER_XO cycle of island time (R384, R386). -/
def xoCycle (i : Isl) : Isl :=
  let base := (10000000000 + i.trimEff).toNat
  let cut : Int := (base / 1000 : Nat)
  let adj : Int := if 0 < i.slew then min cut i.slew else if i.slew < 0 then max (-cut) i.slew else 0
  let f := i.frac + ((base : Int) + adj).toNat
  { i with time := i.time + f / 100000000000, frac := f % 100000000000, slew := i.slew - adj }

/-- A management clock cycle at the island: every 25th is a METER_XO cycle. (DESIGN CHOICE, log entry 28) -/
def islandCycle (d : Dev) : Dev :=
  if !d.fuse.meter || !d.isl.powered then d
  else if d.isl.cyc < 24 then updIsl (fun i => { i with cyc := i.cyc + 1 }) d
  else updIsl (fun i => xoCycle { i with cyc := 0 }) d

/-- ISLAND_POWER_UP (R385, R402): time continues from the last block stored, unset; parameters and seal state are as the
sealed flash holds them, and a seal that has changed meanwhile is counted. -/
def islandUp (sealOpen : Bool) (d : Dev) : Dev :=
  updIsl (fun i =>
    let i1 := audit 3 0 0 { i with
      powered := true, timeUnset := true, time := i.lastEnd, frac := 0, cyc := 0, ms := i.lastEnd / 1000
      min := i.lastEnd / 60000000, trimEff := trimSum d }
    if sealOpen = i.sealOpen then i1
    else
      let n := min 0xFFFFFFFF (i1.sealCount + 1)
      audit (if sealOpen then 1 else 2) (BitVec.ofNat 64 n) 0 { i1 with sealOpen := sealOpen, sealCount := n }) d

/-- ISLAND_POWER_UP. -/
def execIslandPowerUp (sealOpen : Bool) (s : State) : Host.Outcome State Fault Refusal :=
  island (fun d => if d.isl.powered then d else islandUp sealOpen d) s

/-- VDD_MTR_LOSS (R382, R507): only the island resets; what is not in the sealed flash is lost, and the device holds with
cause ABSENT. The last block stored is then the last in flash (R385). (DEDUCED, log entry 100) -/
def execVddMtrLoss (s : State) : Host.Outcome State Fault Refusal :=
  island (updIsl fun i => { i with
    powered := false, timeUnset := true, opened := none, blocks := i.blocks.filter (·.inFlash), lastEnd := i.flashEnd, beats := [], silent := []
    full := false, flashHeld := false, wrIgnored := {}, rd0 := {}, rd1 := {}, slew := 0, adjs := [], adjResult := 0
    fwOffset := 0, fwStatus := 0, fwStage := [], fwNew := none, fwChanged := false }) s

/-- METER_XO_LOSS (R508): TIME_UNSET; no block is open until time is set again, so the open one closes where it fits.
(DEDUCED, log entry 101) -/
def execMeterXoLoss (s : State) : Host.Outcome State Fault Refusal :=
  island (fun d =>
    if !d.isl.powered then d
    else
      let d1 := updIsl (fun i => { i with timeUnset := true }) d
      match d1.isl.opened with
      | some b => if blockFits d1 b then storeBlock b d1 else d1
      | none => d1) s

/-- MTR_TIME_SET (R385). A block that a loss of METER_XO left open goes on as the block that opens now, as what waited does.
(DEDUCED, log entry 101) -/
def timeSet (w : Wr) (i : Isl) : Isl :=
  match w with
  | .full v =>
    if i.timeUnset && decide (i.lastEnd ≤ v.toNat) then
      let i1 := { i with
        time := v.toNat, frac := 0, timeUnset := false, ms := v.toNat / 1000, min := v.toNat / 60000000 }
      let i2 := audit 4 v (BitVec.ofNat 64 i.time) i1
      let i3 := openBlock true i2
      match i.opened with
      | some b => { i3 with opened := i3.opened.map fun n => { n with recs := b.recs, gapTaps := b.gapTaps ++ n.gapTaps } }
      | none => i3
    else ignoreWr i
  | _ => ignoreWr i

/-- MTR_TIME_SET. -/
def execMtrTimeSet (m : Master) (w : Wr) (s : State) : Host.Outcome State Fault Refusal :=
  fabRow m (.mtrTimeSet m w) s (mtrWrite m (timeSet w) s)

/-- Microseconds adjusted in the last 86,400 s of island time (R386). -/
def adjUsed (i : Isl) : Nat := ((i.adjs.filter fun a => decide (i.time < a.1 + 86400000000)).map (·.2)).sum

/-- MTR_TIME_ADJ (R386, R408). -/
def timeAdj (w : Wr) (i : Isl) : Isl :=
  let b := wrBits w
  if !bit b.2 0 then ignoreWr i
  else
    let x : Int := (b.1.setWidth 32).toInt
    let refuse := fun r => ignoreWr (audit 6 (BitVec.ofInt 64 x) 0 { i with adjResult := r })
    if i.timeUnset then refuse 3
    else if 1000000 < x.natAbs then refuse 4
    else if 1000000 < adjUsed i + x.natAbs then refuse 2
    else audit 5 (BitVec.ofInt 64 x) 0 { i with
      adjResult := 1, slew := i.slew + x * 100000000000
      adjs := (i.adjs.filter fun a => decide (i.time < a.1 + 86400000000)) ++ [(i.time, x.natAbs)] }

/-- MTR_TIME_ADJ. -/
def execMtrTimeAdj (m : Master) (w : Wr) (s : State) : Host.Outcome State Fault Refusal :=
  fabRow m (.mtrTimeAdj m w) s (mtrWrite m (timeAdj w) s)

/-! ### The seal and the parameters (R402 to R404) -/

/-- SEAL_SAMPLE (R402): twenty samples agree on a new state; closing before ACTIVATE abandons a staged image (R405). -/
def execSealSample (opened : Bool) (s : State) : Host.Outcome State Fault Refusal :=
  island (fun d =>
    if !d.isl.powered || d.isl.sealOpen = opened then d
    else updIsl (fun i =>
      let n := min 0xFFFFFFFF (i.sealCount + 1)
      let i1 := { i with
        sealOpen := opened, sealCount := n
        opened := i.opened.map fun b => { b with sealOpen := b.sealOpen || opened } }
      let i2 := if !opened && i1.fwStatus == 1 then { i1 with fwStage := [], fwStatus := 0 } else i1
      audit (if opened then 1 else 2) (BitVec.ofNat 64 n) 0 i2) d) s

/-- A write that needs the seal open (R383). -/
def sealed (g : Isl → Isl) (i : Isl) : Isl := if i.sealOpen then g i else ignoreWr i

/-- TRIM_SET (R387, R404): a write of CAL_USR_MTR_TRIM. -/
def trimWrite (w : Wr) (i : Isl) : Isl :=
  let v := (mergeWr (i.trimUsr.setWidth 64) 0xFFFF w).setWidth 16
  if !bit (wrBits w).2 0 then ignoreWr i
  else audit 7 (v.signExtend 64) (i.trimUsr.signExtend 64) { i with trimUsr := v }

/-- TRIM_SET. -/
def execTrimSet (m : Master) (w : Wr) (s : State) : Host.Outcome State Fault Refusal :=
  fabRow m (.trimSet m w) s (mtrWrite m (sealed (trimWrite w)) s)

/-- A write of MTR_OPERATOR (R404). -/
def operatorWrite (w : Wr) (i : Isl) : Isl :=
  let v := mergeWr i.operator 0xFFFFFFFFFFFFFFFF w
  audit 8 v i.operator { i with operator := v }

/-- OPERATOR_SET. -/
def execOperatorSet (m : Master) (w : Wr) (s : State) : Host.Outcome State Fault Refusal :=
  fabRow m (.operatorSet m w) s (mtrWrite m (sealed (operatorWrite w)) s)

/-! ### Island firmware (R405) -/

/-- A write of MTR_FW_CTL with the seal open: OFFSET, and BEGIN or ACTIVATE. -/
def fwCtlWrite (w : Wr) (i : Isl) : Isl :=
  let off := fld (mergeWr (BitVec.ofNat 64 i.fwOffset) 0xFFFFFFF8 w) 0 32
  let cmd := if bit (wrBits w).2 60 then fld (wrBits w).1 60 4 else 0
  let i1 := { i with fwOffset := off }
  if cmd = 1 then { i1 with fwStage := [], fwStatus := 1, fwNew := none }
  else if cmd = 2 then { i1 with fwStatus := 2, fwNew := none }
  else i1

/-- A write of MTR_FW_CTL with one CMD. -/
def fwCtlRow (cmd : Nat) (m : Master) (w : Wr) (s : State) : Host.Outcome State Fault Refusal :=
  if bit (wrBits w).2 60 && fld (wrBits w).1 60 4 == cmd then mtrWrite m (sealed (fwCtlWrite w)) s else .next s

/-- MTR_FW_BEGIN. -/
def execMtrFwBegin (m : Master) (w : Wr) (s : State) : Host.Outcome State Fault Refusal :=
  fabRow m (.mtrFwBegin m w) s (fwCtlRow 1 m w s)
/-- MTR_FW_ACTIVATE. -/
def execMtrFwActivate (m : Master) (w : Wr) (s : State) : Host.Outcome State Fault Refusal :=
  fabRow m (.mtrFwActivate m w) s (fwCtlRow 2 m w s)

/-- A write of MTR_FW_DATA: one word at OFFSET, which advances by 8. -/
def fwDataWrite (w : Wr) (i : Isl) : Isl :=
  if i.fwStatus ≠ 1 then ignoreWr i
  else { i with
    fwStage := tput i.fwStage i.fwOffset (mergeWr ((tget i.fwStage i.fwOffset).getD 0) 0xFFFFFFFFFFFFFFFF w)
    fwOffset := (i.fwOffset + 8) % 2 ^ 32 }

/-- MTR_FW_DATA. -/
def execMtrFwData (m : Master) (w : Wr) (s : State) : Host.Outcome State Fault Refusal :=
  fabRow m (.mtrFwData m w) s (mtrWrite m (sealed (fwDataWrite w)) s)

/-- MTR_FW_VERIFY_DONE (R405): accepted with a signature that verifies under the meter firmware key and a version not below the
fuse count, else rejected. The signature and the version are what the staged image carries; their places in it are no part of
the specification. (DESIGN CHOICE, log entry 104) -/
def execMtrFwVerifyDone (sig : List Byte) (version : Word32) (s : State) : Host.Outcome State Fault Refusal :=
  island (fun d =>
    if !d.isl.powered || d.isl.fwStatus ≠ 2 then d
    else if Config.rsaVerify d.isl.fwKey (stageBytes d.isl) sig && decide (d.fuse.mtrSvn ≤ version.toNat) then
      updIsl (fun i => { i with fwStatus := 3, fwNew := some version.toNat }) d
    else updIsl (fun i => audit 10 (version.setWidth 64) 0 { i with fwStatus := 4 }) d) s

/-! ### Readers and release (R395, R396) -/

/-- A reader. -/
def getReader (i : Isl) (k : Fin 2) : Reader := if k = 0 then i.rd0 else i.rd1

/-- Set a reader. -/
def setReader (k : Fin 2) (r : Reader) (i : Isl) : Isl := if k = 0 then { i with rd0 := r } else { i with rd1 := r }

/-- The signed block a selection names. -/
def selBlock (i : Isl) (r : Reader) : Option MBlock :=
  if fld r.sel 56 2 = 0 then i.blocks.find? fun b => b.signed && b.seq == fld r.sel 0 48 else none

/-- The bytes of the selected object; none where it is not stored (R395). (DEDUCED, log entry 103) -/
def selBytes (d : Dev) (r : Reader) : Option (List Byte) :=
  match fld r.sel 56 2 with
  | 0 => (selBlock d.isl r).map (blockBytes d.fuse.unitId)
  | 1 =>
    let n := fld r.sel 0 48 * 32
    let es := d.isl.audit.filter fun e => decide (n ≤ e.seq ∧ e.seq < n + 32)
    if es.isEmpty then none else some ((if n = 0 then leBytes 128 0 else []) ++ es.flatMap auditBytes)
  | 2 => some d.isl.cert
  | _ => none

/-- A write of a reader's select (R395, R408). -/
def rdSelWrite (k : Fin 2) (w : Wr) (i : Isl) : Isl :=
  setReader k { sel := mergeWr (getReader i k).sel 0x033FFFFFFFFFFFFF w, ready := false, asked := true } i

/-- MTR_RD_SEL. -/
def execMtrRdSel (k : Fin 2) (m : Master) (w : Wr) (s : State) : Host.Outcome State Fault Refusal :=
  fabRow m (.mtrRdSel k m w) s (mtrWrite m (rdSelWrite k w) s)

/-- Bit mask of the 4-byte parts of a block that have to be read (R395). -/
def needMask (unit : Word64) (b : MBlock) : Nat := 2 ^ ((blockBytes unit b).length / 4) - 1

/-- Every page of a block has been read. -/
def allRead (unit : Word64) (b : MBlock) : Bool := Nat.land b.readMask (needMask unit b) == needMask unit b

/-- READY rises at the tick after a write of SEL (R395). -/
def readersReady (d : Dev) : Dev :=
  let up := fun (r : Reader) => { r with ready := r.ready || r.asked, asked := false }
  updIsl (fun i => { i with rd0 := up i.rd0, rd1 := up i.rd1 }) d

/-- A word of a reader's window, from the start of its page. -/
def windowWord (d : Dev) (k : Fin 2) (n : Nat) : Word64 :=
  let r := getReader d.isl k
  match selBytes d r with
  | some bs => BitVec.ofNat 64 (leNat ((bs.drop (fld r.sel 48 6 * 4096 + n * 8)).take 8))
  | none => 0

/-- Note that parts of a block have been read. -/
def markRead (k : Fin 2) (n mask : Nat) (i : Isl) : Isl :=
  match selBlock i (getReader i k) with
  | none => i
  | some b =>
    let at4 := (fld (getReader i k).sel 48 6 * 512 + n) * 2
    { i with blocks := i.blocks.map fun x => if x.seq = b.seq then { x with readMask := Nat.lor x.readMask (mask * 2 ^ at4) } else x }

/-- MTR_WINDOW_READ (R395): word n of reader k's page; `parts` says which halves the access returns. What a reader shows
before READY is not stated: a free value. -/
def execMtrWindowRead (k : Fin 2) (m : Master) (n : Fin 512) (lo hi : Bool) (s : State) : Host.Outcome State Fault Refusal :=
  fabRow m (.mtrWindowRead k m n lo hi) s (lift0 (fun d =>
      if !mayWrite d m then d
      else if !d.fuse.meter then emit (.readData 0) d
      else if !d.isl.powered || !(getReader d.isl k).ready then
        let v := takeFree d
        emit (.readData v.1) v.2
      else
        let v := windowWord d k n.val
        let data := (if lo then v &&& 0xFFFFFFFF else 0) ||| (if hi then v &&& 0xFFFFFFFF00000000 else 0)
        emit (.readData data) (updIsl (markRead k n.val (b2n lo + b2n hi * 2)) d)) s)

/-- MTR_ACK (R396). -/
def ackWrite (unit : Word64) (w : Wr) (i : Isl) : Isl :=
  match w with
  | .full v =>
    let n := fld v 0 48
    let last := ((i.blocks.filter (·.signed)).map (·.seq)).foldl max 0
    if last < n || n ≤ i.acked
      || i.blocks.any (fun b => decide (i.acked < b.seq ∧ b.seq ≤ n) && !allRead unit b) then ignoreWr i
    else { i with acked := n }
  | _ => ignoreWr i

/-- MTR_ACK. -/
def execMtrAck (m : Master) (w : Wr) (s : State) : Host.Outcome State Fault Refusal :=
  fabRow m (.mtrAck m w) s (island (fun d => if mayWrite d m && d.isl.powered then updIsl (ackWrite d.fuse.unitId w) d else d) s)

/-- A write that reaches the export block by its offset (R383, R408). -/
def meterWrite (off : Nat) (w : Wr) (d : Dev) : Dev :=
  if !d.fuse.meter || !d.isl.powered then d
  else meterNotify (updIsl (
    if off = 0x28 then timeSet w
    else if off = 0x30 then timeAdj w
    else if off = 0x50 then ackWrite d.fuse.unitId w
    else if off = 0x60 then rdSelWrite 0 w
    else if off = 0x70 then rdSelWrite 1 w
    else if off = 0x88 then sealed (trimWrite w)
    else if off = 0x98 then sealed (operatorWrite w)
    else if off = 0xA8 then sealed (fwCtlWrite w)
    else if off = 0xB0 then sealed (fwDataWrite w)
    else ignoreWr) d)

end Sys2Proof.Machine
end

