-- ==== Sys2Proof/Machine/Pmu.lean ====
section
/-!
DEFINITION. The performance monitor (R460 to R472, R480): counters and their selections, bandwidth windows, dumps to the
owner function's memory, and the rings' owners.
-/
namespace Sys2Proof.Machine

open Sys2Proof

/-! ### Counters (R460 to R463) -/

/-- PMU_SEL_k in force. -/
def selWord (d : Dev) (k : Nat) : Word64 := (tget d.pmu.sel k).getD 0

/-- An occurrence counts at a counter (R460). -/
def countsAt (d : Dev) (sel : Word64) (o : Occ) : Bool :=
  bit sel 63 && fld sel 0 8 == o.ev && (!bit sel 15 || passes d (fld sel 16 4) o)

/-- Add to a counter; a wrap sets its overflow bit and may fire Inkwell's trigger (R460, R476). -/
def bump (k n : Nat) (d : Dev) : Dev :=
  let v := (tget d.pmu.cnt k).getD 0 + n
  let d1 : Dev := { d with pmu := { d.pmu with cnt := tput d.pmu.cnt k (v % 2 ^ 48) } }
  if v < 2 ^ 48 then d1
  else
    let d2 : Dev := { d1 with pmu := { d1.pmu with ovf := Nat.lor d1.pmu.ovf (2 ^ k) } }
    let t := regInForce d 0x50008 0
    if fld t 62 2 = 2 ∧ fld t 48 10 = k then inkTrigger d2 else d2

/-- Count the tick's occurrences at one counter. -/
def countOne (occs : List Occ) (k : Nat) (sel : Word64) (d : Dev) : Dev :=
  let n := ((occs.filter (countsAt d sel)).map (·.n)).sum
  if n = 0 then d else bump k n d

/-- Occurrences that are counted by the tick (R462): full completion queues, and classes with a packet waiting. -/
def tickOccs (d : Dev) : List Occ :=
  ((fnKeys d).map fnOfKey).flatMap fun f =>
    let x := getFn d f
    (if x.cqs.any fun q => cqFull q.2 then [{ ev := 0x11, fn := some f }] else [])
    ++ (x.admPt.filterMap fun a => match a.2 with
        | [] => none
        | it :: _ => some { ev := 0x12, fn := some f, tc := some it.pkt.rh.tc.toNat })

/-- Filter registers of the register file (R463, R480). -/
def filtRegs (d : Dev) : Tbl Word64 := d.regs.filter fun r => decide (0x40100 ≤ r.1 ∧ r.1 < 0x40300)

/-- Every counter of the performance monitor at 0 (R461). -/
def clearCounters (d : Dev) : Dev :=
  { d with
    pmu := { d.pmu with cnt := [], td := [] }
    ports := d.ports.map fun p => (p.1, { p.2 with
      txb := 0, txp := 0, rxb := 0, rxp := 0, bwTxNow := 0, bwRxNow := 0, bwTx := 0, bwRx := 0 }) }

/-- The tick at the counters (R460, R461, R463): occurrences count under the old selections, then what was written takes
effect; while they stand still no counter changes, and a clear is lost. (DEDUCED, log entry 118) -/
def pmuTick (d : Dev) : Dev :=
  let occs := d.pmu.occs ++ tickOccs d
  let run := counted d 1 != 0
  let d1 := if run then d.pmu.sel.foldl (fun d s => countOne occs s.1 s.2 d) d else d
  let d2 := if run && d1.pmu.clear then clearCounters d1 else d1
  { d2 with pmu := { d2.pmu with
    occs := [], clear := false, selNew := []
    sel := d2.pmu.selNew.foldl (fun t k => tput t k (regInForce d2 (0x42000 + 8 * k) 0)) d2.pmu.sel
    cnt := if run then d2.pmu.selNew.foldl (fun t k => tdel t k) d2.pmu.cnt else d2.pmu.cnt
    filt := filtRegs d2 } }

/-- A write of PMU_SEL_k (R461, R480). -/
def selWrite (k : Nat) (w : Wr) (d : Dev) : Dev :=
  let off := 0x42000 + 8 * k
  let d1 := putReg off 0 (mergeWr (regInForce d off 0) 0x80000000000F80FF w) d
  { d1 with pmu := { d1.pmu with selNew := d1.pmu.selNew ++ [k] } }

/-- PMU_SEL_WRITE (R461). -/
def execPmuSelWrite (m : Master) (k : Fin 1024) (w : Wr) (s : State) : Host.Outcome State Fault Refusal :=
  fabRow m (.pmuSelWrite m k w) s (lift0 (fun d => if mayWrite d m then selWrite k.val w d else d) s)

/-- A write of PMU_CTL (R461, R480). -/
def pmuCtlWrite (w : Wr) (d : Dev) : Dev :=
  let d1 := putReg 0x40000 0 (mergeWr (regInForce d 0x40000 0) 0x2 w) d
  if bit (wrBits w).1 0 && bit (wrBits w).2 0 then { d1 with pmu := { d1.pmu with clear := true } } else d1

/-- PMU_CLEAR (R461): a write of PMU_CTL with CLEAR = 1. -/
def execPmuClear (m : Master) (w : Wr) (s : State) : Host.Outcome State Fault Refusal :=
  fabRow m (.pmuClear m w) s (
    lift0 (fun d => if mayWrite d m && bit (wrBits w).1 0 && bit (wrBits w).2 0 then pmuCtlWrite w d else d) s)

/-! ### Bandwidth windows (R465) -/

/-- A write of PMU_BW_CTL: a change of WINDOW discards the window in progress. -/
def bwCtlWrite (w : Wr) (d : Dev) : Dev :=
  let old := regInForce d 0x40008 0x3E8
  let v := mergeWr old 0xFFFFF w
  let d1 := putReg 0x40008 0x3E8 v d
  if v = old then d1 else { d1 with pmu := { d1.pmu with bwSkip := true } }

/-- BW_WINDOW_END (R465): the port byte counts are latched; where the window was discarded, the next one begins. -/
def execBwWindowEnd (s : State) : Host.Outcome State Fault Refusal :=
  lift0 (fun d =>
    let latch := !d.pmu.bwSkip && counted d 1 != 0
    { d with
      pmu := { d.pmu with bwSkip := false }
      ports := d.ports.map fun p => (p.1, { p.2 with
        bwTx := if latch then p.2.bwTxNow else p.2.bwTx, bwRx := if latch then p.2.bwRxNow else p.2.bwRx
        bwTxNow := 0, bwRxNow := 0 }) }) s

/-! ### Dumps and their ring (R467 to R470) -/

/-- A ring's control register with EN clear. -/
def clearEn (off reset : Nat) (d : Dev) : Dev :=
  { d with regs := tput d.regs off (regInForce d off reset &&& ~~~(ins 63 1)) }

/-- PMU_DUMP_CTL (R480). -/
def dumpCtl (d : Dev) : Word64 := regInForce d 0x40010 0x7800040000000064

/-- Reset value of PMU_DUMP_CTL. -/
def dumpReset : Nat := 0x7800040000000064
/-- Reset value of PMU_TAG_CTL. -/
def tagReset : Nat := 0x0010080000000001

/-- A ring as EN finds it: the owner function, the ring's address and size, counts from 0 (R468). -/
def startRing (d : Dev) (base : Word64) (log2 : Nat) (running : Bool) : Ring :=
  { running := running, base := base.toNat, log2 := log2, fn := pfOf (ownerPort d) }

/-- A write of PMU_DUMP_CTL (R467 to R469): EN set takes effect at the next tick, and has no effect on a headless device. -/
def dumpCtlWrite (w : Wr) (d : Dev) : Dev :=
  let old := dumpCtl d
  let v := mergeWr old 0xFFFF9F00000FFFFF w
  let d1 := putReg 0x40010 dumpReset v d
  if bit v 63 && !bit old 63 then
    if hasOwner d then
      { d1 with pmu := { d1.pmu with
        dump := startRing d (regInForce d 0x40018 0) (max 1 (min 12 (fld v 40 5))) false, dumpSeq := 0, dumpDue := true } }
    else
      let d2 := clearEn 0x40010 dumpReset d1
      { d2 with pmu := { d2.pmu with dump := { d2.pmu.dump with stop := 3 } } }
  else if bit old 63 && !bit v 63 then
    { d1 with pmu := { d1.pmu with dump := { d1.pmu.dump with running := false }, dumpDue := false } }
  else d1

/-- DUMP_ENABLE (R469). -/
def execDumpEnable (m : Master) (w : Wr) (s : State) : Host.Outcome State Fault Refusal :=
  fabRow m (.dumpEnable m w) s (lift0 (fun d => if mayWrite d m && bit (wrBits w).2 63 then dumpCtlWrite w d else d) s)

/-- A write of PMU_TAG_CTL (R471, R472). -/
def tagCtlWrite (w : Wr) (d : Dev) : Dev :=
  let old := tagCtl d
  let v := mergeWr old 0xFC1F1F00FFFFFFFF w
  let d1 := putReg 0x40030 tagReset v d
  if bit v 63 && !bit old 63 then
    if hasOwner d then
      let seed : Word32 := if fld v 0 32 = 0 then 1 else BitVec.ofNat 32 (fld v 0 32)
      { d1 with pmu := { d1.pmu with
        tag := startRing d (regInForce d 0x40038 0) (max 4 (min 20 (fld v 40 5))) true, lfsr := seed, samples := [] } }
    else
      let d2 := clearEn 0x40030 tagReset d1
      { d2 with pmu := { d2.pmu with tag := { d2.pmu.tag with stop := 3 } } }
  else if bit old 63 && !bit v 63 then
    { d1 with pmu := { d1.pmu with tag := { d1.pmu.tag with running := false }, samples := [] } }
  else d1

/-- EN of the dump takes effect, unless it has been cleared meanwhile (R467). -/
def dumpTick (d : Dev) : Dev :=
  if d.pmu.dumpDue then
    { d with pmu := { d.pmu with dump := { d.pmu.dump with running := bit (dumpCtl d) 63 }, dumpDue := false } }
  else d

/-- EN of a sample ring that has stopped for a failed write is cleared (R469, R472). -/
def tagTick (d : Dev) : Dev :=
  let r := d.pmu.tag
  if r.stop = 2 && !r.running then { d with regs := (ringStop 0x40030 2 r d).2 } else d

/-- The bytes of a group of a dump block, with their offset (R470). -/
def dumpGroup (d : Dev) (g : Nat) : Nat × List Byte :=
  match g with
  | 0 => (0x40, (List.range 1024).flatMap fun k =>
      leBytes 8 ((tget d.pmu.cnt k).getD 0 % 2 ^ 48 + b2n (d.pmu.ovf.testBit k) * 2 ^ 48))
  | 1 => (0x2040, allPorts.flatMap fun p =>
      let x := getPort d p
      leBytes 8 (x.txb % 2 ^ 48) ++ leBytes 8 (x.txp % 2 ^ 48) ++ leBytes 8 (x.rxb % 2 ^ 48) ++ leBytes 8 (x.rxp % 2 ^ 48))
  | 2 => (0x2840, (List.range 136).flatMap fun k => leBytes 8 ((tget d.pmu.td k).getD 0 % 2 ^ 48))
  | _ => (0x2C80, allPorts.flatMap fun p => leBytes 8 ((getPort d p).bwTx % 2 ^ 48) ++ leBytes 8 ((getPort d p).bwRx % 2 ^ 48))

/-- Write a dump block: the groups, then the header with its phase last (R468, R470); `old` is the device at the end of the
sampled tick. A write that the device's DMA does not make stops the dump (R469). (DEDUCED, log entry 165) -/
def writeDump (old : Dev) (d : Dev) : Dev :=
  if dmaStopped d d.pmu.dump.fn then
    let a := ringStop 0x40010 2 d.pmu.dump d
    { d with regs := a.2, pmu := { d.pmu with dump := a.1 } }
  else
  let c := dumpCtl d
  let r := d.pmu.dump
  let at0 := r.base + 16384 * ringSlot r.log2 r.written
  let groups := fld c 59 4
  let d1 := [0, 1, 2, 3].foldl (fun d g =>
    if groups.testBit g then hostWrite r.fn false (at0 + (dumpGroup old g).1) (dumpGroup old g).2 false d else d) d
  let head := leBytes 8 d.pmu.dumpSeq ++ leBytes 8 old.clk.tsc.toNat
    ++ leBytes 8 (old.pace.now % 2 ^ 16 + groups * 2 ^ 16 + r.missed % 2 ^ 32 * 2 ^ 32) ++ leBytes 32 0
    ++ leBytes 8 (b2n (ringPhase r.log2 r.written) * 2 ^ 63)
  let d3 := hostWrite r.fn false at0 head false d1
  let d4 : Dev := { d3 with pmu := { d3.pmu with dump := { r with written := r.written + 1 } } }
  if bit c 47 then fire r.fn (fld c 48 11) d4 else d4

/-- A period boundary of the dump passes (R467, R468, R490): the block is written, or skipped and counted.
(DEDUCED, log entry 121) -/
def dumpBoundary (old : Dev) (d : Dev) : Dev :=
  if !d.pmu.dump.running then d
  else
    let d1 : Dev := { d with pmu := { d.pmu with dumpSeq := d.pmu.dumpSeq + 1 } }
    let r := d.pmu.dump
    if fencedBlk d 7 || decide (2 ^ r.log2 ≤ (r.written - (regInForce d 0x40020 0).setWidth 32).toNat) then
      { d1 with pmu := { d1.pmu with dump := { r with missed := r.missed + 1 } } }
    else writeDump old d1

/-- DUMP_BOUNDARY (R467): the values are those at the end of the last management tick. -/
def execDumpBoundary (s : State) : Host.Outcome State Fault Refusal := lift0 (dumpBoundary s.mir) s

end Sys2Proof.Machine
end

