-- ==== Sys2Proof/Machine/Ink.lean ====
section
/-!
DEFINITION. Inkwell (R473 to R481): its commands, checkpoints and segments, and what ends a recording, a transfer and a
replay.
-/
namespace Sys2Proof.Machine

open Sys2Proof

/-! ### The device pool (R486) -/

/-- HBM_PART_CTL in force. -/
def hbmPart (d : Dev) : Word64 := regInForce d 0x340 0x400002

/-- Bytes of a GiB. -/
def gib : Nat := 1073741824

/-- Device pool of an HBM_PART_CTL value, in bytes. -/
def poolOf (w : Word64) : Nat := (118 - fld w 0 8 - fld w 16 8) * gib

/-- Bytes the HBM translation cache takes under an XL_L2_CTL value (R98). -/
def l2Bytes (w : Word64) : Nat := if bit w 63 then 2 ^ fld w 0 5 * 16 else 0

/-- Bytes of the device pool that are allocated but for Inkwell's region (R486). -/
def poolBase (d : Dev) : Nat :=
  l2Bytes (xlL2Ctl d) + fld (regInForce d 0x310 0x10) 0 6 * gib + fld (regInForce d 0x330 1) 0 5 * gib

/-- The pool can supply a region of n GiB in place of the one held. -/
def poolHas (d : Dev) (n : Nat) : Bool := decide (1 ≤ n ∧ n ≤ 64) && decide (poolBase d + n * gib ≤ poolOf (hbmPart d))

/-! ### Units and recordings -/

/-- A unit code names a unit that has not failed (R192, R231, R481). -/
def unitOk (d : Dev) (u : Nat) : Bool :=
  if u < 34 then !d.eng.failed.testBit u
  else if 0x40 ≤ u ∧ u < 0x48 then !d.tre.failed.testBit (u - 0x40)
  else false

/-- A unit is an engine. -/
def isEngine (u : Nat) : Bool := decide (u < 34)

/-- COMP_KIND of a component of an image (R441). -/
def compKind (img : List Byte) (i : Nat) : Nat := imgField img (0x48 + 16 * i) 1

/-- The first 8 bytes of the measurement of the code a unit runs (R475). -/
def unitMeas (d : Dev) (u : Nat) : List Byte :=
  let kind := if isEngine u then 2 else 3
  match (List.range 8).find? fun i => compKind d.boot.image i == kind with
  | some i => (((tget d.boot.meas (3 + i)).getD []) ++ leBytes 8 0).take 8
  | none => leBytes 8 0

/-- DEV_ID (R485). -/
def devId (d : Dev) : Nat := 0x02000000 + b2n d.fuse.meter * 2 ^ 16 + 0x6404

/-- What a segment header must hold of this device (R475, R479): DEV_ID, DEV_STEP and the code measurement. -/
def segStamp (d : Dev) (u : Nat) : List Byte := leBytes 4 (devId d) ++ leBytes 4 devStep ++ unitMeas d u

/-- A segment header (R475). -/
def segHead (d : Dev) : List Byte :=
  leBytes 4 0x4B574E49 ++ leBytes 4 d.ink.unit ++ leBytes 8 d.ink.segNo ++ leBytes 8 d.ink.ops ++ leBytes 8 d.clk.tsc.toNat
  ++ segStamp d d.ink.unit ++ leBytes 16 0

/-- Pages of a segment (R473). -/
def segPages (d : Dev) : Nat := d.ink.gib * 32768

/-- INK_CTL (R481). -/
def inkCtl (d : Dev) : Word64 := regInForce d 0x50000 0x0400010000000000

/-- INK_XFER_CTL (R481). -/
def xferCtl (d : Dev) : Word64 := regInForce d 0x50020 0

/-! ### Commands (R475 to R481) -/

/-- A refused command sets CMD_ERR and changes nothing. -/
def inkErr (c : Nat) (d : Dev) : Dev := { d with ink := { d.ink with err := c } }

/-- START (R473, R475). (DEDUCED, log entry 119) -/
def inkStart (d : Dev) : Dev :=
  let c := inkCtl d
  if d.ink.st ≠ 0 ∧ d.ink.st ≠ 3 then inkErr 1 d
  else if !recordsIn d.mode then inkErr 2 d
  else if !poolHas d (fld c 40 7) then inkErr 3 d
  else if !unitOk d (fld c 48 8) then inkErr 4 d
  else { d with ink := { st := 1, gib := fld c 40 7, unit := fld c 48 8, wrap := bit c 59, pressure := bit c 58 } }

/-- STOP (R476). -/
def inkHalt (d : Dev) : Dev :=
  if d.ink.st = 1 || d.ink.st = 2 || (d.ink.st = 3 && d.ink.stop != 0 && d.ink.stopAt == d.clk.ticks) then inkErr 0 (inkStop 1 d)
  else inkErr 1 d

/-- DISCARD (R478). -/
def inkDiscard (d : Dev) : Dev := if d.ink.st = 3 then { d with ink := {} } else inkErr 1 d

/-- The recorded bytes of a range of the recording, each segment's by its distance from the range's start (R473, R478). -/
def recordedIn (d : Dev) (at0 len : Nat) : List (Nat × List Byte) :=
  d.ink.segs.filterMap fun s =>
    let base := s.1 * segPages d * 4096
    let bytes := (segBytes s.2).drop (at0 - base)
    let off := base - at0
    if bytes.isEmpty || decide (len ≤ off) then none else some (off, bytes.take (len - off))

/-- TRANSFER (R478): refused while a recording runs and in Quarantine; an import only in Configure or Replay mode. -/
def inkTransfer (d : Dev) : Dev :=
  let c := xferCtl d
  let imp := bit c 63
  let size := fld (inkCtl d) 40 7
  if d.ink.st = 1 || d.ink.st = 2 || d.ink.st = 4 || d.ink.st = 5 || (!imp && d.ink.st != 3) || !hasOwner d then inkErr 1 d
  else if d.mode = .quarantine || (imp && d.mode != .configure && d.mode != .replay) then inkErr 2 d
  else if imp && !poolHas d size then inkErr 3 d
  else
    let i : Ink := if imp then { gib := size } else d.ink
    let at0 := fld c 0 24
    let len := fld c 32 24 * 4096
    emit (.inkCopy (ownerPort d) imp at0 (regInForce d 0x50018 0).toNat len (if imp then [] else recordedIn d (at0 * 4096) len))
      { d with ink := { i with st := 4, err := 0, imp := imp } }

/-- The oldest segment that is kept and not damaged (R479). -/
def oldestGood (d : Dev) : Option Nat :=
  ((List.range 8).map fun k => (d.ink.oldest + k) % 8).find? fun k =>
    match tget d.ink.segs k with | some s => s.used && !s.damaged | none => false

/-- Every kept segment's header matches this device (R479). -/
def headsMatch (d : Dev) (u : Nat) : Bool :=
  d.ink.segs.all fun s => !s.2.used || (s.2.head.drop 0x20).take 16 == segStamp d u

/-- REPLAY (R479). -/
def inkReplay (d : Dev) : Dev :=
  let u := fld (regInForce d 0x50028 0) 48 8
  if d.ink.st ≠ 3 || (oldestGood d).isNone then inkErr 1 d
  else if d.mode ≠ .replay then inkErr 2 d
  else if !unitOk d u || isEngine u != isEngine d.ink.unit then inkErr 4 d
  else if !headsMatch d u then inkErr 5 d
  else { d with ink := { d.ink with
    st := 5, err := 0, result := 1, cmpOps := 0, divIndex := 0, divField := 0, divReplay := 0, divPos := 0 } }

/-- A CMD of INK_CTL; while block 8 is fenced it is refused (R490). -/
def inkCmd (c : Nat) (d : Dev) : Dev :=
  if c = 0 ∨ 5 < c then d
  else if fencedBlk d 8 then inkErr 1 d
  else match c with
    | 1 => inkStart d
    | 2 => inkHalt d
    | 3 => inkDiscard d
    | 4 => inkTransfer d
    | _ => inkReplay d

/-- A write of INK_CTL (R481). -/
def inkCtlWrite (w : Wr) (d : Dev) : Dev :=
  let d1 := putReg 0x50000 0x0400010000000000 (mergeWr (inkCtl d) 0x0CFF7F0000000000 w) d
  if bit (wrBits w).2 60 then inkCmd (fld (wrBits w).1 60 4) d1 else d1

/-- A write of INK_CTL with one CMD. -/
def inkRow (c : Nat) (m : Master) (w : Wr) (s : State) : Host.Outcome State Fault Refusal :=
  lift0 (fun d => if mayWrite d m && bit (wrBits w).2 60 && fld (wrBits w).1 60 4 == c then inkCtlWrite w d else d) s

/-- INK_START (R475). -/
def execInkStart (m : Master) (w : Wr) (s : State) : Host.Outcome State Fault Refusal :=
  fabRow m (.inkStart m w) s (inkRow 1 m w s)
/-- INK_STOP (R476). -/
def execInkStop (m : Master) (w : Wr) (s : State) : Host.Outcome State Fault Refusal :=
  fabRow m (.inkStop m w) s (inkRow 2 m w s)
/-- INK_DISCARD (R478). -/
def execInkDiscard (m : Master) (w : Wr) (s : State) : Host.Outcome State Fault Refusal :=
  fabRow m (.inkDiscard m w) s (inkRow 3 m w s)
/-- INK_TRANSFER (R478). -/
def execInkTransfer (m : Master) (w : Wr) (s : State) : Host.Outcome State Fault Refusal :=
  fabRow m (.inkTransfer m w) s (inkRow 4 m w s)
/-- INK_REPLAY (R479). -/
def execInkReplay (m : Master) (w : Wr) (s : State) : Host.Outcome State Fault Refusal :=
  fabRow m (.inkReplay m w) s (inkRow 5 m w s)

/-! ### What happens to a recording -/

/-- The checkpoint of a segment is set (R475): the operations in progress have retired, an engine's on-die cache is written back,
the segment header is written, and recording starts or goes on; a later segment is the next one, which is overwritten where it is
the oldest (R476). -/
def inkCheckpoint (d : Dev) : Dev :=
  let d0 := inkRetire (fun _ => true) d
  let d1 : Dev := if isEngine d0.ink.unit then
      { d0 with xpt := { d0.xpt with onDie := d0.xpt.onDie.filter fun n => servedSlot d0 d0.ink.unit != some (connSlot n) } }
    else d0
  let i := d1.ink
  let d2 : Dev := if i.st = 1 then d1
    else
      let n := (i.current + 1) % 8
      { d1 with ink := { i with
        current := n, segNo := i.segNo + 1, oldest := if thas i.segs n then (n + 1) % 8 else i.oldest } }
  { d2 with ink := { d2.ink with
    st := 2, ckpt := false, segs := tput d2.ink.segs d2.ink.current { head := segHead d2, used := true } } }

/-- INK_CHECKPOINT_DONE. -/
def execInkCheckpointDone (s : State) : Host.Outcome State Fault Refusal :=
  lift0 (fun d => if d.ink.st = 1 || (d.ink.st = 2 && d.ink.ckpt) then inkCheckpoint d else d) s

/-- Recording lags behind its unit (R477): with PRESSURE = 1 the unit's inputs wait and nothing is lost; with PRESSURE = 0 the
segment in progress is damaged and the recording stops with cause OVERRUN. -/
def inkLag (d : Dev) : Dev :=
  if d.ink.pressure then d
  else inkStop 6 { d with ink := { d.ink with segs := tmod d.ink.segs d.ink.current fun g => { g with damaged := true } } }

/-- The segment in progress is the last one of a recording without WRAP. -/
def lastSegment (d : Dev) : Bool := !d.ink.wrap && d.ink.current == 7

/-- The segment in progress is full, and its pages are written (R476, R481); a part of a record of tokens is filled up (R473). -/
def segFull (d : Dev) : Dev :=
  let d1 := if d.ink.toks.isEmpty then d
    else addRec 3 (d.ink.toks ++ List.replicate (8 - d.ink.toks.length) 0xFF) { d with ink := { d.ink with toks := [] } }
  { d1 with ink := { d1.ink with
    pages := satAdd 0xFFFFFF d1.ink.pages (segPages d1)
    segs := tmod d1.ink.segs d1.ink.current fun g => { g with full := true } } }

/-- INK_SEGMENT_FULL (R476): the next segment begins with a checkpoint, or the recording stops with cause FULL, which outranks a
trigger's end in the same tick. With `lag` the segment is not full: the recording lags (R477), an event no row of the table has to
itself. (DESIGN CHOICE, log entry 120) -/
def execInkSegmentFull (x : SegEnd) (s : State) : Host.Outcome State Fault Refusal :=
  lift0 (fun d =>
    if d.ink.st = 3 && d.ink.stop = 2 && d.ink.stopAt = d.clk.ticks && lastSegment d && !x.lag then inkStop 3 (segFull d)
    else if d.ink.st ≠ 2 || d.ink.ckpt then d
    else if x.lag then inkLag d
    else if lastSegment d then inkStop 3 (segFull d)
    else
      let d1 := segFull d
      { d1 with ink := { d1.ink with ckpt := true } }) s

/-- INK_POST_TRIGGER_END (R476). -/
def execInkPostTriggerEnd (s : State) : Host.Outcome State Fault Refusal :=
  lift0 (fun d => if d.ink.st = 2 && d.ink.trig then inkStop 2 d else d) s

/-- The records that bytes spell, up to a header without payload or the end (R473). -/
def parseRecs : Nat → List Byte → List InkRec
  | 0, _ => []
  | fuel + 1, bs =>
    let h := word bs 0
    let n := fld h 16 16
    if bs.length < 8 || n = 0 then []
    else { kind := fld h 0 3, time := BitVec.ofNat 32 (fld h 32 32), data := (bs.drop 8).take n }
      :: parseRecs fuel (bs.drop (8 + (n + 7) / 8 * 8))

/-- The segments an import brought, by their bytes (R475, R478). -/
def importSegs (segs : List (List Byte)) : Tbl Seg :=
  ((List.range 8).zip segs).foldl (fun t x =>
    if x.2.isEmpty then t
    else tput t x.1 { head := x.2.take 64, recs := parseRecs x.2.length (x.2.drop 64), used := true }) []

/-- The segment number a header gives (R475). -/
def Seg.no (s : Seg) : Nat := imgField s.head 8 8

/-- Of two segments the one a test prefers. -/
def pickSeg (better : Nat → Nat → Bool) (t : Tbl Seg) : Nat :=
  match t with
  | [] => 0
  | s :: rest => (rest.foldl (fun (a : Nat × Seg) b => if better b.2.no a.2.no then b else a) s).1

/-- INK_TRANSFER_DONE (R478): with the bytes that an import brought for each segment. OLDEST and CURRENT are those of the lowest and
the highest segment number. (DEDUCED, log entry 119) -/
def execInkTransferDone (segs : List (List Byte)) (s : State) : Host.Outcome State Fault Refusal :=
  lift0 (fun d =>
    if d.ink.st ≠ 4 then d
    else if d.ink.imp then
      let t := importSegs segs
      let unit := match t.head? with | some s => imgField s.2.head 4 4 | none => d.ink.unit
      { d with ink := { d.ink with
        st := 3, imp := false, segs := t, unit := unit
        oldest := pickSeg (fun a b => decide (a < b)) t, current := pickSeg (fun a b => decide (b < a)) t } }
    else { d with ink := { d.ink with st := 3 } }) s

/-! ### Replay (R479) -/

/-- The records of a segment with their byte offsets in the recording. -/
def recsAt : Nat → List InkRec → List (Nat × InkRec)
  | _, [] => []
  | at0, r :: rs => (at0, r) :: recsAt (at0 + (recBytes r).length) rs

/-- From a segment on, in the order of recording: the segments up to the next damaged one, and whether there is one. -/
def goodSegs (d : Dev) : List Nat → List Nat × Bool
  | [] => ([], false)
  | k :: ks =>
    match tget d.ink.segs k with
    | some s => if s.damaged then ([], true) else if k = d.ink.current then ([k], false) else
        let r := goodSegs d ks
        (k :: r.1, r.2)
    | none => ([], false)

/-- What a replay goes through from the oldest undamaged segment's checkpoint: the records with their offsets, and whether a damaged
segment ends them. -/
def replayRecs (d : Dev) : List (Nat × InkRec) × Bool :=
  match oldestGood d with
  | none => ([], false)
  | some k0 =>
    let r := goodSegs d ((List.range 8).map fun i => (k0 + i) % 8)
    (r.1.flatMap fun k => match tget d.ink.segs k with
      | some s => recsAt (k * segPages d * 4096 + s.head.length) s.recs
      | none => [], r.2)

/-- A divergence stops the replay (R479, R481). -/
def diverged (index : Nat) (rec_ made : Word64) (pos : Nat) (d : Dev) : Dev :=
  { d with ink := { d.ink with
    st := 3, result := 3, divIndex := index, divField := rec_, divReplay := made, divPos := pos } }

/-- Replay goes through the recording until a read address or a hash differs (R479, R481): the operations compared are counted. What
INK_DIV_INDEX and INK_DIV_REPLAY show of an address divergence is not stated: free values. -/
def replayRun (damaged : Bool) : List (Nat × InkRec) → List Word64 → Dev → Dev
  | [], _, d => { d with ink := { d.ink with st := 3, result := if damaged then 4 else 2 } }
  | (pos, r) :: rest, made, d =>
    if r.kind = 2 then
      let a := word r.data 0
      if made.head?.getD a = a then replayRun damaged rest made.tail d
      else
        let i := takeFree d
        let v := takeFree i.2
        diverged (i.1.toNat % 2 ^ 48) 0 v.1 pos v.2
    else if r.kind = 4 then
      let a := word r.data 8
      let d1 : Dev := { d with ink := { d.ink with cmpOps := d.ink.cmpOps + 1 } }
      if made.head?.getD a = a then replayRun damaged rest made.tail d1
      else diverged (word r.data 0).toNat a (made.head?.getD a) pos d1
    else replayRun damaged rest made d

/-- INK_REPLAY_DONE (R479): the unit has re-executed the recording up to the first difference, the next damaged segment or the
end. (DESIGN CHOICE, log entry 120) -/
def execInkReplayDone (r : InkEnd) (s : State) : Host.Outcome State Fault Refusal :=
  lift0 (fun d => if d.ink.st ≠ 5 then d else
    let x := replayRecs d
    replayRun x.2 x.1 r.made d) s

end Sys2Proof.Machine
end

