-- ==== Sys2Proof/Machine/Mode.lean ====
section
/-!
DEFINITION. Operating modes (R5, R371, R372, R447 to R451): requests and their checks, arbitration at the end of a tick, and
what a change of mode brings.
-/
namespace Sys2Proof.Machine

open Sys2Proof

/-- The mode a code names (R447). -/
def modeOf (n : Nat) : Mode :=
  match n with
  | 0 => .recovery | 1 => .configure | 2 => .worker | 3 => .manager
  | 4 => .transit | 5 => .drain | 6 => .replay | _ => .quarantine

/-- ROLE_SEL names a manager (R435). -/
def roleManager (d : Dev) : Bool := d.strap.role = 1

/-- All four bits of RT_HP_DRAIN.DRAINED are set (R449). -/
def allDrained (d : Dev) : Bool := d.rt.drained % 16 == 15

/-- A transition R449 lists, with its condition but for ROLE_SEL. -/
def transition (d : Dev) (m : Mode) : Bool :=
  match d.mode, m with
  | .configure, .worker | .configure, .replay | .configure, .manager | .configure, .transit => true
  | .worker, .manager | .manager, .worker => true
  | .worker, .drain | .manager, .drain | .transit, .drain => true
  | .drain, .worker | .drain, .manager => true
  | .drain, .configure | .drain, .transit | .drain, .replay => allDrained d
  | .transit, .configure | .replay, .configure => true
  | .configure, .quarantine | .worker, .quarantine | .manager, .quarantine | .transit, .quarantine
  | .drain, .quarantine | .replay, .quarantine => true
  | _, _ => false

/-- The checks of a mode request in R450's order; none where it takes part in arbitration. -/
def modeCheck (d : Dev) (owner : Bool) (m : Mode) : Option Status :=
  if m = .recovery then some .invalidParam
  else if owner && d.svc.lease && decide (m ≠ .drain) && decide (m ≠ .quarantine) then some .ownership
  else if m = .manager && !roleManager d then some .notPermitted
  else if m ≠ d.mode && !transition d m then some .modeRefused
  else none

/-- Enter a request into the arbitration of its tick (R372). -/
def enterReq (r : ModeReq) (d : Dev) : Dev := { d with modeSt := { d.modeSt with reqs := d.modeSt.reqs ++ [r] } }

/-- SET_MODE (R450): a request that is not refused completes after arbitration. -/
def execSetMode (f : FnId) (e : Desc) (s : State) : Host.Outcome State Fault Refusal :=
  if bit e.w1 8 then .next s
  else admin (.setMode f e) 0x48 .owner f e (fun _ d =>
    let m := modeOf (e.f 0x08 0 3)
    match modeCheck d true m with
    | some st => say st d
    | none => .later [] (enterReq { owner := some (f, e), mode := m } d)) s

/-- SET_MODE with DEVICE_RESET = 1 (R450): refused with OWNERSHIP under a lease; else it completes, and the reset follows. -/
def execSetModeDeviceReset (f : FnId) (e : Desc) (s : State) : Host.Outcome State Fault Refusal :=
  if !bit e.w1 8 then .next s
  else admin (.setModeDeviceReset f e) 0x48 .owner f e (fun _ d =>
    if d.svc.lease then say .ownership d
    else say .success { d with modeSt := { d.modeSt with resetReq := true } }) s

/-- What a write of MODE_CTL by COMMAND comes to (R450): a device reset asked for, and the status of a mode request that is
refused, or the mode it asks for. (DEDUCED, log entry 98) -/
def modeCtlWrite (w : Wr) (d : Dev) : Except Status (Option Mode) × Dev :=
  let v := (wrBits w).1 &&& (wrBits w).2
  let d1 : Dev := if bit v 8 then { d with modeSt := { d.modeSt with resetReq := true } } else d
  if bit v 3 && !bit v 8 then
    let m := modeOf (fld v 0 3)
    match modeCheck d false m with
    | some st => (.error st, d1)
    | none => (.ok (some m), enterReq { mode := m } d1)
  else (.ok none, d1)

/-- MODE_CTL_REQ (R450): a write of MODE_CTL with REQ = 1; only the fabric manager's, by COMMAND, counts (R458). -/
def execModeCtlReq (m : Master) (w : Wr) (s : State) : Host.Outcome State Fault Refusal :=
  fabRow m (.modeCtlReq m w) s (
    lift0 (fun d => if isFab m && bit ((wrBits w).1 &&& (wrBits w).2) 3 then (modeCtlWrite w d).2 else d) s)

/-- MODE_CTL_DEVICE_RESET (R450). -/
def execModeCtlDeviceReset (m : Master) (w : Wr) (s : State) : Host.Outcome State Fault Refusal :=
  fabRow m (.modeCtlDeviceReset m w) s (
    lift0 (fun d => if isFab m && bit ((wrBits w).1 &&& (wrBits w).2) 8 then (modeCtlWrite w d).2 else d) s)

/-- MODE_CHANGED (R451). -/
def postModeChanged (old new : Mode) (cause : Nat) (d : Dev) : Dev :=
  postSubscribed .modeChanged 0 (BitVec.ofNat 64 (modeCode new + modeCode old * 2 ^ 4 + cause * 2 ^ 8)) 0 d

/-- A mode comes into force (R410, R448, R451, R365): Quarantine by its own entry; Transit takes every host link down; Manager
begins its listen. (DEDUCED, log entry 39) -/
def changeMode (m : Mode) (cause : Nat) (d : Dev) : Dev :=
  if m = d.mode then d
  else if m = .quarantine then enterQuarantine cause d
  else
    let d1 := postModeChanged d.mode m cause (setMode m cause d)
    match m with
    | .transit => watchOwner (fun d => [0, 1, 2, 3].foldl (fun d p => hostDown p d) d) d1
    | .manager => { d1 with svc := { d1.svc with listening := true, heardHb := false } }
    | _ => d1

/-- Rank of a mode in arbitration (R372). -/
def modeRank : Mode → Nat
  | .quarantine => 2 | .drain => 1 | _ => 0

/-- A request that goes before another: of higher rank, or of equal rank and the fabric manager's (R372). -/
def reqBefore (a b : ModeReq) : Bool :=
  decide (modeRank b.mode < modeRank a.mode)
  || (decide (modeRank a.mode = modeRank b.mode) && a.owner.isNone && b.owner.isSome)

/-- The request of a tick that is carried out. (DEDUCED, log entry 97) -/
def winner : List ModeReq → Option ModeReq
  | [] => none
  | r :: rest => match winner rest with | some x => if reqBefore x r then some x else some r | none => some r

/-- The tick's SET_MODEs complete: SUCCESS for those that name the winner's mode, BUSY for the rest (R372). -/
def answerReqs (m : Mode) (reqs : List ModeReq) (d : Dev) : Dev :=
  reqs.foldl (fun d r =>
    match r.owner with
    | some (f, _) => admDone 0x48 f (fun _ _ => true) (fun _ d => (if r.mode = m then .success else .busy, d)) d
    | none => d) d

/-- The requests of a tick in which a fatal error has entered Quarantine: every transition out of it is refused (R410, R449). -/
def answerStale (d : Dev) : Dev :=
  d.modeSt.reqs.foldl (fun d r =>
    match r.owner with
    | some (f, _) =>
      admDone 0x48 f (fun _ _ => true) (fun _ d => (if r.mode = .quarantine then .success else .modeRefused, d)) d
    | none => d) { d with modeSt := { d.modeSt with reqs := [] } }

/-- Arbitration (R372): the mode carried out, if there was a request, and the device with its SET_MODEs answered and the mode in
force. -/
def arbitrate (d : Dev) : Option Mode × Dev :=
  match winner d.modeSt.reqs with
  | none => (none, d)
  | some w =>
    let d1 := answerReqs w.mode d.modeSt.reqs { d with modeSt := { d.modeSt with reqs := [] } }
    (some w.mode, changeMode w.mode (if w.owner.isSome then 1 else 2) d1)

end Sys2Proof.Machine
end

