-- ==== Sys2Proof/Machine/Boot.lean ====
section
/-!
DEFINITION. Resets, boot and firmware (R374, R435 to R446, R452, R454, R457): what each reset keeps, slot verification, the
start of the firmware, images received, ACTIVATE and COMMIT, and the SPDM responder (R455, R456).
-/
namespace Sys2Proof.Machine

open Sys2Proof

/-! ### Resets (R435 to R438) -/

/-- What every reset of the device keeps: fuses, flash, read-only memory, the metering island, and the model's own record of
outputs and free values (R437). -/
def wiped (d : Dev) : Dev :=
  { fuse := d.fuse, strap := d.strap, isl := d.isl, out := d.out, free := d.free
    boot := {
      flash := d.boot.flash, romMeas := d.boot.romMeas, keyDigest := d.boot.keyDigest, certChain := d.boot.certChain } }

/-- The start of a boot (R443 steps 1 to 3): Recovery, service boot, or the first slot. A service boot does not use BOOT_FAILS
(R446). (DEDUCED, log entry 114) -/
def bootStart (recovery : Bool) (d : Dev) : Dev :=
  let d1 : Dev := { d with strap := { d.strap with recovery := recovery } }
  if recovery || (decide (2 ≤ bootFails d1) && d1.strap.bootSrc ≠ 1) then
    { d1 with mode := .recovery, boot := { d1.boot with phase := .recovery } }
  else if d1.strap.bootSrc = 1 then { d1 with boot := { d1.boot with phase := .service } }
  else
    let first := if bootFails d1 = 0 then slotPref d1 else !slotPref d1
    { d1 with boot := { d1.boot with phase := .verify first [!first] } }

/-- A power-on reset (R435 to R437): straps are sampled as the pins stand; counts in the tally accumulators are lost (R507). -/
def powerOn (role bootSrc : BitVec 2) (recovery : Bool) (d : Dev) : Dev :=
  let w := wiped d
  bootStart recovery { w with
    strap := { role := role, bootSrc := bootSrc, recovery := recovery }
    isl := { w.isl with acc := [] } }

/-- Every tally accumulator is flushed through its tap (R382, R438). (DEDUCED, log entry 106) -/
def flushTaps (d : Dev) : Dev :=
  if d.fuse.meter && d.isl.powered then (List.range 8).foldl (fun d t => deliver t d) d else d

/-- A device reset (R437, R438): the Blotter, the masks of R412, the clock's count and THERMTRIP_N's latch (R515) go on.
(DEDUCED, log entry 23) (DEDUCED, log entry 116) -/
def deviceReset (recovery : Bool) (d : Dev) : Dev :=
  let d1 := flushTaps d
  bootStart recovery { wiped d1 with
    clk := d1.clk
    therm := { trip := d1.therm.trip }
    jtag := { d1.jtag with rstLow := false }
    flt := { d1.flt with recs := d1.flt.recs.map fun r => (r.1, { r.2 with fclass := 0 }) } }

/-- A device reset that no pin brings: RECOVERY_N is sampled at the start of its boot, at a level the model does not hold.
(DESIGN CHOICE, log entry 114) -/
def ownReset (d : Dev) : Dev :=
  let v := takeFree d
  deviceReset (bit v.1 0) v.2

/-- A reset of the device: the mirrors show its reset values too. (DEDUCED, log entry 7) -/
def resetTo (g : Dev → Dev) (s : State) : Host.Outcome State Fault Refusal := .next { s with dev := g s.dev, mir := g s.dev }

/-- POWER_ON_RESET (R436). -/
def execPowerOnReset (role bootSrc : BitVec 2) (recovery : Bool) (s : State) : Host.Outcome State Fault Refusal :=
  resetTo (powerOn role bootSrc recovery) s

/-- DEVICE_RESET (R438). -/
def execDeviceReset (recovery : Bool) (s : State) : Host.Outcome State Fault Refusal :=
  if asleep s.dev then .next s else resetTo (deviceReset recovery) s

/-- Power-on reset is asserted internally and held (R507, R508). -/
def holdReset (d : Dev) : Dev :=
  let w := wiped d
  { w with boot := { w.boot with phase := .held }, isl := { w.isl with acc := [] } }

/-- SUPPLY_BROWNOUT (R507). -/
def execSupplyBrownout (s : State) : Host.Outcome State Fault Refusal := resetTo holdReset s

/-- MGMT_XO_LOSS (R508). -/
def execMgmtXoLoss (s : State) : Host.Outcome State Fault Refusal := resetTo holdReset s

/-- INTERNAL_RESET_RELEASE (R507): boot follows as after any power-on reset. -/
def execInternalResetRelease (role bootSrc : BitVec 2) (recovery : Bool) (s : State) : Host.Outcome State Fault Refusal :=
  if asleep s.dev then resetTo (powerOn role bootSrc recovery) s else .next s

/-! ### Images (R441, R442, R454) -/

/-- BODY_LEN of an image. -/
def bodyLen (img : List Byte) : Nat := imgField img 8 4

/-- The components of an image: offset, length and kind. -/
def comps (img : List Byte) : List (Nat × Nat × Nat) :=
  (List.range 8).map fun i => (imgField img (0x40 + 16 * i) 4, imgField img (0x44 + 16 * i) 4, compKind img i)

/-- The first check of R442. -/
def wellFormedImage (img : List Byte) : Bool :=
  let used := (comps img).filter fun c => c.2.1 != 0 && c.2.2 != 0
  decide (imgField img 0 4 = 0x47464B57) && decide (imgField img 4 2 = 1) && decide (bodyLen img ≤ 16775680)
  && decide (512 + bodyLen img + 1024 ≤ img.length)
  && used.all (fun c => decide (c.1 + c.2.1 ≤ bodyLen img))
  && [1, 2, 3, 4].all (fun k => (used.filter fun c => c.2.2 == k).length == 1)

/-- The public-key modulus of an image. -/
def modulus (img : List Byte) : List Byte := (img.drop (512 + bodyLen img)).take 512

/-- Verification of an image (R442): 0, or the code of the first check that fails. -/
def verifyImage (d : Dev) (img : List Byte) : Nat :=
  let key := fld (BitVec.ofNat 64 (imgField img 13 1)) 0 2
  if !wellFormedImage img then 8
  else if 2 ≤ key || tget d.boot.keyDigest key != some (Config.sha512 (modulus img)) || (key = 0 && d.fuse.key0Revoked) then 3
  else if !Config.rsaVerify (modulus img) (img.take (512 + bodyLen img)) ((img.drop (1024 + bodyLen img)).take 512) then 3
  else if imgField img 0x14 2 ≠ 0x6404 || !(imgField img 0x16 2).testBit 2
    || (imgField img 0x18 8 ≠ 0 && decide (imgField img 0x18 8 ≠ d.fuse.unitId.toNat)) then 4
  else if imgField img 12 1 < d.fuse.svn then 5
  else 0

/-- Measurements of an image's header, modulus and components (R454). -/
def measureImage (d : Dev) (img : List Byte) : Tbl (List Byte) :=
  let body := (img.drop 512).take (bodyLen img)
  let hd := Config.sha512 (img.take 512 ++ modulus img)
  ((List.range 8).zip (comps img)).foldl (fun t c =>
    tput t (3 + c.1) (if c.2.2.1 = 0 || c.2.2.2 = 0 then leBytes 64 0 else Config.sha512 ((body.drop c.2.1).take c.2.2.1)))
    [(1, d.boot.romMeas), (2, hd)]

/-- The firmware of an image is started (R443 step 4, R446). -/
def startFirmware (img : List Byte) (d : Dev) : Dev :=
  { d with boot := { d.boot with phase := .starting, image := img, meas := measureImage d img } }

/-- Write the boot record (R440): the copy that does not hold the highest valid GENERATION, with GENERATION + 1. -/
def bootRecord (pref : Bool) (fails : Nat) (d : Dev) : Dev :=
  let head := leBytes 4 0x52424B57 ++ leBytes 1 (b2n pref) ++ leBytes 3 (fails % 256) ++ leBytes 4 (imgField (bootRec d) 8 4 + 1)
  setFlash (if bootCopy d = some 0 then 0x800 else 0) (head ++ leBytes 4 (crc32c head).toNat) d

/-- The bytes of a slot. -/
def slotBytes (d : Dev) (b : Bool) : List Byte := flashPart d (slotAt b)

/-- SLOT_VERIFY_DONE (R443 steps 3 and 4). -/
def slotVerified (d : Dev) : Dev :=
  match d.boot.phase with
  | .verify slot rest =>
    if verifyImage d (slotBytes d slot) = 0 then
      let d1 := bootRecord (slotPref d) (bootFails d + 1) d
      startFirmware (slotBytes d slot) { d1 with boot := { d1.boot with slotRun := slot } }
    else match rest with
      | next :: more => { d with boot := { d.boot with phase := .verify next more } }
      | [] => ownReset (bootRecord (slotPref d) (bootFails d + 1) d)
  | _ => d

/-- The last slot to try does not verify: a device reset follows (R443 step 4). -/
def noSlotLeft (d : Dev) : Bool :=
  match d.boot.phase with
  | .verify slot [] => verifyImage d (slotBytes d slot) != 0
  | _ => false

/-- SLOT_VERIFY_DONE. -/
def execSlotVerifyDone (s : State) : Host.Outcome State Fault Refusal :=
  if noSlotLeft s.dev then resetTo slotVerified s else lift0 slotVerified s

/-! ### The firmware's start (R443 steps 5 and 6, R439, R440, R457) -/

/-- The board configuration record is valid (R440). -/
def boardOk (r : List Byte) : Bool :=
  decide (imgField r 0 4 = 0x43424B57) && decide (imgField r 4 2 = 1) && decide (20 ≤ r.length)
  && decide (imgField r 0x10 4 = (crc32c (r.take 16)).toNat)

/-- The equalisation table is valid (R308). -/
def eqOk (r : List Byte) : Bool :=
  decide (imgField r 0 4 = 0x51454C57) && decide (imgField r 4 2 = 1) && decide (imgField r 6 2 = 384)
  && decide (3088 ≤ r.length) && decide (imgField r 8 4 = (crc32c ((r.drop 16).take 3072)).toNat)

/-- The user calibration record is valid (R457). -/
def calOk (r : List Byte) : Bool :=
  decide (imgField r 0 4 = 0x4C434B57) && decide (imgField r 4 2 = 1) && decide (0x130 ≤ r.length)
  && decide (imgField r 8 4 = (crc32c ((r.drop 0x10).take 0x120)).toNat)

/-- User calibration values from a valid record (R457). -/
def loadCal (d : Dev) : Dev :=
  let r := flashPart d 0x3000
  if calOk r then
    let d1 := (List.range 36).foldl (fun d i =>
      { d with regs := tput d.regs (0x8200 + 8 * i)
                 (BitVec.ofNat 64 (imgField r (0x10 + 8 * i) 8) &&& calMask (0x200 + 8 * i)) }) d
    { d1 with boot := { d1.boot with calLoaded := true } }
  else { d with boot := { d.boot with calDefault := true } }

/-- The board's records are loaded; one that is absent or invalid is replaced by its default. (DEDUCED, log entry 36) -/
def loadBoard (d : Dev) : Dev :=
  let b := if boardOk (flashPart d 0x1000) then imgField (flashPart d 0x1000) 8 1 else 0
  let d1 := [(0 : Fin 4), 1, 2, 3].foldl (fun d p => updHp p (fun h => { h with bifurcated := b.testBit p.val }) d) d
  let fuses := leBytes 8 d.fuse.svn ++ leBytes 8 (b2n d.fuse.key0Revoked) ++ leBytes 8 (devId d) ++ leBytes 8 devStep
  let m1 := tput d.boot.meas 11 (Config.sha512 (flashPart d 0x1000 ++ flashPart d 0x2000 ++ flashPart d 0x3000))
  let m2 := tput m1 12 (Config.sha512 fuses)
  let m3 := if d.fuse.meter then tput m2 13 (Config.sha512 d.isl.fwRun) else m2
  loadCal { d1 with boot := { d1.boot with eqLoaded := eqOk (flashPart d 0x2000), meas := m3 } }

/-- BOOT_COMPLETE (R443 steps 5 and 6): the board's records are loaded, BOOT_FAILS is 0, the device is in Configure, its fabric
ports train; a device strapped manager goes on to Manager. A device that a fatal error has put into Quarantine stays there
(R449). -/
def bootDone (d : Dev) : Dev :=
  if d.boot.phase ≠ .starting then d
  else
    let d1 := loadBoard d
    let d2 := if d1.boot.service then d1 else bootRecord (slotPref d1) 0 d1
    let d3 := allPorts.foldl (fun d p => startTraining p d) { d2 with
      mode := if d2.mode = .quarantine then .quarantine else .configure, boot := { d2.boot with phase := .running } }
    if roleManager d3 && d3.mode = .configure then changeMode .manager 0 d3 else d3

/-- BOOT_COMPLETE. -/
def execBootComplete (s : State) : Host.Outcome State Fault Refusal := lift bootDone s

/-- QUILL_WATCHDOG (R444, R414): it ends a boot attempt with a device reset, or is a fatal fault. -/
def execQuillWatchdog (s : State) : Host.Outcome State Fault Refusal :=
  if s.dev.boot.phase = .starting then resetTo ownReset s
  else lift (faultReport { src := Fin.ofNat 512 srcQuill, cause := BitVec.ofNat 8 caWatchdog }) s

/-! ### Images over the service network (R374, R445, R446) -/

/-- Bytes written over a list from an offset; what has not been written before reads 0. (DEDUCED, log entry 115) -/
def splice (bs : List Byte) (off : Nat) (new : List Byte) : List Byte :=
  (bs ++ List.replicate (off - bs.length) 0).take off ++ new ++ bs.drop (off + new.length)

/-- Chunks, in rising offset, cover the bytes from `pos` on: the first byte that is missing. -/
def coveredTo : Nat → Tbl (List Byte) → Nat
  | pos, [] => pos
  | pos, (off, bs) :: t => if off ≤ pos then coveredTo (max pos (off + bs.length)) t else pos

/-- A chunk joins the image being received; one of a new IMAGE_ID discards the chunks held (R445). -/
def takeChunk (f : Frame) (g : Img) : Img :=
  let id : Word32 := BitVec.ofNat 32 (payNat f 0 4)
  let g1 : Img := if g.id = id then g else { id := id }
  { g1 with total := payNat f 4 4, chunks := tput g1.chunks (payNat f 8 4) ((f.payload.drop 16).take 1008) }

/-- The whole image has arrived. -/
def imageWhole (g : Img) : Bool := decide (0 < g.total) && decide (g.total ≤ coveredTo 0 g.chunks)

/-- The bytes of the image received. -/
def imageBytes (g : Img) : List Byte := (g.chunks.foldl (fun bs c => splice bs c.1 c.2) []).take g.total

/-- Write a slot. -/
def setSlot (b : Bool) (bs : List Byte) (d : Dev) : Dev := setFlash (slotAt b) bs d

/-- The slot that is not running (R374). -/
def idleSlot (d : Dev) : Bool := if d.boot.phase = .recovery then !slotPref d else !d.boot.slotRun

/-- An IMAGE addressed to this device (R374): written into the inactive slot. In Recovery, and in a service boot, the image is
verified once it is whole: it becomes SLOT_PREF and a device reset follows, or its firmware is started (R445, R446). While
ACTIVATE runs it is discarded and counted (R452), and so is one that comes between the verification and its device reset.
(DESIGN CHOICE, log entry 162) -/
def imageIn (n : Nat) (f : Frame) (d : Dev) : Dev :=
  if d.boot.actBusy || (d.boot.phase = .recovery && d.modeSt.resetReq) then countDrop n d
  else
    let g := takeChunk f d.boot.img
    let d1 : Dev := { d with boot := { d.boot with img := g } }
    let drop := fun d : Dev => { d with boot := { d.boot with img := {} } }
    match d.boot.phase with
    | .recovery =>
      let slot := idleSlot d
      let d2 := setSlot slot (splice (slotBytes d1 slot) (payNat f 8 4) ((f.payload.drop 16).take 1008)) d1
      if !imageWhole g then d2
      else if verifyImage d2 (imageBytes g) = 0 then
        bootRecord slot 0 { d2 with modeSt := { d2.modeSt with resetReq := true } }
      else drop d2
    | .service =>
      if !imageWhole g then d1
      else if verifyImage d1 (imageBytes g) = 0 then
        startFirmware (imageBytes g) { d1 with boot := { d1.boot with service := true } }
      else drop d1
    | .running =>
      let slot := idleSlot d
      setSlot slot (splice (slotBytes d slot) (payNat f 8 4) ((f.payload.drop 16).take 1008)) d
    | _ => d

/-- IMAGE (R374). -/
def execImage (n : Fin 4) (f : Frame) (s : State) : Host.Outcome State Fault Refusal :=
  lift0 (svcFrame 0x9 n.val f fun f d => imageIn n.val f d) s

/-! ### ACTIVATE and COMMIT (R452) -/

/-- FW_CTL (R458). -/
def fwCtl (d : Dev) : Word64 := regInForce d 0x40 1

/-- ACT_STATUS. -/
def setAct (n : Nat) (d : Dev) : Dev := { d with boot := { d.boot with act := n } }

/-- The generation check of an image (R452). -/
def generationOk (d : Dev) (img : List Byte) : Bool :=
  let g := imgField img 0x10 2
  let m := imgField img 0x12 2
  let near := fun a b : Nat => decide (a ≤ b + 1 ∧ b ≤ a + 1)
  let mgr := fld (fwCtl d) 32 16
  near g mgr && decide (m ≤ mgr)
  && allPorts.all fun p =>
    let i := (getPort d p).info
    !bit i 20 || (near g (fld i 48 16) && decide (m ≤ fld i 48 16))

/-- A CMD of FW_CTL. -/
def fwCmd (c : Nat) (d : Dev) : Dev :=
  if c = 1 then
    if d.mode = .configure || d.mode = .transit || (d.mode = .drain && allDrained d) then
      setAct 1 { d with boot := { d.boot with actBusy := true } }
    else setAct 7 d
  else if c = 2 then
    let svn := imgField d.boot.image 12 1
    setAct 9 { d with fuse := { d.fuse with svn := max d.fuse.svn svn } }
  else d

/-- A write of FW_CTL (R452, R458). -/
def fwCtlReg (w : Wr) (d : Dev) : Dev :=
  let d1 := putReg 0x40 1 (mergeWr (fwCtl d) 0x0000FFFF00000001 w) d
  if bit (wrBits w).2 60 then fwCmd (fld (wrBits w).1 60 4) d1 else d1

/-- A write of FW_CTL with one CMD, by the fabric manager. -/
def fwRow (c : Nat) (m : Master) (w : Wr) (s : State) : Host.Outcome State Fault Refusal :=
  lift0 (fun d => if isFab m && bit (wrBits w).2 60 && fld (wrBits w).1 60 4 == c then fwCtlReg w d else d) s

/-- FW_ACTIVATE (R452). -/
def execFwActivate (m : Master) (w : Wr) (s : State) : Host.Outcome State Fault Refusal :=
  fabRow m (.fwActivate m w) s (fwRow 1 m w s)
/-- FW_COMMIT (R452). -/
def execFwCommit (m : Master) (w : Wr) (s : State) : Host.Outcome State Fault Refusal :=
  fabRow m (.fwCommit m w) s (fwRow 2 m w s)

/-- FW_ACTIVATE_DONE (R452): verification and the generation check have ended. -/
def execFwActivateDone (s : State) : Host.Outcome State Fault Refusal :=
  lift0 (fun d =>
    if !d.boot.actBusy then d
    else
      let d1 : Dev := { d with boot := { d.boot with actBusy := false } }
      let img := slotBytes d (idleSlot d)
      let code := verifyImage d img
      if code ≠ 0 then setAct code d1
      else if !generationOk d img then setAct 6 d1
      else
        let d2 := setAct 2 (bootRecord (idleSlot d) (bootFails d) d1)
        if bit (fwCtl d) 0 then { d2 with modeSt := { d2.modeSt with resetReq := true } } else d2) s

/-! ### The SPDM responder (R455, R456)

The layouts are those of DMTF SPDM 1.2. (PRESUMED, log entry 117) -/

/-- The header of a response: version, code and two parameters. -/
def spdmHead (code p1 p2 : Nat) : List Byte := [0x12, BitVec.ofNat 8 code, BitVec.ofNat 8 p1, BitVec.ofNat 8 p2]

/-- Bytes that DMTF or the specification leaves open, at most eight. -/
def spdmFree (n : Nat) (d : Dev) : List Byte := leBytes n (Config.freeWord d.free).toNat

/-- A nonce: 32 free bytes. -/
def spdmNonce (d : Dev) : List Byte := (List.range 4).flatMap fun i => leBytes 8 (Config.freeWord (d.free + i)).toNat

/-- Answer an SPDM request on a port whose link is up. The four free values an answer may use are spent. -/
def spdm (p : Fin 4) (q : SpdmReq) (body : Dev → List Byte) (s : State) : Host.Outcome State Fault Refusal :=
  lift0 (fun d =>
    if (getHp d p).linkUp then { emit (.spdm p q (body d)) d with free := d.free + 4 } else d) s

/-- ERROR InvalidRequest. -/
def spdmInvalid : List Byte := spdmHead 0x7F 0x01 0

/-- A measurement block (R454): a digest, with its type by index: read-only memory, firmware, hardware configuration or firmware
configuration. -/
def measBlock (m : Nat × List Byte) : List Byte :=
  let type := if m.1 = 1 then 0 else if m.1 = 11 then 3 else if m.1 = 12 then 2 else 1
  [BitVec.ofNat 8 m.1, 1] ++ leBytes 2 (m.2.length + 3) ++ [BitVec.ofNat 8 type] ++ leBytes 2 m.2.length ++ m.2

/-- A response and the signature over it and what DMTF puts before it: free bytes and the request. -/
def spdmSigned (d : Dev) (req body : List Byte) : List Byte :=
  body ++ Config.rsaSign 0 (Config.freeBytes d.free ++ req ++ body)

/-- GET_VERSION: the one version 1.2. -/
def execGetVersion (p : Fin 4) (s : State) : Host.Outcome State Fault Refusal :=
  spdm p .getVersion (fun _ => [0x10, 0x04, 0, 0, 0, 1] ++ leBytes 2 0x1200) s
/-- GET_CAPABILITIES: CERT_CAP, CHAL_CAP and MEAS_CAP with signature, and no others. -/
def execGetCapabilities (p : Fin 4) (s : State) : Host.Outcome State Fault Refusal :=
  spdm p .getCapabilities (fun d =>
    spdmHead 0x61 0 0 ++ [0] ++ spdmFree 1 d ++ leBytes 2 0 ++ leBytes 4 0x16
    ++ leBytes 8 (Config.freeWord (d.free + 1)).toNat) s
/-- NEGOTIATE_ALGORITHMS: SHA-512 for measurements, TPM_ALG_RSAPSS_4096 and TPM_ALG_SHA_512. -/
def execNegotiateAlgorithms (p : Fin 4) (s : State) : Host.Outcome State Fault Refusal :=
  spdm p .negotiateAlgorithms (fun _ =>
    spdmHead 0x63 0 0 ++ leBytes 2 36 ++ [1, 0] ++ leBytes 4 0x8 ++ leBytes 4 0x40 ++ leBytes 4 0x4 ++ leBytes 16 0) s
/-- GET_DIGESTS: the digest of slot 0's chain; the other slots are empty. -/
def execGetDigests (p : Fin 4) (s : State) : Host.Outcome State Fault Refusal :=
  spdm p .getDigests (fun d => spdmHead 0x01 0 1 ++ Config.sha512 d.boot.certChain) s
/-- GET_CERTIFICATE: bytes of slot 0's chain, their length and that of the rest. -/
def execGetCertificate (p : Fin 4) (slot : Fin 8) (off len : Word16) (s : State) : Host.Outcome State Fault Refusal :=
  spdm p .getCertificate (fun d =>
    let rest := d.boot.certChain.drop off.toNat
    if slot ≠ 0 || rest.isEmpty then spdmInvalid
    else
      let part := rest.take len.toNat
      spdmHead 0x02 0 0 ++ leBytes 2 part.length ++ leBytes 2 (rest.length - part.length) ++ part) s
/-- CHALLENGE: CHALLENGE_AUTH with the chain's digest, a nonce and, where the request asks for every measurement, the digest of
their blocks. -/
def execChallenge (p : Fin 4) (req : List Byte) (s : State) : Host.Outcome State Fault Refusal :=
  spdm p .challenge (fun d =>
    let all := imgField req 3 1
    let sum := if all = 0xFF then Config.sha512 (d.boot.meas.flatMap measBlock)
      else if all = 1 then Config.sha512 (Config.freeBytes (d.free + 1)) else []
    if imgField req 2 1 ≠ 0 then spdmInvalid
    else spdmSigned d req (spdmHead 0x03 0 1 ++ Config.sha512 d.boot.certChain ++ spdmNonce d ++ sum ++ leBytes 2 0)) s
/-- GET_MEASUREMENTS: the number of measurements, every measurement in the order of its index, or the one asked for; signed where
the request asks for a signature. -/
def execGetMeasurements (p : Fin 4) (req : List Byte) (s : State) : Host.Outcome State Fault Refusal :=
  spdm p .getMeasurements (fun d =>
    let op := imgField req 3 1
    let ms := d.boot.meas.filter fun m => op = 0xFF || m.1 = op
    if op ≠ 0 && ms.isEmpty then spdmInvalid
    else
      let blocks := ms.flatMap measBlock
      let body := spdmHead 0x60 (if op = 0 then d.boot.meas.length else 0) 0 ++ [BitVec.ofNat 8 ms.length]
        ++ leBytes 3 blocks.length ++ blocks ++ spdmNonce d ++ leBytes 2 0
      if (imgField req 2 1).testBit 0 then spdmSigned d req body else body) s
/-- Any other request: ERROR UnsupportedRequest, which names the request's code. -/
def execSpdmUnsupportedRequest (p : Fin 4) (s : State) : Host.Outcome State Fault Refusal :=
  spdm p .unsupported (fun d => [0x12, 0x7F, 0x07] ++ spdmFree 1 d) s

end Sys2Proof.Machine
end

