-- ==== Sys2Proof/Machine/Pace.lean ====
section
/-!
DEFINITION. Pace and the governor (R30, R34 to R39), the AVSBus and PMBus (R38, R513), temperatures (R457, R459, R514 to
R516) and the loss of a fabric reference clock (R508).
-/
namespace Sys2Proof.Machine

open Sys2Proof

/-! ### Pace (R30, R34, R39) -/

/-- Pace of a tick from the monitors' counts: the lowest of them over 1.024 microseconds, in whole Mhs/s (R30).
(DESIGN CHOICE, log entry 24) -/
def paceOf (counts : List Nat) : Nat :=
  match counts with
  | [] => 0
  | c :: cs => cs.foldl min c * 1000 / 1024

/-- PACE_MIN: the lowest of the most recent 1,024 ticks (R34). -/
def paceMin (p : Pace) : Nat :=
  match p.hist with
  | [] => 0
  | c :: cs => cs.foldl min c

/-- Post PACE_LOW or PACE_RESTORED where the state differs from the one last posted and its kind is not held off (R39).
(DESIGN CHOICE, log entry 128) -/
def postPace (d : Dev) : Dev :=
  let p := d.pace
  if p.below && !p.lastBelow && !p.holdLow then
    postSubscribed .paceLow 0 0 0 { d with pace := { p with lastBelow := true, holdLow := true } }
  else if !p.below && p.lastBelow && !p.holdRest then
    postSubscribed .paceRestored 0 0 0 { d with pace := { p with lastBelow := false, holdRest := true } }
  else d

/-- A tick's counts close (R30, R34). -/
def paceTick (counts : List Nat) (d : Dev) : Dev :=
  let n := paceOf counts
  postPace { d with pace := { d.pace with now := n, hist := (n :: d.pace.hist).take 1024, below := decide (n < 1600) } }

/-! ### The governor (R35 to R38) -/

/-- PACE_TGT in force. -/
def paceTgt (d : Dev) : Word64 := regInForce d 0x38 0x00013522260507D0

/-- TARGET. -/
def tgtPace (d : Dev) : Nat := fld (paceTgt d) 0 16
/-- STEP_MV. -/
def tgtStep (d : Dev) : Nat := fld (paceTgt d) 16 8
/-- VMIN. -/
def tgtVmin (d : Dev) : Nat := fld (paceTgt d) 24 12
/-- VMAX. -/
def tgtVmax (d : Dev) : Nat := fld (paceTgt d) 36 12
/-- GOV_EN. -/
def tgtEn (d : Dev) : Bool := bit (paceTgt d) 48

/-- PACE_NOW is below the dead band. -/
def slow (d : Dev) : Bool := decide (d.pace.now < tgtPace d - tgtPace d / 100)
/-- PACE_NOW is above the dead band. -/
def quick (d : Dev) : Bool := decide (tgtPace d + tgtPace d / 100 < d.pace.now)

/-- The voltage an evaluation comes to (R37); before the first request it starts at the regulator's 750 mV, and VMIN is asked
for once THERMTRIP_N has been driven (R515). -/
def govVolts (d : Dev) : Nat :=
  let v := if d.pace.vdd = 0 then 750 else d.pace.vdd
  if d.therm.trip then tgtVmin d
  else if !tgtEn d then tgtVmax d
  else if v < tgtVmin d ∨ tgtVmax d < v then max (tgtVmin d) (min (tgtVmax d) v)
  else if slow d then min (v + tgtStep d) (tgtVmax d)
  else if quick d then max (v - tgtStep d) (tgtVmin d)
  else v

/-- Send a voltage request over AVSBus. -/
def askVolts (v : Nat) (d : Dev) : Dev := emit (.avs v) { d with pace := { d.pace with vdd := v, avsOut := true } }

/-- An evaluation of the governor (R37): skipped while a request is outstanding, during the 100 ms after a fault (R38), and
while block 0 is fenced (R490). (DEDUCED, log entry 25) -/
def govern (d : Dev) : Dev :=
  if d.pace.avsOut || d.pace.avsHold || fencedBlk d 0 then d
  else if govVolts d = d.pace.vdd then d
  else askVolts (govVolts d) d

/-- GOVERNOR_EVALUATION (R37). -/
def execGovernorEvaluation (s : State) : Host.Outcome State Fault Refusal := lift0 govern s

/-- AVS_REQUEST_COMPLETE (R37). -/
def execAvsRequestComplete (s : State) : Host.Outcome State Fault Refusal :=
  lift0 (fun d => { d with pace := { d.pace with avsOut := false } }) s

/-- An AVSBus fault (R38, R513): PMBus reads STATUS_WORD, whose low byte the record holds, and sends CLEAR_FAULTS. -/
def avsFault (status : Word16) (d : Dev) : Dev :=
  report srcAvsbus .contained caAvsbus (status.setWidth 8) 0 1
    (emit (.pmbus true) { d with pace := { d.pace with avsOut := false, avsHold := true } })

/-- AVS_TIMEOUT (R38): no acknowledgement within 1 ms of a request. -/
def execAvsTimeout (status : Word16) (s : State) : Host.Outcome State Fault Refusal :=
  lift0 (fun d => if d.pace.avsOut then avsFault status d else d) s

/-- AVS_FAULT (R38): the regulator reports a fault, or a frame fails its CRC. -/
def execAvsFault (status : Word16) (s : State) : Host.Outcome State Fault Refusal := lift0 (avsFault status) s

/-- AVS_RETRY (R38): the last request is sent again; where there was none, evaluation goes on. -/
def execAvsRetry (s : State) : Host.Outcome State Fault Refusal :=
  lift0 (fun d =>
    if !d.pace.avsHold then d
    else
      let d1 : Dev := { d with pace := { d.pace with avsHold := false } }
      if d1.pace.vdd = 0 then d1 else askVolts d1.pace.vdd d1) s

/-! ### Temperature (R457, R459) -/

/-- A sensor's calibrated reading in 1/16 degree: reading x (1 + GAIN x 2^-16) + OFFSET (R459). -/
def calTemp (d : Dev) (i : Nat) (raw : Int) : Int :=
  let e := calEff d (8 * i)
  raw * (65536 + signed 16 (fld e 16 16)) / 65536 + signed 16 (fld e 0 16)

/-- TJ_MAX: the highest calibrated reading in half degrees, rounded down, within its ten bits (R34).
(DESIGN CHOICE, log entry 135) -/
def tjOf (d : Dev) (raw : List Int) : Int :=
  match (raw.zip (List.range 16)).map (fun x => calTemp d x.2 x.1) with
  | [] => d.therm.tjMax
  | t :: ts => max (-512) (min 511 ((ts.foldl max t) / 8))

/-! ### HBM temperature (R516) -/

/-- A stack's record. -/
def getHbm (d : Dev) (n : Fin 2) : HbmT := if n = 0 then d.therm.hbm0 else d.therm.hbm1

/-- Set a stack's record. -/
def setHbm (n : Fin 2) (h : HbmT) (d : Dev) : Dev :=
  { d with therm := if n = 0 then { d.therm with hbm0 := h } else { d.therm with hbm1 := h } }

/-- INFO_A of the throttling events (R516). -/
def hbmInfo (temp : Int) (cap : Nat) : Word64 := (BitVec.ofInt 10 temp).setWidth 64 ||| ins 16 cap

/-- Post HBM_THROTTLE or HBM_THROTTLE_END where the state differs from the one last told and its kind is not held off. -/
def postHbm (n : Fin 2) (d : Dev) : Dev :=
  let h := getHbm d n
  let obj := BitVec.ofNat 32 n.val
  if h.throttled && (!h.lastOn || h.cap != h.lastCap) && !h.holdT then
    postSubscribed .hbmThrottle obj (hbmInfo h.temp h.cap) 0
      (setHbm n { h with lastOn := true, lastCap := h.cap, holdT := true } d)
  else if !h.throttled && h.lastOn && !h.holdE then
    postSubscribed .hbmThrottleEnd obj (hbmInfo h.temp 100) 0
      (setHbm n { h with lastOn := false, lastCap := 100, holdE := true } d)
  else d

/-- The cap of a throttled stack (R516). Between 97 and 100 degrees, where throttling goes on and no cap is stated, a free
value of 10 to 100, drawn at each change of whole degrees. (DESIGN CHOICE, log entry 26) -/
def hbmCap (h : HbmT) (t : Int) (d : Dev) : Nat × Dev :=
  if 200 ≤ t then (max 10 (100 - 15 * ((t / 2).toNat - 99)), d)
  else if t / 2 = h.temp / 2 then (h.cap, d)
  else
    let v := takeFree d
    (10 + v.1.toNat % 91, v.2)

/-- A stack's temperature is read, in half degrees (R516, R420). -/
def hbmSample (n : Fin 2) (t : Int) (d : Dev) : Dev :=
  let h := getHbm d n
  if h.shut then setHbm n { h with temp := t } d
  else if 220 ≤ t then
    report (srcHbm n.val) .fatal caThermal 0 0 1 (setHbm n { h with temp := t, fast := true, shut := true, failed := true } d)
  else
    let on := decide (200 ≤ t) || (h.throttled && decide (194 < t))
    let c := if on then hbmCap h t d else (100, d)
    postHbm n (setHbm n { h with temp := t, fast := decide (170 < t), throttled := on, cap := c.1 } c.2)

/-- THERMAL_SAMPLE (R34, R317, R318, R457, R516): the readings of the sensors in 1/16 degree, and of the stacks in half degrees.
-/
def execThermalSample (raw : List Int) (hbm0 hbm1 : Int) (s : State) : Host.Outcome State Fault Refusal :=
  lift (fun d =>
    let d1 : Dev := { d with therm := { d.therm with raw := raw, tjMax := tjOf d raw } }
    let d2 := allPorts.foldl (fun d p => portThermal p d) d1
    hbmSample 1 hbm1 (hbmSample 0 hbm0 d2)) s

/-- THERMTRIP (R515): THERMTRIP_N is driven low and latched; the governor asks for VMIN; the trip is fatal. -/
def execThermtrip (s : State) : Host.Outcome State Fault Refusal :=
  lift (fun d =>
    report srcThermtrip .fatal caThermal 0 0 1
      (govern { d with therm := { d.therm with trip := true } })) s

/-- PACE_EVENT_HOLDOFF_END (R39, R516): a hold-off of 1,024 ticks ends, and a state that differs from the one last posted is
posted. -/
def execPaceEventHoldoffEnd (k : Holdoff) (s : State) : Host.Outcome State Fault Refusal :=
  lift0 (fun d =>
    match k with
    | .paceLow => postPace { d with pace := { d.pace with holdLow := false } }
    | .paceRestored => postPace { d with pace := { d.pace with holdRest := false } }
    | .throttle n => postHbm n (setHbm n { getHbm d n with holdT := false } d)
    | .throttleEnd n => postHbm n (setHbm n { getHbm d n with holdE := false } d)) s

/-- REFCLK_FAB_LOSS (R508): the lanes of the clock's sixteen ports lose lock, and those ports go down.
(DEDUCED, log entry 27) -/
def execRefclkFabLoss (q : Fin 4) (s : State) : Host.Outcome State Fault Refusal :=
  lift (fun d =>
    (List.range 16).foldl (fun d i =>
      let p := 16 * q.val + i
      let lose : LaneSt → LaneSt := fun l => { l with lol := true, locked := false, soak := false }
      goDown p 1 (updPort p (fun x => { x with l0 := lose x.l0, l1 := lose x.l1 }) d)) d) s

end Sys2Proof.Machine
end

