-- ==== Sys2Proof/Machine/Regs.lean ====
section
/-!
DEFINITION. The register map (R13 to R16, R482 to R488): decoding, which fields of which register can be written and staged,
reads with their mirrors and the counters that a read clears, and who reaches what (R49, R268, R370).
-/
namespace Sys2Proof.Machine

open Sys2Proof

/-! ### Decoding (R482, R483) -/

/-- The base copy of a register-window offset; none where it belongs to no block (R482, R483). -/
def baseOf (off : Nat) : Option Nat :=
  if off < 0x1000 then some (off % 0x800)
  else if off < 0x2000 then some (0x1000 + off % 0x40)
  else if off < 0x3000 then some (0x2000 + off % 0x20)
  else if off < 0x4000 then none
  else if off < 0x8000 then some off
  else if off < 0x10000 then some (0x8000 + off % 0x800)
  else if off < 0x20000 then some (0x10000 + off % 0x4000)
  else if off < 0x30000 then some (0x20000 + off % 0x80)
  else if off < 0x40000 then some (0x30000 + off % 0x4000)
  else if off < 0x50000 then some (0x40000 + off % 0x8000)
  else if off < 0x60000 then some (0x50000 + off % 0x80)
  else if off < 0x70000 then some (0x60000 + off % 0x400)
  else if off < 0x80000 then some (0x70000 + off % 0x40)
  else if off < 0x90000 then some (0x80000 + off % 0x4000)
  else none

/-! ### Stored fields (R15, R484) -/

/-- What a register stores outside block 1 and the meter export block: the mask of its fields of type RW or RL, the mask of
its fields of type RS, and its reset value. -/
def regT0 (off : Nat) : Option (Word64 × Word64 × Nat) :=
  match off with
  | 0x028 => some (3, 0, 0)
  | 0x038 => some (0, 0x0001FFFFFFFFFFFF, 0x00013522260507D0)
  | 0x040 => some (0x0000FFFF00000001, 0, 1)
  | 0x200 => some (0, 0x800000000000001F, 0)
  | 0x310 => some (0, 0x3F, 0x10)
  | 0x320 => some (0, 0xFFFFFF, 0)
  | 0x330 => some (0, 0x1F, 1)
  | 0x340 => some (0, 0xFF00FF, 0x400002)
  | _ =>
    if 0x400 ≤ off ∧ off % 0x100 < 0x80 then
      some (0, if off % 0x10 = 0 then 0xFFFFFFFFFFFFF001 else 0xFFFFFFFFFFFFF000, 0)
    else none

/-- Traffic control (R344 to R347). -/
def regT6 (o : Nat) : Option (Word64 × Word64 × Nat) :=
  match o with
  | 0x0000 => some (0, 0xFF, 0x18)
  | 0x0010 => some (0x1FFFF, 0, 0)
  | 0x0018 => some (0xFF0FFFFFFF, 0, 0)
  | _ =>
    if 0x1000 ≤ o ∧ o < 0x1200 then some (0, 0xFFFFFFFFFFFFFFFF, 0x1010101010101010)
    else if 0x2000 ≤ o ∧ o < 0x2800 then
      if o % 0x20 = 0 then some (0, 0x800001FF0FFFFFFF, 0)
      else if o % 0x20 = 8 then some (0, 0xFFFFFFFFFFFFFFFC, 0)
      else none
    else none

/-- The performance monitor (R480). -/
def regT7 (o : Nat) : Option (Word64 × Word64 × Nat) :=
  match o with
  | 0x00 => some (0x2, 0, 0)
  | 0x08 => some (0xFFFFF, 0, 0x3E8)
  | 0x10 => some (0xFFFF9F00000FFFFF, 0, 0x7800040000000064)
  | 0x18 => some (0xFFFFFFFFFFFFC000, 0, 0)
  | 0x20 => some (0xFFFFFFFF, 0, 0)
  | 0x30 => some (0xFC1F1F00FFFFFFFF, 0, 0x0010080000000001)
  | 0x38 => some (0xFFFFFFFFFFFFF000, 0, 0)
  | 0x40 => some (0xFFFFFFFF, 0, 0)
  | _ =>
    if 0x100 ≤ o ∧ o < 0x300 then
      some (if o % 32 = 0 then 0xE3FFFF1FFFFF03FF else if o % 32 = 8 then 0xFFFFFF else 0xFFFFFFFFFFFF, 0, 0)
    else if 0x2000 ≤ o ∧ o < 0x4000 then some (0x80000000000F80FF, 0, 0)
    else none

/-- Service ports, fabric manager and fabric time (R376, R378 to R380). -/
def regT9 (o : Nat) : Option (Word64 × Word64 × Nat) :=
  match o with
  | 0x100 => some (0x8000000000000000, 0, 0)
  | 0x118 => some (0x0000FFFF0000FFFF, 0, 0x000000640000001E)
  | 0x120 => some (0x800000000000FFFF, 0, 0x14)
  | 0x128 => some (0x4000000000000FFF, 0, 0)
  | 0x130 => some (0xFFFFFFFFFFFFFFFF, 0, 0)
  | 0x200 => some (0xF03F00000000FFFF, 0, 0x3E8)
  | _ => if o < 0x80 ∧ o % 0x20 = 0 then some (0xF00000000000FFFF, 0, 0xC00000000000080A) else none

/-- What a register of the map stores. -/
def regT (off : Nat) : Option (Word64 × Word64 × Nat) :=
  match blockOf off with
  | 0 => regT0 off
  | 2 => if off = 0x4000 then some (3, 0, 0) else none
  | 3 =>
    if 0x8200 ≤ off ∧ off < 0x8320 then some (calMask (off - 0x8000), 0, 0) else none
  | 4 => if off % 0x100 = 0 then some (0xF000FFFFFFFFFF7F, 0x0F00000000000000, 0xBB00010000080819) else none
  | 5 =>
    match off with
    | 0x20000 => some (0xFFFF00000000, 0, 0)
    | 0x20010 => some (0x3FFFFF, 0, 0)
    | 0x20018 | 0x20020 | 0x20028 | 0x20030 => some (0xFFFFFFFFFFFFFFFF, 0, 0)
    | 0x20040 => some (0x1FFFF, 0, 0)
    | 0x20048 => some (0x000001FF0000FFFF, 0, 0x11000000040)
    | 0x20050 => some (0x8000000000003FFF, 0, 0x8000000000000100)
    | 0x20060 => some (0xFFFF000F, 0, 0)
    | _ => none
  | 6 => regT6 (off - 0x30000)
  | 7 => regT7 (off - 0x40000)
  | 8 =>
    match off with
    | 0x50000 => some (0x0CFF7F0000000000, 0, 0x0400010000000000)
    | 0x50008 => some (0xC3FF0000FFFFFFFF, 0, 0)
    | 0x50018 => some (0xFFFFFFFFFFFFF000, 0, 0)
    | 0x50020 => some (0x80FFFFFF00FFFFFF, 0, 0)
    | 0x50028 => some (0x00FF000000000000, 0, 0)
    | _ => none
  | 9 => regT9 (off - 0x60000)
  | 10 =>
    match off with
    | 0x70008 => some (0x8000000000000000, 0, 0)
    | 0x70018 => some (0xFFFFFFFF, 0, 0)
    | 0x70020 => some (0xFFFF, 0, 0)
    | _ => none
  | _ => none

/-- The staged fields of a register: as staged, or as in force where nothing has been staged since (R15, R497). -/
def stagedOf (d : Dev) (off : Nat) : Word64 :=
  match regT off with
  | some (_, rs, r) => (tget d.stg off).getD (regInForce d off r &&& rs)
  | none => 0

/-- The stored part of a register as a read returns it: RS fields read their staged value (R15). -/
def storedRead (d : Dev) (off : Nat) : Word64 :=
  match regT off with
  | some (rw, _, r) => (regInForce d off r &&& rw) ||| stagedOf d off
  | none => 0

/-! ### Reads of each block: `m` is the sample of the last completed tick (R487) -/

/-- PACE_STAT (R34). -/
def paceStat (m : Dev) : Word64 :=
  ins 48 (BitVec.ofInt 10 m.therm.tjMax).toNat ||| ins 36 m.pace.vdd ||| ins 34 (b2n m.pace.below)
  ||| ins 33 (b2n (m.pace.vdd == tgtVmax m && slow m)) ||| ins 32 (b2n (m.pace.vdd == tgtVmin m && quick m))
  ||| ins 16 (paceMin m.pace) ||| ins 0 m.pace.now

/-- MODE_STAT (R458). -/
def modeStat (d m : Dev) : Word64 :=
  ins 32 (fld m.modeSt.time 10 32) ||| ins 18 (b2n d.strap.recovery) ||| ins 16 d.strap.bootSrc.toNat
  ||| ins 12 d.strap.role.toNat ||| ins 8 m.modeSt.cause ||| ins 4 (modeCode m.modeSt.prev) ||| ins 0 (modeCode m.mode)

/-- FW_STAT (R458). -/
def fwStat (d m : Dev) : Word64 :=
  ins 48 (ifGen d) ||| ins 32 (imgField d.boot.image 0x12 2) ||| ins 24 (imgField d.boot.image 12 1) ||| ins 16 d.fuse.svn
  ||| ins 12 m.boot.act ||| ins 9 (b2n d.boot.slotRun) ||| ins 8 (b2n (slotPref d)) ||| ins 4 (bootFails d)
  ||| ins 3 (b2n d.boot.service) ||| ins 2 (b2n d.fuse.key0Revoked) ||| ins 0 (imgField d.boot.image 13 1 % 4)

/-- MPE_STAT (R193). -/
def mpeStat (m : Dev) : Word64 :=
  ins 40 ((servedSlot m 33).getD 0x3F) ||| ins 34 ((servedSlot m 32).getD 0x3F) ||| ins 33 (b2n (m.eng.failed.testBit 33))
  ||| ins 32 (b2n (m.eng.failed.testBit 32)) ||| ins 0 m.eng.lost

/-- MiB of the function partition allocated (R486). -/
def funcUsed (m : Dev) : Nat := ((allFns m).map (hbmUse m)).sum / 1048576

/-- MiB of the device pool allocated (R486). -/
def poolUsed (m : Dev) : Nat := poolBase m / 1048576 + (if m.ink.st = 0 then 0 else m.ink.gib * 1024)

/-- Block 0 (R484). -/
def read0 (d m : Dev) (off : Nat) : Word64 :=
  match off with
  | 0x000 => BitVec.ofNat 64 (devId d)
  | 0x008 => BitVec.ofNat 64 devStep
  | 0x010 => d.fuse.unitId
  | 0x020 => modeStat d m
  | 0x028 => storedRead d off ||| ins 2 (b2n (!hasOwner m))
  | 0x030 => paceStat m
  | 0x048 => fwStat d m
  | 0x300 => mpeStat m
  | 0x308 => ins 0 (m.eng.failed % 2 ^ 32)
  | 0x318 => ins 48 d.mtc.noteDrop.sampled ||| ins 24 (blocksUsed m) ||| ins 0 (entriesUsed m)
  | 0x328 =>
    ins 56 m.tre.failed ||| ins 48 d.tre.refused.sampled ||| ins 32 (opsBound m true) ||| ins 16 (opsBound m false)
    ||| ins 0 d.tre.discards.sampled
  | 0x330 => storedRead d off ||| ins 24 (slotsUsed m)
  | 0x348 => ins 32 (funcUsed m) ||| ins 0 (poolUsed m)
  | 0x350 =>
    ins 48 d.xpt.crcFail.sampled ||| ins 32 d.xpt.outWindow.sampled ||| ins 16 d.xpt.srcMismatch.sampled
    ||| ins 0 d.xpt.stray.sampled
  | _ => storedRead d off

/-- Block 1: a function's admin queue block and status page (R55, R56). -/
def read1 (d m : Dev) (f : FnId) (off : Nat) : Word64 :=
  let x := getFn d f
  match off with
  | 0x1000 => x.aqBase
  | 0x1008 =>
    ins 63 (b2n x.aqEnable) ||| ins 62 (b2n x.aqHalted.isSome)
    ||| ins 48 (match x.aqHalted with | some s => (statusCode s).toNat | none => 0) ||| ins 0 x.aqLog2
  | 0x1010 => x.acqBase
  | 0x1018 => ins 63 (b2n x.acqEnable) ||| ins 27 (b2n x.acqIen) ||| ins 16 x.acqVec ||| ins 0 x.acqLog2
  | 0x1030 => x.aqWb
  | 0x2000 => fnStatWord x
  | 0x2008 => ins 16 x.domain.toNat ||| ins 11 (b2n x.errEn) ||| ins 0 x.errVec
  | 0x2010 => (getFn m f).dbDrop.setWidth 64
  | 0x2018 => (getFn m f).domDrop.setWidth 64
  | _ => 0

/-- FLT_STAT_n (R432). -/
def fltStat (r : FltRec) : Word64 :=
  ins 63 (b2n r.valid) ||| ins 60 (if r.valid then clsCode r.cls else 0) ||| ins 59 (b2n r.merged) ||| ins 58 (b2n r.masked)
  ||| ins 48 r.cause ||| ins 32 r.count ||| ins 0 r.corr

/-- Block 2: the fault collector (R428 to R434). -/
def read2 (d : Dev) (off : Nat) : Word64 :=
  if off < 0x5000 then
    match off with
    | 0x4000 => storedRead d off
    | 0x4008 =>
      match fltFirst d with
      | some (s, r) => ins 63 1 ||| ins 56 (clsCode r.cls) ||| ins 48 r.cause ||| ins 0 s
      | none => 0
    | 0x4010 => match fltFirst d with | some (_, r) => r.time | none => 0
    | 0x4018 => ins 32 d.flt.corrTotal ||| ins 16 (recsOf d .fatal).length ||| ins 0 (recsOf d .contained).length
    | _ =>
      if 0x4100 ≤ off ∧ off < 0x4140 then
        let k := (off - 0x4100) / 8
        BitVec.ofNat 64 ((List.range 64).foldl (fun n i => if (getRec d (64 * k + i)).valid then n + 2 ^ i else n) 0)
      else 0
  else
    let n := off % 0x1000 / 8
    if !knownSource d n then 0
    else
      let r := getRec d n
      if off < 0x6000 then fltStat r
      else if off < 0x7000 then ins 32 (fld r.time 10 32) ||| ins 24 r.detail.toNat ||| ins 0 r.object.toNat
      else ins 1 r.fclass

/-- Offset in the factory layer of a quantity of a layer's offset, where there is one (R459). -/
def calPlace (o : Nat) : Option Nat := if o < 0x120 then some o else none

/-- Block 3: calibration (R459). -/
def read3 (d : Dev) (off : Nat) : Word64 :=
  let o := off - 0x8000
  if o = 0x600 then ins 1 (b2n d.boot.calDefault) ||| ins 0 (b2n d.boot.calLoaded)
  else if o < 0x200 then (match calPlace o with | some k => calFac d k | none => 0)
  else if o < 0x400 then storedRead d off
  else if o < 0x600 then (match calPlace (o - 0x400) with | some k => calEff d k | none => 0)
  else 0

/-- Block 4: a fabric port (R321 to R328). -/
def read4 (d m : Dev) (off : Nat) : Word64 :=
  let p := (off - 0x10000) / 0x100
  let x := getPort d p
  let y := getPort m p
  let tj := fun (l : LaneSt) => (BitVec.ofInt 10 l.trainTj).toNat
  let two := fun (a b : Bool) => b2n a + 2 * b2n b
  match off % 0x100 with
  | 0x00 => storedRead d off
  | 0x08 =>
    ins 61 (portStCode y.st) ||| ins 59 (y.rung - 1) ||| ins 57 y.width ||| ins 56 (if y.width = 1 then y.lane else 0)
    ||| ins 54 (two y.l0.los y.l1.los) ||| ins 52 (two y.l0.lol y.l1.lol) ||| ins 50 (two y.l0.fail y.l1.fail)
    ||| ins 49 (b2n (y.annPeer == some false)) ||| ins 48 (b2n y.eqDefault) ||| ins 38 (tj y.l0) ||| ins 28 (tj y.l1)
    ||| ins 24 y.cmdStatus ||| ins 0 y.downCount
  | 0x10 => ins 40 y.l0.symWin ||| ins 24 x.l0.uncorr.sampled ||| ins 8 x.l0.bip.sampled
  | 0x18 => ins 40 y.l1.symWin ||| ins 24 x.l1.uncorr.sampled ||| ins 8 x.l1.bip.sampled
  | 0x20 =>
    ins 48 x.crcFail.sampled ||| ins 32 x.replays.sampled ||| ins 16 x.timerReplays.sampled ||| ins 0 x.changes.sampled
  | 0x28 => y.unitId
  | 0x30 => y.info
  | 0x38 => y.l0.eq
  | 0x40 => y.l1.eq
  | _ => 0

/-- Code of a bank's state (R256). -/
def bankCode : BankSt → Nat
  | .idle => 0 | .armed => 1 | .retiring => 2

/-- Block 5: routes and trees (R268 to R277). -/
def read5 (d m : Dev) (off : Nat) : Word64 :=
  match off with
  | 0x20000 => storedRead d off ||| ins 0 (b2n d.rt.stamp)
  | 0x20008 =>
    ins 32 m.rt.stampTime.toNat ||| ins 24 m.rt.cmdErr ||| ins 16 (b2n m.rt.stamp) ||| ins 8 (bankCode m.rt.bankB)
    ||| ins 0 (bankCode m.rt.bankA)
  | 0x20010 => storedRead d off ||| ins 48 m.rt.tblStatus
  | 0x20058 => ins 16 d.rt.fullWaits.sampled ||| ins 0 (m.rt.win.filter fun e => decide (0 < e.bytes)).length
  | 0x20060 => storedRead d off ||| ins 8 m.rt.drained
  | 0x20068 =>
    ins 48 d.rt.noroute.sampled ||| ins 32 d.rt.badEpoch.sampled ||| ins 16 d.rt.aged.sampled ||| ins 0 d.rt.hop.sampled
  | 0x20070 => ins 32 d.rt.reachRefused.sampled ||| ins 16 d.rt.destDownSent.sampled ||| ins 0 d.rt.nibStall.sampled
  | _ => storedRead d off

/-- Block 6: traffic control (R343 to R347). -/
def read6 (d m : Dev) (off : Nat) : Word64 :=
  let o := off - 0x30000
  if 0x2000 ≤ o ∧ o < 0x2800 ∧ o % 0x20 = 0x10 then
    let p := (o - 0x2000) / 0x20
    let g := getGate m p
    ins 17 (b2n g.pend.isSome) ||| ins 16 (b2n g.run.isSome) ||| ins 8 (gateMask m p) ||| ins 0 g.entry
  else storedRead d off

/-- A ring's status (R480). -/
def ringStat (r : Ring) : Word64 := ins 63 (b2n r.running) ||| ins 60 r.stop ||| ins 32 (min 0xFFFF r.missed) ||| r.written.setWidth 64

/-- A word of 48 bits. -/
def w48 (n : Nat) : Word64 := BitVec.ofNat 64 (n % 2 ^ 48)

/-- Block 7: the performance monitor (R480). -/
def read7 (d m : Dev) (off : Nat) : Word64 :=
  let o := off - 0x40000
  if o = 0x28 then ringStat m.pmu.dump
  else if o = 0x48 then ringStat m.pmu.tag
  else if 0x400 ≤ o ∧ o < 0x480 then BitVec.ofNat 64 (d.pmu.ovf / 2 ^ (8 * (o - 0x400)))
  else if 0x4000 ≤ o ∧ o < 0x6000 then w48 ((tget m.pmu.cnt ((o - 0x4000) / 8)).getD 0)
  else if 0x6000 ≤ o ∧ o < 0x6800 then
    let y := getPort m ((o - 0x6000) / 32)
    w48 (match o % 32 with | 0 => y.txb | 8 => y.txp | 16 => y.rxb | _ => y.rxp)
  else if 0x6800 ≤ o ∧ o < 0x6C00 then
    let y := getPort m ((o - 0x6800) / 16)
    w48 (if o % 16 = 0 then y.bwTx else y.bwRx)
  else if 0x7000 ≤ o ∧ o < 0x7440 then w48 ((tget m.pmu.td ((o - 0x7000) / 8)).getD 0)
  else storedRead d off

/-- PAGES: the full segments' and those of the segment in progress that are whole. (DESIGN CHOICE, log entry 120) -/
def inkPages (i : Ink) : Nat :=
  let part := match tget i.segs i.current with
    | some s => if s.full || i.st = 0 then 0 else (segBytes s).length / 4096
    | none => 0
  satAdd 0xFFFFFF i.pages part

/-- Block 8: Inkwell (R481). -/
def read8 (d m : Dev) (off : Nat) : Word64 :=
  let i := m.ink
  match off with
  | 0x50010 =>
    let damaged := i.segs.foldl (fun n s => if s.2.damaged then n + 2 ^ s.1 else n) 0
    ins 60 i.st ||| ins 56 i.stop ||| ins 48 damaged ||| ins 45 i.oldest ||| ins 42 i.current ||| ins 36 i.err ||| ins 0 (inkPages i)
  | 0x50030 => ins 61 i.result ||| w48 i.cmpOps
  | 0x50038 => w48 i.divIndex
  | 0x50040 => i.divField
  | 0x50048 => i.divReplay
  | 0x50050 => w48 i.divPos
  | _ => storedRead d off

/-- HB_AGE: milliseconds since the last heartbeat, saturating (R378). -/
def hbAge (m : Dev) : Nat := match m.svc.hbAt with | some t => min 255 ((m.clk.now - t) / 1000000) | none => 255

/-- Block 9: service ports, fabric manager, fabric time (R375 to R380). -/
def read9 (d m : Dev) (off : Nat) : Word64 :=
  let o := off - 0x60000
  if o < 0x80 then
    let n := o / 0x20
    let x := getSvc d n
    let y := getSvc m n
    match o % 0x20 with
    | 0x00 => storedRead d off
    | 0x08 => ins 62 y.link ||| ins 60 y.speed ||| ins 58 (svcRole m n) ||| ins 0 y.downCount
    | 0x10 =>
      ins 48 x.crcFail.sampled ||| ins 32 x.resends.sampled ||| ins 16 x.codeErr.sampled ||| ins 0 x.drops.sampled
    | _ => y.partner
  else match o with
    | 0x108 =>
      ins 32 m.svc.term ||| ins 30 m.svc.role ||| ins 28 (m.svc.upstream.getD 0) ||| ins 27 (b2n m.svc.upstream.isSome)
      ||| ins 26 (b2n m.svc.lease) ||| ins 8 m.svc.depth ||| ins 0 (hbAge m)
    | 0x110 => m.svc.unit
    | 0x138 => ins 16 m.svc.rx.length ||| ins 0 d.svc.rxDrops.sampled
    | 0x208 =>
      ins 32 (BitVec.ofInt 32 m.ft.offset).toNat ||| ins 16 m.ft.delay ||| ins 15 (b2n m.ft.locked)
      ||| ins 14 (b2n m.ft.holdover) ||| ins 13 (b2n m.ft.ppsSeen)
    | _ => storedRead d off

/-- Every register outside block 1 that holds staged fields, by block (R497). -/
def stagedRegs (b : Nat) : List Nat :=
  match b with
  | 0 => [0x38, 0x200, 0x310, 0x320, 0x330, 0x340] ++ ([0, 1, 2, 3].flatMap fun p =>
      (List.range 8).flatMap fun i => [0x400 + p * 0x100 + i * 0x10, 0x408 + p * 0x100 + i * 0x10])
  | 4 => allPorts.map fun p => 0x10000 + p * 0x100
  | 6 => 0x30000 :: (allPorts.map fun p => 0x31000 + 8 * p)
      ++ allPorts.flatMap fun p => [0x32000 + 0x20 * p, 0x32008 + 0x20 * p]
  | _ => []

/-- A staged entry of a port's gate list (R345). -/
def stagedEnt (t : Tbl GateEnt) (p i : Nat) : GateEnt := (tget t (p * 256 + i)).getD {}

/-- TC_GATE_n_CTL in force. -/
def gateCtl (d : Dev) (p : Nat) : Word64 := regInForce d (0x32000 + 0x20 * p) 0

/-- The list last committed for a port, whether its first cycle has started or not. -/
def gateList (d : Dev) (p : Nat) : GateList :=
  match (getGate d p).pend with
  | some l => l
  | none => ((getGate d p).run).getD {}

/-- Block b holds staged values that differ from its in-force set (R500). -/
def pendingBlk (d : Dev) (b : Nat) : Bool :=
  ((stagedRegs b).any fun off =>
    match regT off with
    | some (_, rs, r) => (regInForce d off r &&& rs) != stagedOf d off
    | none => false)
  || (b == 6 && d.tc.gclStg.any fun e => (tget d.tc.gclIn e.1).getD {} != e.2)

/-- Blocks of a list as a mask. -/
def blkMask (l : List (Nat × Nat)) : Nat := (List.range 11).foldl (fun n b => if l.any (fun x => x.1 == b) then n + 2 ^ b else n) 0

/-- Block 10: configuration integrity (R500, R501). -/
def read10 (d m : Dev) (off : Nat) : Word64 :=
  match off with
  | 0x70000 =>
    ins 63 (b2n m.cfg.busy) ||| ins 62 (b2n d.cfg.err.isSome)
    ||| (match d.cfg.err with | some (b, c) => ins 56 b ||| ins 48 c | none => 0)
    ||| ins 32 (b2n (pendingBlk m 0) + b2n (pendingBlk m 4) * 2 ^ 4 + b2n (pendingBlk m 6) * 2 ^ 6)
  | 0x70010 => ins 32 (b2n m.cfg.crcValid) ||| ins 0 m.cfg.crcNow.toNat
  | 0x70028 => ins 63 (b2n m.cfg.mismatch) ||| ins 62 (b2n m.cfg.inGrace) ||| ins 0 (fld m.cfg.lastWrite 10 32)
  | 0x70030 => ins 0 (b2n d.cfg.lock)
  | 0x70038 => ins 32 (blkMask m.cfg.stagedBad) ||| ins 0 m.cfg.fenced
  | _ => storedRead d off

/-- MTR_RDk_STAT (R395, R408). -/
def rdStat (d : Dev) (k : Fin 2) : Word64 :=
  let r := getReader d.isl k
  match selBytes d r with
  | none => ins 63 (b2n r.ready)
  | some bs =>
    let done := match selBlock d.isl r with | some b => allRead d.fuse.unitId b | none => false
    ins 63 (b2n r.ready) ||| ins 62 1 ||| ins 61 (b2n done) ||| ins 0 bs.length

/-- SLEW_LEFT in microseconds, toward zero. -/
def slewLeft (i : Isl) : Int := i.slew.tdiv 100000000000

/-- WR_IGNORED. -/
def wrIgnored (i : Isl) : Nat := satAdd 0xFFFF i.wrIgnored.sampled i.wrIgnored.since

/-- The island has logged nothing yet, not even a power-up: PARAM_CRC, FREE and the firmware digest stand at their reset values
(R408). (DEDUCED, log entry 160) -/
def unstarted (i : Isl) : Bool := i.audit.isEmpty

/-- The meter export block (R408); on a device without metering everything reads 0 (R2). -/
def readMtr (d : Dev) (off : Nat) : Word64 :=
  let i := d.isl
  let o := off - 0x80000
  if !d.fuse.meter then 0
  else match o with
    | 0x00 => ins 32 i.fwVersion ||| ins 0 d.fuse.typeId.toNat
    | 0x08 =>
      ins 48 (wrIgnored i) ||| ins 40 (islandCause i) ||| ins 39 (b2n i.full) ||| ins 38 (b2n (islandCause i != 0))
      ||| ins 37 (b2n i.timeUnset) ||| ins 36 (b2n i.sealOpen) ||| ins 35 (b2n (i.slew != 0))
    | 0x10 => ins 0 i.sealCount
    | 0x18 => if unstarted i then 0 else ins 0 (paramCrc i).toNat
    | 0x20 => BitVec.ofNat 64 i.time
    | 0x38 => ins 60 i.adjResult ||| ins 32 (1000000 - adjUsed i) ||| ins 0 (BitVec.ofInt 32 (slewLeft i)).toNat
    | 0x40 => w48 (((i.blocks.filter (·.signed)).map (·.seq)).foldl max 0)
    | 0x48 => w48 i.acked
    | 0x58 =>
      ins 48 (i.blocks.filter fun b => b.signed && decide (i.acked < b.seq)).length ||| ins 32 (pagesFree i)
      ||| (match i.opened with
          | some b => ins 16 b.span ||| ins 0 (closeRecs b).length
          | none => 0)
    | 0x60 => i.rd0.sel
    | 0x68 => rdStat d 0
    | 0x70 => i.rd1.sel
    | 0x78 => rdStat d 1
    | 0x80 => d.fuse.mtrTrim.setWidth 64
    | 0x88 => i.trimUsr.setWidth 64
    | 0x90 => (BitVec.ofInt 21 i.trimEff).setWidth 64
    | 0x98 => i.operator
    | 0xA0 => if unstarted i then 0 else ins 48 (min 0xFFFF (32768 - i.audit.length)) ||| w48 i.audit.length
    | 0xA8 => ins 56 i.fwStatus ||| ins 0 i.fwOffset
    | _ =>
      if 0x100 ≤ o ∧ o < 0x140 then if unstarted i then 0 else BitVec.ofNat 64 (leNat (((Config.sha512 i.fwRun).drop (o - 0x100)).take 8))
      else if 0x1000 ≤ o ∧ o < 0x2000 then windowWord d 0 ((o - 0x1000) / 8)
      else if 0x2000 ≤ o ∧ o < 0x3000 then windowWord d 1 ((o - 0x2000) / 8)
      else 0

/-- A register of a function's window by its base copy. -/
def readReg (d m : Dev) (f : FnId) (off : Nat) : Word64 :=
  match blockOf off with
  | 0 => read0 d m off
  | 1 => read1 d m f off
  | 2 => read2 d off
  | 3 => read3 d off
  | 4 => read4 d m off
  | 5 => read5 d m off
  | 6 => read6 d m off
  | 7 => read7 d m off
  | 8 => read8 d m off
  | 9 => read9 d m off
  | 10 => read10 d m off
  | _ => readMtr d off

/-! ### Counters that a read clears (R488) -/

/-- A counter is reduced by the value the read returned. -/
def CorCnt.taken (c : CorCnt) : CorCnt := { c with sampled := 0 }

/-- A counter is reduced where the read returns the half it stands in. -/
def CorCnt.takenIf (on : Bool) (c : CorCnt) : CorCnt := if on then c.taken else c

/-- What a read of the low or the high half of a register takes from its counters. -/
def clearRead (off : Nat) (lo hi : Bool) (d : Dev) : Dev :=
  if off = 0x318 then { d with mtc := { d.mtc with noteDrop := d.mtc.noteDrop.takenIf hi } }
  else if off = 0x328 then
    { d with tre := { d.tre with refused := d.tre.refused.takenIf hi, discards := d.tre.discards.takenIf lo } }
  else if off = 0x350 then
    { d with xpt := { d.xpt with
      crcFail := d.xpt.crcFail.takenIf hi, outWindow := d.xpt.outWindow.takenIf hi
      srcMismatch := d.xpt.srcMismatch.takenIf lo, stray := d.xpt.stray.takenIf lo } }
  else if off = 0x20058 then { d with rt := { d.rt with fullWaits := d.rt.fullWaits.takenIf (lo && hi) } }
  else if off = 0x20068 then
    { d with rt := { d.rt with
      noroute := d.rt.noroute.takenIf hi, badEpoch := d.rt.badEpoch.takenIf hi, aged := d.rt.aged.takenIf lo
      hop := d.rt.hop.takenIf lo } }
  else if off = 0x20070 then
    { d with rt := { d.rt with
      reachRefused := d.rt.reachRefused.takenIf hi, destDownSent := d.rt.destDownSent.takenIf lo
      nibStall := d.rt.nibStall.takenIf lo } }
  else if off = 0x60138 then { d with svc := { d.svc with rxDrops := d.svc.rxDrops.takenIf lo } }
  else if off = 0x80008 then (if hi then updIsl (fun i => { i with wrIgnored := {} }) d else d)
  else if 0x60000 ≤ off ∧ off < 0x60080 ∧ off % 0x20 = 0x10 then
    updSvc ((off - 0x60000) / 0x20) (fun x => { x with
      crcFail := x.crcFail.takenIf hi, resends := x.resends.takenIf hi, codeErr := x.codeErr.takenIf lo
      drops := x.drops.takenIf lo }) d
  else if 0x10000 ≤ off ∧ off < 0x14000 then
    let p := (off - 0x10000) / 0x100
    let lane := fun (l : LaneSt) => { l with uncorr := l.uncorr.takenIf (lo && hi), bip := l.bip.takenIf lo }
    match off % 0x100 with
    | 0x10 => updPort p (fun x => { x with l0 := lane x.l0 }) d
    | 0x18 => updPort p (fun x => { x with l1 := lane x.l1 }) d
    | 0x20 => updPort p (fun x => { x with
        crcFail := x.crcFail.takenIf hi, replays := x.replays.takenIf hi, timerReplays := x.timerReplays.takenIf lo
        changes := x.changes.takenIf lo }) d
    | _ => d
  else d

/-- A reader's window word that is read counts toward its page (R395). -/
def windowRead (off : Nat) (lo hi : Bool) (d : Dev) : Dev :=
  if 0x81000 ≤ off ∧ off < 0x83000 then
    updIsl (markRead (if off < 0x82000 then 0 else 1) ((off % 0x1000) / 8) (b2n lo + b2n hi * 2)) d
  else d

/-- A read of a register by its base copy: the halves asked for, and what the read takes. An island without its supply, and
a window before READY, return free values (log entry 5). -/
def readAccess (m : Dev) (f : FnId) (off : Nat) (lo hi : Bool) (d : Dev) : Word64 × Dev :=
  let half := fun (v : Word64) => (if lo then v &&& 0xFFFFFFFF else 0) ||| (if hi then v &&& 0xFFFFFFFF00000000 else 0)
  let unready := decide (0x81000 ≤ off ∧ off < 0x83000) && !(getReader d.isl (if off < 0x82000 then 0 else 1)).ready
  if decide (0x80000 ≤ off) && d.fuse.meter && (!d.isl.powered || unready) then
    let v := takeFree d
    (half v.1, v.2)
  else if decide (0x80000 ≤ off) && !d.fuse.meter then (0, d)
  else (half (readReg d m f off), windowRead off lo hi (clearRead off lo hi d))

/-! ### Who reaches what (R49, R268, R370) -/

/-- Where a master's accesses go: a function's own window, the fabric manager's the owner function's (R361).
(DEDUCED, log entry 44) -/
def windowOf (d : Dev) : Master → FnId
  | .fn f => f
  | .fabricManager => pfOf (ownerPort d)

/-- A master reaches a register by its base copy, for a read (R49). -/
def mayReach (d : Dev) (m : Master) (off : Nat) : Bool :=
  match m with
  | .fabricManager => true
  | .fn f => isOwner d f || blockOf off == 1 || (f.num.val == 0 && blockOf off == 0)

/-- A register that only the fabric manager writes (R268, R321, R343, R370, R375, R458). -/
def fabricOwned (off : Nat) : Bool :=
  off == 0x40 || off == 0x320 || off == 0x330 || blockOf off == 4 || (blockOf off == 5 && off != 0x20060) || blockOf off == 6
  || (blockOf off == 9 && off != 0x60100)

/-- A master's write of a register by its base copy counts (R49, R370). -/
def mayWriteReg (d : Dev) (m : Master) (off : Nat) : Bool :=
  match m with
  | .fabricManager => blockOf off != 1
  | .fn f => if blockOf off = 1 then fnExists d f else mayWrite d m && !fabricOwned off

end Sys2Proof.Machine
end

