-- ==== Sys2Proof/Machine/Cfg.lean ====
section
/-!
DEFINITION. Configuration integrity and writes (R15, R16, R54, R482 to R501): what a write of each register does, staged
fields and their commit, the running checksum, parity fences, and reads that clear.
-/
namespace Sys2Proof.Machine

open Sys2Proof

/-! ### Writes of registers -/

/-- The staged fields a write reaches (R15); the register counts as written since any mismatch of either copy (R491, R492).
(DEDUCED, log entry 111) -/
def stageReg (off : Nat) (w : Wr) (d : Dev) : Dev :=
  match regT off with
  | some (_, rs, _) =>
    { d with
      stg := tput d.stg off (mergeWr (stagedOf d off) rs w)
      cfg := { d.cfg with
        bad := d.cfg.bad.filter fun x => x != (blockOf off, off)
        stagedBad := d.cfg.stagedBad.filter fun x => x != (blockOf off, off) } }
  | none => d

/-- A write of a register whose fields only store: RW in force, RS staged; anything else is ignored (R15, R483). -/
def storeReg (off : Nat) (w : Wr) (d : Dev) : Dev :=
  match regT off with
  | some (rw, rs, r) =>
    let d1 := if rw = 0 then d else putReg off r (mergeWr (regInForce d off r) rw w) d
    if rs = 0 then d1 else stageReg off w d1
  | none => d

/-- The changes CMD codes of PORT_n_CTL ask for (R323). -/
def portCmdCode (p c : Nat) (d : Dev) : Dev :=
  match c with
  | 1 => portCmd p { kind := 1, lane := 0 } d
  | 2 => portCmd p { kind := 1, lane := 1 } d
  | 3 => portCmd p { kind := 2 } d
  | 4 => portCmd p { kind := 3, lane := 0 } d
  | 5 => portCmd p { kind := 3, lane := 1 } d
  | 6 => portRestart p d
  | _ => d

/-- A write of PORT_n_CTL (R322, R323). -/
def portCtlWrite (p : Nat) (w : Wr) (d : Dev) : Dev :=
  let off := 0x10000 + p * 0x100
  let d1 := stageReg off w (putPortCtl p (mergeWr (portCtl d p) 0xF000FFFFFFFFFF7F w) d)
  if bit (wrBits w).2 63 then portCmdCode p (fld (wrBits w).1 52 4) d1 else d1

/-- A write of an admin queue register or of the status page (R55, R56); doorbells are not among them. -/
def fnRegWrite (f : FnId) (off : Nat) (w : Wr) (d : Dev) : Dev :=
  let x := getFn d f
  let open56 := fun (g : Fn → Fn) => if x.aqEnable then d else setFn f (g x) d
  match off with
  | 0x1000 => open56 fun x => { x with aqBase := mergeWr x.aqBase 0xFFFFFFFFFFFFF000 w }
  | 0x1008 => aqCfgWrite f w d
  | 0x1010 => open56 fun x => { x with acqBase := mergeWr x.acqBase 0xFFFFFFFFFFFFF000 w }
  | 0x1018 => acqCfgWrite f w d
  | 0x1030 => open56 fun x => { x with aqWb := mergeWr x.aqWb 0xFFFFFFFFFFFFFFF8 w }
  | 0x2000 =>
    let ones := ((wrBits w).1 &&& (wrBits w).2).setWidth 7
    let c := x.statClass &&& ~~~ (ones &&& ~~~ x.statNew)
    setFn f { x with statClass := c, statMerged := if c = 0 then 0 else x.statMerged } d
  | 0x2008 =>
    let v := mergeWr (ins 11 (b2n x.errEn) ||| ins 0 x.errVec) 0xFFF w
    setFn f { x with errEn := bit v 11, errVec := fld v 0 11 } d
  | _ => d

/-- A write of a record's registers (R432, R434). -/
def fltRegWrite (off : Nat) (w : Wr) (d : Dev) : Dev :=
  let n := off % 0x1000 / 8
  let v := (wrBits w).1 &&& (wrBits w).2
  if off < 0x5000 then storeReg off w d
  else if !knownSource d n then d
  else if off < 0x6000 then
    let d1 := if bit v 62 then clearCorr n d else d
    if bit v 63 then clearRec n d1 else d1
  else if off < 0x7000 || !bit (wrBits w).2 0 then d
  else
    let d1 := if bit v 0 then fltForce n (fld v 1 2) d else putFclass n (fld v 1 2) d
    if bit v 3 && bit (fltCtl d1) 0 && !fencedBlk d1 2 then reportPath n d1 else d1

/-- A write of PMU_OVFm: the bits written 1 are cleared (R480), unless the counters stand still (R461). -/
def ovfWrite (m : Nat) (w : Wr) (d : Dev) : Dev :=
  let ones := ((wrBits w).1 &&& (wrBits w).2).toNat <<< (64 * m)
  if counted d 1 = 0 then d else { d with pmu := { d.pmu with ovf := d.pmu.ovf - Nat.land d.pmu.ovf ones } }

/-- A write of CFG_COMMIT (R498): the staged values of that moment are what the next tick commits; ignored while BUSY.
(DEDUCED, log entry 113) -/
def commitWrite (w : Wr) (d : Dev) : Dev :=
  let n := fld ((wrBits w).1 &&& (wrBits w).2) 0 11
  if n = 0 || d.cfg.busy then d
  else { d with cfg := { d.cfg with commit := some n, busy := true, snap := d.stg, snapGcl := d.tc.gclStg } }

/-- A write of CFG_CRC_CTL: CRC_EN until LOCK is set, and CAPTURE (R496, R501). -/
def crcCtlWrite (w : Wr) (d : Dev) : Dev :=
  let d1 := if d.cfg.lock then d else storeReg 0x70008 w d
  if bit ((wrBits w).1 &&& (wrBits w).2) 62 then { d1 with cfg := { d1.cfg with capture := true } } else d1

/-- Block 10 (R496, R500, R501). -/
def cfgRegWrite (off : Nat) (w : Wr) (d : Dev) : Dev :=
  match off with
  | 0x70000 => commitWrite w d
  | 0x70008 => crcCtlWrite w d
  | 0x70018 =>
    let d1 := storeReg off w d
    if bit (wrBits w).2 0 then { d1 with cfg := { d1.cfg with capture := false } } else d1
  | 0x70020 => if d.cfg.lock then d else storeReg off w d
  | 0x70030 => if bit ((wrBits w).1 &&& (wrBits w).2) 0 then { d with cfg := { d.cfg with lock := true } } else d
  | _ => d

/-- What one access to a register does: its own action. MODE_CTL's belongs to COMMAND (R458), and the doorbells' to their
rows. -/
def regAction (f : FnId) (off : Nat) (w : Wr) (d : Dev) : Dev :=
  match blockOf off with
  | 0 => if off = 0x40 then fwCtlReg w d else storeReg off w d
  | 1 => fnRegWrite f off w d
  | 2 => fltRegWrite off w d
  | 4 => if off % 0x100 = 0 then portCtlWrite ((off - 0x10000) / 0x100) w d else d
  | 5 =>
    match off with
    | 0x20000 => epochCtlWrite w d
    | 0x20010 => tblAddrWrite w d
    | 0x20040 => coordWrite w d
    | 0x20060 => hpDrainWrite w d
    | _ => storeReg off w d
  | 6 => if off = 0x30010 then gclAddrWrite w d else storeReg off w d
  | 7 =>
    let o := off - 0x40000
    if o = 0x00 then pmuCtlWrite w d
    else if o = 0x08 then bwCtlWrite w d
    else if o = 0x10 then dumpCtlWrite w d
    else if o = 0x30 then tagCtlWrite w d
    else if 0x400 ≤ o ∧ o < 0x480 then ovfWrite ((o - 0x400) / 8) w d
    else if 0x2000 ≤ o ∧ o < 0x4000 then selWrite ((o - 0x2000) / 8) w d
    else storeReg off w d
  | 8 => if off = 0x50000 then inkCtlWrite w d else storeReg off w d
  | 9 =>
    let o := off - 0x60000
    if o < 0x80 then (if o % 0x20 = 0 then svcCtlWrite (o / 0x20) w d else d)
    else if o = 0x120 then leaseWrite w d
    else if o = 0x128 then svcRtAddrWrite w d
    else if o = 0x210 then ftSetWrite w d
    else storeReg off w d
  | 10 => cfgRegWrite off w d
  | 11 => meterWrite (off - 0x80000) w d
  | _ => storeReg off w d

/-- A write of a register by its base copy, whoever is allowed to make it (R14). -/
def writeReg (f : FnId) (off : Nat) (w : Wr) (d : Dev) : Dev := byHalves off (regAction f off) w d

/-- A write to the register window (R49, R482, R483, R370): through any alias, by a master that may make it. -/
def windowWrite (m : Master) (off : Nat) (w : Wr) (d : Dev) : Dev :=
  match baseOf off with
  | none => d
  | some b => if mayWriteReg d m b then writeReg (windowOf d m) b w d else d

/-- A write to the doorbell region that names no queue: counted (R54). -/
def badDoorbell (f : FnId) (d : Dev) : Dev := if dbLive d f then dropDb f d else d

/-- A write to the MSI-X table (R53). -/
def msixWrite (f : FnId) (i : Nat) (w : Wr) (d : Dev) : Dev :=
  if i < 4096 && fnExists d f then
    firePending f (updFn f (fun x => { x with msix := tput x.msix i (mergeWr (msixWord x i) 0xFFFFFFFFFFFFFFFF w) }) d)
  else d

/-- The host port whose BARs a master's accesses come through. -/
def portOf (d : Dev) : Master → Fin 4
  | .fn f => f.port
  | .fabricManager => ownerPort d

/-- An access through a BAR ends with Unsupported Request: its width or its alignment is none that R13 accepts, or its function is
in D3hot (R44). A COMMAND has no such access. (PRESUMED for D3hot, log entry 127) -/
def badAccess (d : Dev) (m : Master) (off : Nat) (other : Bool) : Bool :=
  match m with
  | .fn f => other || decide (off % 8 ≠ 0) || (getFn d f).pci.d3
  | .fabricManager => false

/-- REGISTER_WRITE (R13, R15): a write through a BAR at a register's offset: all of it or a half, or, none, in any other width.
Doorbells act as their own rows. A virtual function's BAR0 ends at 16 KiB (R53). (DEDUCED, log entry 43) -/
def execRegisterWrite (m : Master) (b : Bar) (off : Fin 0x200000) (w : Option Wr) (s : State) : Host.Outcome State Fault Refusal :=
  fabRow m (.registerWrite m b off w) s (if badAccess s.dev m off.val w.isNone then lift0 (emit (.unsupported (portOf s.dev m))) s
    else match w with
      | none => .next s
      | some w =>
        match b, m with
        | .bar0, .fn f =>
          if f.num.val ≠ 0 ∧ 0x4000 ≤ off.val then .next s
          else if baseOf off.val = some 0x1020 then execAqDb f w s
          else if baseOf off.val = some 0x1028 then execAcqDb f w s
          else lift (windowWrite m off.val w) s
        | .bar0, .fabricManager => if off.val % 8 ≠ 0 then .next s else lift (windowWrite m off.val w) s
        | .bar2, .fn f =>
          let i := off.val / 8
          if i < 0x10000 then execSqDoorbell f (Fin.ofNat 65536 i) w s
          else if i < 0x20000 then execCqDoorbell f (Fin.ofNat 65536 (i - 0x10000)) w s
          else if i < 0x21000 then execEqDoorbell f (Fin.ofNat 4096 (i - 0x20000)) w s
          else lift (badDoorbell f) s
        | .bar4, .fn f => lift (msixWrite f (off.val / 8) w) s
        | _, .fabricManager => .next s)

/-- The halves a read reaches. -/
def partLo : Part → Bool
  | .high => false
  | _ => true
def partHi : Part → Bool
  | .low => false
  | _ => true

/-- The halves of a word that a read returns. -/
def partOf (a : Part) (v : Word64) : Word64 :=
  (if partLo a then v &&& 0xFFFFFFFF else 0) ||| (if partHi a then v &&& 0xFFFFFFFF00000000 else 0)

/-- A read through BAR0: a register's value, by who may reach it; what a virtual function reads above its 16 KiB is 0. -/
def windowReadOf (mir : Dev) (m : Master) (off : Nat) (a : Part) (d : Dev) : Word64 × Dev :=
  let vf := match m with | .fn f => f.num.val != 0 | .fabricManager => false
  match baseOf off with
  | none => (0, d)
  | some b =>
    if (vf && decide (0x4000 ≤ off)) || !mayReach d m b then (0, d) else readAccess mir (windowOf d m) b (partLo a) (partHi a) d

/-- A read through BAR4: the MSI-X table, then the pending-bit array (R53). -/
def msixRead (d : Dev) (f : FnId) (off : Nat) : Word64 :=
  if off < 0x8000 then msixWord (getFn d f) (off / 8)
  else if off < 0x8100 then BitVec.ofNat 64 ((getFn d f).pba.toNat / 2 ^ (8 * (off - 0x8000)))
  else 0

/-- CLEAR_ON_READ (R13, R53, R54, R488): a read through a BAR at a register's offset: all of it or a half, or, none, in any other
width; the doorbell region reads 0. -/
def execClearOnRead (m : Master) (b : Bar) (off : Fin 0x200000) (a : Option Part) (s : State) : Host.Outcome State Fault Refusal :=
  fabRow m (.clearOnRead m b off a) s (lift0 (fun d =>
      if badAccess d m off.val a.isNone then emit (.unsupported (portOf d m)) d
      else match a with
        | none => d
        | some a =>
          match b, m with
          | .bar4, .fn f => emit (.readData (partOf a (msixRead d f off.val))) d
          | .bar2, .fn _ => emit (.readData 0) d
          | .bar0, _ =>
            let v := windowReadOf s.mir m off.val a d
            emit (.readData v.1) v.2
          | _, .fabricManager => d) s)

/-! ### Commits (R497 to R499) -/

/-- CFG_COMMIT (R498). -/
def execCfgCommit (m : Master) (w : Wr) (s : State) : Host.Outcome State Fault Refusal :=
  fabRow m (.cfgCommit m w) s (lift0 (fun d => if mayWrite d m then commitWrite w d else d) s)

/-- The staged fields a commit takes: those of the moment CFG_COMMIT was written. -/
def snapOf (d : Dev) (off : Nat) : Word64 :=
  match regT off with
  | some (_, rs, r) => (tget d.cfg.snap off).getD (regInForce d off r &&& rs)
  | none => 0

/-- A tree entry of either bank has ROLE 1 or 2. -/
def treesHeld (d : Dev) : Bool := d.rt.trA.any (fun e => e.2.present) || d.rt.trB.any (fun e => e.2.present)

/-- The code of the first check that fails, or 0. -/
def firstCode : List (Bool × Nat) → Nat
  | [] => 0
  | (bad, c) :: l => if bad then c else firstCode l

/-- The checks of block 0 (R36, R98, R101, R182, R234, R236, R486). (DEDUCED, log entry 112) -/
def checks0 (d : Dev) : List (Bool × Nat) :=
  let s := snapOf d
  let vmin := fld (s 0x38) 24 12
  let vmax := fld (s 0x38) 36 12
  let step := fld (s 0x38) 16 8
  let target := fld (s 0x38) 0 16
  let l2 := s 0x200
  let unexp := fld (s 0x310) 0 6
  let tmo := fld (s 0x320) 0 24
  let slot := fld (s 0x330) 0 5
  let quill := fld (s 0x340) 0 8
  let func := fld (s 0x340) 16 8
  let out := fun (lo hi n : Nat) => decide (n < lo ∨ hi < n)
  let excl := fun (off : Nat) => bit (s off) 0 && decide (fld (s (off + 8)) 12 52 < fld (s off) 12 52)
  let ink := if d.ink.st = 0 then 0 else d.ink.gib * gib
  let pool := (118 - quill - func) * gib
  [ (out 550 850 vmin || out 550 850 vmax || out 1 25 step || out 800 2600 target, 1),
    (decide (vmax < vmin), 2),
    (bit l2 63 && out 16 28 (fld l2 0 5), 1),
    ((stagedRegs 0).any fun off => decide (0x400 ≤ off) && off % 0x10 == 0 && excl off, 2),
    (out 1 32 unexp, 1),
    (out 0 0 tmo && decide (tmo ≤ 59), 1),
    (out 1 16 slot, 1),
    (out 1 8 quill || decide (118 < quill + func), 1),
    (unexp != fld (regInForce d 0x310 0x10) 0 6 && !d.mtc.recs.isEmpty, 4),
    (slot != fld (regInForce d 0x330 1) 0 5 && treesHeld d, 4),
    (decide (func * gib < ((allFns d).map (hbmUse d)).sum), 4),
    (decide (pool < l2Bytes l2 + unexp * gib + slot * gib + ink) || decide (pool < poolBase d + ink), 3) ]

/-- The check of block 4 (R321). -/
def checks4 (d : Dev) : List (Bool × Nat) :=
  [ (allPorts.any fun p => let v := snapOf d (0x10000 + p * 0x100); fld v 58 2 == 3 || fld v 56 2 == 0, 1) ]

/-- The list a commit stages for a port. -/
def snapList (d : Dev) (p : Nat) : GateList :=
  let c := snapOf d (0x32000 + 0x20 * p)
  { ents := (List.range (fld c 32 9)).map (stagedEnt d.cfg.snapGcl p), cycle := fld c 0 28
    base := (snapOf d (0x32008 + 0x20 * p)).toNat }

/-- The checks of block 6 (R342). -/
def checks6 (d : Dev) : List (Bool × Nat) :=
  let on := allPorts.filter fun p => bit (snapOf d (0x32000 + 0x20 * p)) 63
  [ ((allPorts.any fun p => (List.range 8).any fun c => fld (snapOf d (0x31000 + 8 * p)) (8 * c) 8 == 0)
      || on.any fun p =>
        let l := snapList d p
        decide (l.ents.length < 1 ∨ 256 < l.ents.length) || decide (l.cycle < 250 ∨ 250000000 < l.cycle)
          || l.ents.any (fun e => decide (e.dur < 8)), 1),
    (on.any fun p => let l := snapList d p; (l.ents.map (·.dur)).sum != l.cycle, 2) ]

/-- The code a named block is refused with, or 0 (R499). -/
def commitCode (d : Dev) (b : Nat) : Nat :=
  firstCode ((fencedBlk d b || fencedBlk d 10, 6) :: (d.cfg.stagedBad.any fun x => x.1 == b, 5)
    :: (match b with | 0 => checks0 d | 4 => checks4 d | 6 => checks6 d | _ => []))

/-- The lowest named block that is refused, with its code; any commit is while block 10 is fenced (R498).
(DEDUCED, log entry 110) -/
def commitFails (d : Dev) (n : Nat) : Option (Nat × Nat) :=
  ((List.range 11).filter n.testBit).findSome? fun b =>
    if b = 0 ∨ b = 4 ∨ b = 6 ∨ fencedBlk d 10 then
      let c := commitCode d b
      if c = 0 then none else some (b, c)
    else none

/-- A register takes its committed fields (R494, R498). -/
def commitReg (off : Nat) (d : Dev) : Dev :=
  match regT off with
  | some (_, rs, r) =>
    let old := regInForce d off r
    let v := (old &&& ~~~ rs) ||| snapOf d off
    let d1 : Dev := { d with
      regs := tput d.regs off v
      stg := if tget d.stg off = some (snapOf d off) then tdel d.stg off else d.stg }
    if v = old then d1 else noteWrite d1
  | none => d

/-- Every register of a block takes its committed fields. -/
def commitRegs (b : Nat) (d : Dev) : Dev := (stagedRegs b).foldl (fun d off => commitReg off d) d

/-- Block 0 takes its new set; one that changes the HBM translation cache discards its content (R98). -/
def commit0 (d : Dev) : Dev :=
  let d1 := commitRegs 0 d
  if xlL2Ctl d1 = xlL2Ctl d then d1 else { d1 with xl := { d1.xl with l2 := [] } }

/-- Block 4 takes its new set, and ports change to suit (R311, R321). -/
def commit4 (d : Dev) : Dev :=
  allPorts.foldl (fun d1 p => if portCtl d1 p = portCtl d p then d1 else portCommitted p (portCtl d p) d1) (commitRegs 4 d)

/-- Block 6 takes its new set: each enabled list waits for its first cycle start; a port whose list is not enabled has every gate
open (R340, R342). (DEDUCED, log entry 88) -/
def commit6 (d : Dev) : Dev :=
  let d0 := commitRegs 6 d
  let d1 : Dev := { d0 with tc := { d0.tc with gclIn := d.cfg.snapGcl } }
  allPorts.foldl (fun d1 p =>
    if bit (gateCtl d1 p) 63 then
      let l := snapList d p
      let d2 := setGate p { getGate d1 p with pend := some { l with start := cycleStart l d.clk.tsc.toNat } } d1
      if (gateList d p).ents = (snapList d p).ents then d2 else noteWrite d2
    else if thas d1.tc.gates p then setGate p {} d1
    else d1) d1

/-- Every named block takes its new set. -/
def commitAll (n : Nat) (d : Dev) : Dev :=
  let d1 := if n.testBit 0 then commit0 d else d
  let d2 := if n.testBit 4 then commit4 d1 else d1
  if n.testBit 6 then commit6 d2 else d2

/-- The commit of a tick (R498). -/
def evalCommit (d : Dev) : Dev :=
  match d.cfg.commit with
  | none => d
  | some n =>
    let e := commitFails d n
    let d1 := if e.isSome then d else commitAll n d
    { d1 with cfg := { d1.cfg with commit := none, busy := false, snap := [], snapGcl := [], err := e } }

/-- COMMIT_EVALUATION (R498). -/
def execCommitEvaluation (s : State) : Host.Outcome State Fault Refusal := lift evalCommit s

/-! ### The running checksum (R493 to R496) -/

/-- Offsets from `a`, `n` of them, `step` apart. -/
def run (a n step : Nat) : List Nat := (List.range n).map fun i => a + step * i

/-- Every register of blocks 0 and 2 to 9 in ascending order (R484, R493). -/
def crcRegs : List Nat :=
  run 0 10 8 ++ [0x200] ++ [0x300, 0x308, 0x310, 0x318, 0x320, 0x328, 0x330, 0x340, 0x348, 0x350]
  ++ ((List.range 4).flatMap fun p => run (0x400 + p * 0x100) 16 8)
  ++ run 0x4000 4 8 ++ run 0x4100 8 8 ++ run 0x5000 512 8 ++ run 0x6000 512 8 ++ run 0x7000 512 8
  ++ run 0x8000 36 8 ++ run 0x8200 36 8 ++ run 0x8400 36 8 ++ [0x8600]
  ++ ((List.range 64).flatMap fun p => run (0x10000 + p * 0x100) 9 8)
  ++ run 0x20000 7 8 ++ run 0x20040 7 8
  ++ [0x30000, 0x30010, 0x30018] ++ run 0x31000 64 8 ++ ((List.range 64).flatMap fun p => run (0x32000 + p * 0x20) 3 8)
  ++ run 0x40000 10 8 ++ run 0x40100 64 8 ++ run 0x40400 16 8 ++ run 0x42000 1024 8 ++ run 0x44000 1024 8
  ++ run 0x46000 256 8 ++ run 0x46800 128 8 ++ run 0x47000 136 8
  ++ run 0x50000 11 8
  ++ ((List.range 4).flatMap fun n => run (0x60000 + n * 0x20) 4 8)
  ++ [0x60100, 0x60108, 0x60110, 0x60118, 0x60120, 0x60128, 0x60130, 0x60138, 0x60200, 0x60208, 0x60210]

/-- A register's fields of type RW, RS or RL in force, everything else 0 (R493). -/
def crcWord (d : Dev) (off : Nat) : Word64 :=
  if 0x7000 ≤ off ∧ off < 0x8000 then ins 1 (getRec d ((off - 0x7000) / 8)).fclass
  else match regT off with
    | some (rw, rs, r) =>
      (regInForce d off r &&& (rw ||| rs)) ||| (if off = 0x20000 then ins 0 (b2n d.rt.stamp) else 0)
    | none => 0

/-- The gate list of a port with EN = 1 (R493). -/
def crcGates (d : Dev) (p : Nat) : List Byte :=
  if bit (gateCtl d p) 63 then
    (gateList d p).ents.flatMap fun e => leBytes 8 (e.gates * 2 ^ 32 + e.dur)
  else []

/-- The checksum over the configuration as it stands (R493). -/
def cfgCrc (d : Dev) : Word32 :=
  crc32c (((crcRegs.filter fun off => !uncovered off).flatMap fun off => leBytes 8 (crcWord d off).toNat)
    ++ allPorts.flatMap (crcGates d))

/-- GRACE in nanoseconds (R501). -/
def graceNs (d : Dev) : Nat :=
  let g := fld (regInForce d 0x70020 0) 0 16
  (if g = 0 then 100 else max 10 g) * 10000

/-- NOW is compared with REF (R495). -/
def crcCompare (d : Dev) : Dev :=
  if !bit (regInForce d 0x70008 0) 63 || fencedBlk d 10 then d
  else if d.cfg.crcNow = (regInForce d 0x70018 0).setWidth 32 then
    { d with cfg := { d.cfg with mismatch := false, inGrace := false } }
  else if d.clk.now < d.cfg.lastWriteNs + graceNs d then { d with cfg := { d.cfg with inGrace := true } }
  else
    let d1 : Dev := { d with cfg := { d.cfg with mismatch := true, inGrace := false } }
    if d.cfg.mismatch then d1 else report srcCfgCrc .contained caCfgCrc 0 0 1 d1

/-- CRC_SWEEP_COMPLETE (R494 to R496): a sweep that a configuration write abandoned updates nothing. -/
def sweepDone (d : Dev) : Dev :=
  if d.cfg.dirty then d
  else
    let n := cfgCrc d
    let d1 : Dev := { d with cfg := { d.cfg with crcNow := n, crcValid := true } }
    crcCompare (if d.cfg.capture then
      { d1 with regs := tput d1.regs 0x70018 (n.setWidth 64), cfg := { d1.cfg with capture := false } } else d1)

/-- CRC_SWEEP_COMPLETE. -/
def execCrcSweepComplete (s : State) : Host.Outcome State Fault Refusal := lift sweepDone s

/-- CRC_CAPTURE (R496): a write of CFG_CRC_CTL with CAPTURE = 1. -/
def execCrcCapture (m : Master) (w : Wr) (s : State) : Host.Outcome State Fault Refusal :=
  fabRow m (.crcCapture m w) s (
    lift0 (fun d => if mayWrite d m && bit ((wrBits w).1 &&& (wrBits w).2) 62 then crcCtlWrite w d else d) s)

/-- CFG_LOCK (R496): a write of CFG_LOCK with LOCK = 1. -/
def execCfgLock (m : Master) (w : Wr) (s : State) : Host.Outcome State Fault Refusal :=
  fabRow m (.cfgLock m w) s (lift0 (fun d => if mayWrite d m then cfgRegWrite 0x70030 w d else d) s)

/-! ### Parity and fencing (R489 to R492) -/

/-- Where a block starts (R484). -/
def blockStart (b : Nat) : Nat :=
  match b with
  | 0 => 0 | 1 => 0x1000 | 2 => 0x4000 | 3 => 0x8000 | n => (n - 3) * 0x10000

/-- A register outside block 1 holds configuration fields in force (R489). -/
def hasParity (d : Dev) (off : Nat) : Bool :=
  if 0x7000 ≤ off ∧ off < 0x8000 then off % 8 == 0 && knownSource d ((off - 0x7000) / 8)
  else match regT off with | some (rw, rs, _) => (rw ||| rs) != 0 | none => false

/-- A function's register holds configuration fields (R55, R56). -/
def fnHasParity (off : Nat) : Bool := [0x1000, 0x1008, 0x1010, 0x1018, 0x1030, 0x2008].contains off

/-- Record a mismatch of a register outside block 1 (R490). (DESIGN CHOICE, log entry 107) -/
def parityRecord (off : Nat) (d : Dev) : Dev :=
  let b := blockOf off
  report (srcRegParity b) .contained caRegParity (BitVec.ofNat 8 (off / 8)) (BitVec.ofNat 24 ((off - blockStart b) / 8)) 1 d

/-- What a fence brings at once (R490): a port goes down, ports announce Nib only, a service port goes idle, time holds over. -/
def fenceEffect (old : Dev) (off : Nat) (d : Dev) : Dev :=
  match blockOf off with
  | 4 => goDown ((off - 0x10000) / 0x100) 6 d
  | 5 => announceAll d
  | 9 =>
    let n := (off - 0x60000) / 0x20
    if off < 0x60080 then
      svcHellos old (if d.svc.upstream = some n then { d with svc := { d.svc with upstream := none } } else d)
    else if off = 0x60200 then { d with ft := { d.ft with holdover := true } }
    else d
  | _ => d

/-- An in-force copy mismatches (R490). -/
def parityHit (off : Nat) (d : Dev) : Dev :=
  let b := blockOf off
  let d1 : Dev := { d with cfg := { d.cfg with
    bad := d.cfg.bad ++ [(b, off)], hit := d.cfg.hit ++ [(b, off)], fenced := Nat.lor d.cfg.fenced (2 ^ b) } }
  parityRecord off (fenceEffect d off d1)

/-- A register of a function mismatches: the function is fenced (R490). -/
def fnParityHit (f : FnId) (off : Nat) (d : Dev) : Dev :=
  let place := if off < 0x2000 then (off - 0x1000) / 8 else 8 + (off - 0x2000) / 8
  report (srcRegParity 1) .contained caRegParity (BitVec.ofNat 8 place) (fnObject f) 1
    (updFn f (fun x => { x with fenced := true }) { d with cfg := { d.cfg with fenced := Nat.lor d.cfg.fenced 2 } })

/-- REG_PARITY_MISMATCH (R489, R490): of a register by its base copy; `f` says whose, for block 1. -/
def execRegParityMismatch (f : FnId) (off : Fin 0x80000) (s : State) : Host.Outcome State Fault Refusal :=
  lift (fun d =>
    if blockOf off.val = 1 then (if fnHasParity off.val && fnExists d f then fnParityHit f off.val d else d)
    else if hasParity d off.val then parityHit off.val d
    else d) s

/-- STAGED_PARITY_MISMATCH (R492): of the staged copy of a register. -/
def execStagedParityMismatch (off : Fin 0x80000) (s : State) : Host.Outcome State Fault Refusal :=
  lift (fun d =>
    match regT off.val with
    | some (_, rs, _) =>
      if rs = 0 then d
      else parityRecord off.val
        { d with cfg := { d.cfg with stagedBad := d.cfg.stagedBad ++ [(blockOf off.val, off.val)] } }
    | none => d) s

/-- A fence of a block may lift: every register that mismatched has been written, and its record is cleared (R491). -/
def mayLift (d : Dev) (b : Nat) : Bool :=
  b != 1 && fencedBlk d b && !(d.cfg.bad.any fun x => x.1 == b) && !(getRec d (srcRegParity b)).valid

/-- Fences lift at a tick (R491). -/
def liftFences (d : Dev) : Dev :=
  let up := (List.range 11).filter (mayLift d)
  if up.isEmpty then d
  else
    let d1 : Dev := { d with cfg := { d.cfg with
      hit := d.cfg.hit.filter fun x => !up.contains x.1
      fenced := up.foldl (fun n b => n - 2 ^ b) d.cfg.fenced } }
    let d2 := if up.contains 5 then announceAll d1 else d1
    if up.contains 9 then svcHellos d d2 else d2

end Sys2Proof.Machine
end

