-- ==== Sys2Proof/Machine/Command.lean ====
section
/-!
DEFINITION. COMMAND and FABRIC_MGMT (R361 to R363, R370, R373): a list of register accesses as one step of the Quill
sequencer, its RESPONSE, and mode arbitration at the end of a tick (R372, R450).
-/
namespace Sys2Proof.Machine

open Sys2Proof

/-! ### The payload (R361) -/

/-- TAG, COUNT and NORESP. -/
def cmdHead (f : Frame) : Word64 := BitVec.ofNat 64 (payNat f 0 8)

/-- Entries of a COMMAND. -/
def cmdCount (f : Frame) : Nat := fld (cmdHead f) 32 6

/-- OP, OFFSET and VALUE of entry k. -/
def cmdEntry (f : Frame) (k : Nat) : Nat × Nat × Word64 :=
  let w : Word64 := BitVec.ofNat 64 (payNat f (0x10 + 16 * k) 8)
  (fld w 0 2, fld w 8 20, BitVec.ofNat 64 (payNat f (0x18 + 16 * k) 8))

/-- A COMMAND asks for an answer (R362): unless NORESP is set, or it was flooded and this is not the device it first reached,
which is the one a single hop from the active manager. -/
def cmdReplies (d : Dev) (f : Frame) : Bool := !bit (cmdHead f) 38 && (!f.flood || d.svc.depth == 1)

/-! ### The end of a COMMAND (R362) -/

/-- The RESPONSE payload. -/
def respBytes (d : Dev) (c : CmdRun) (st : Status) : List Byte :=
  leBytes 8 (fld (cmdHead c.frame) 0 32 + c.done * 2 ^ 32 + (statusCode st).toNat * 2 ^ 40)
  ++ leBytes 8 d.fuse.unitId.toNat ++ c.values.flatMap fun v => leBytes 8 v.toNat

/-- A COMMAND ends: its RESPONSE is sent, or written to the host buffer LOCAL named, whose command completes (R363). -/
def cmdEnd (c : CmdRun) (st : Status) (d : Dev) : Dev :=
  match c.port with
  | some _ => if c.reply then sendToManager 0x6 (respBytes d c st) d else d
  | none =>
    admDone 0x49 c.fn (fun _ _ => true) (fun _ d => (.success, d))
      (hostWrite c.fn false (c.desc.f 0x08 0 64) (respBytes d c st) false d)

/-! ### The accesses (R361) -/

/-- Bit 63 of a register still is 1 after a WRITE_WAIT of it (R361), whatever the bit means there. A commit waits for its tick;
every table window has finished. -/
def regBusy (d : Dev) (off : Nat) : Bool := bit (readReg d d (pfOf (ownerPort d)) off) 63

/-- An entry is done with a value. -/
def CmdRun.next (c : CmdRun) (v : Word64) : CmdRun := { c with done := c.done + 1, values := c.values ++ [v], hold := false }

/-- A COMMAND goes back to the front of those in hand: it waits. With entries left it holds the sequencer: nothing else is carried
out between two entries of one COMMAND (R60). (DEDUCED, log entry 90) -/
def cmdHold (c : CmdRun) (d : Dev) : Dev := { d with svc := { d.svc with cmds := c :: d.svc.cmds } }

/-- Carry out the entries of a COMMAND from the next one on, until it ends or waits (R361). `m` is the sample reads return. -/
def cmdEntries (m : Dev) : Nat → CmdRun → Dev → Dev
  | 0, c, d => cmdEnd c .success d
  | fuel + 1, c, d =>
    if cmdCount c.frame ≤ c.done then cmdEnd c .success d
    else
      let e := cmdEntry c.frame c.done
      if e.1 = 3 ∨ e.2.1 % 8 ≠ 0 then cmdEnd c .invalidParam d
      else match baseOf e.2.1 with
        | none => cmdEntries m fuel (c.next 0) d
        | some b =>
          if e.1 = 0 then
            let r := readAccess m (pfOf (ownerPort d)) b true true d
            cmdEntries m fuel (c.next r.1) r.2
          else if blockOf b = 1 then cmdEnd c .ownership d
          else if b = 0x18 then
            match modeCtlWrite (.full e.2.2) d with
            | (.error st, d1) => cmdEnd c st d1
            | (.ok (some mode), d1) => cmdHold { c with waitMode := some mode, hold := decide (c.done + 1 < cmdCount c.frame) } d1
            | (.ok none, d1) => cmdEntries m fuel (c.next 0) d1
          else
            let d1 := writeReg (pfOf (ownerPort d)) b (.full e.2.2) d
            if e.1 = 2 && regBusy d1 b then cmdHold { c with waitReg := some b, hold := true, ticks := 0 } d1
            else cmdEntries m fuel (c.next 0) d1

/-- A COMMAND begins: one of an earlier term is not carried out; one without its entries is refused (R361). -/
def cmdBegin (m : Dev) (c : CmdRun) (d : Dev) : Dev :=
  if payNat c.frame 8 4 < d.svc.term then cmdEnd c .notPermitted d
  else if cmdCount c.frame = 0 ∨ c.frame.payload.length < 0x10 + 16 * cmdCount c.frame then cmdEnd c .invalidParam d
  else cmdEntries m 64 { c with started := true } d

/-- A COMMAND addressed to this device: it joins those in hand. During boot and in Recovery there is none to carry it out.
(DEDUCED, log entry 91) -/
def cmdIn (n : Option Nat) (f : Frame) (d : Dev) : Dev :=
  if d.boot.phase = .running then
    { d with svc := { d.svc with cmds := d.svc.cmds ++ [{ frame := f, port := some (n.getD 4), reply := cmdReplies d f }] } }
  else d

/-! ### FABRIC_MGMT (R363) -/

/-- OP of FABRIC_MGMT. (DEDUCED, log entry 89) -/
def fmOp (e : Desc) : Nat := e.f 0x10 16 2

/-- The host may act as the fabric manager: HOST_FM is set and the device is the active manager (R363). -/
def hostFm (d : Dev) : Bool := bit (ctl9 d 0x60100 0) 63 && d.svc.role == 2

/-- A frame the host sends and this device is itself the one it reaches. -/
def ownFrame (f : Frame) (d : Dev) : Dev :=
  match f.ftype.toNat with
  | 3 => discoverIn f d
  | 5 => cmdIn none f d
  | 9 => if d.boot.actBusy then d else imageIn 0 f d
  | _ => d

/-- FABRIC_MGMT_SEND (R363): the header's fields but those the device fills, over LEN bytes of BUF, which the command brings. -/
def fmSend (f : FnId) (e : Desc) (buf : List Byte) (d : Dev) : Dev :=
  runAdmin (.fabricMgmtSend f e buf) 0x49 .owner f e (fun _ d =>
    let len := e.f 0x10 0 11
    if fmOp e = 3 then say .invalidParam d
    else if !hostFm d then say .ownership d
    else if decide (1024 < len) || decide (e.f 0x08 0 3 ≠ 0) then say .invalidParam d
    else
      let fr := frameOf e.w3 (buf.take len)
      say .success (routeFrame (if fr.up then { fr with coord := BitVec.ofNat 16 (d.svc.depth + 16) } else fr) none mgrTake
        ownFrame d)) d

/-- FABRIC_MGMT_RECV (R363). -/
def execFabricMgmtRecv (f : FnId) (e : Desc) (s : State) : Host.Outcome State Fault Refusal :=
  if fmOp e ≠ 1 then .next s
  else admin (.fabricMgmtRecv f e) 0x49 .owner f e (fun _ d =>
    if e.f 0x08 0 3 ≠ 0 then say .invalidParam d
    else match d.svc.rx with
      | [] => .done .success 0 0 d
      | fr :: rest =>
        .done .success (frameWord fr) (BitVec.ofNat 64 fr.payload.length)
          (hostWrite f false (e.f 0x08 0 64) fr.payload false { d with svc := { d.svc with rx := rest } })) s

/-- FABRIC_MGMT_LOCAL (R363): the COMMAND payload in BUF, which the command brings, is carried out here as its own step. -/
def fmLocal (f : FnId) (e : Desc) (buf : List Byte) (d : Dev) : Dev :=
  runAdmin (.fabricMgmtLocal f e buf) 0x49 .owner f e (fun _ d =>
    if !hostFm d then say .ownership d
    else if e.f 0x08 0 3 ≠ 0 then say .invalidParam d
    else .later [] { d with svc := { d.svc with
      cmds := { frame := { ftype := 0x5, payload := buf.take 1024 }, fn := f, desc := e } :: d.svc.cmds } }) d

/-! ### The sequencer (R60, R361) -/

/-- The rows that may wait their turn: the admin commands that carry a status, and a manager's accesses. -/
def execRow (i : Instr) (s : State) : Host.Outcome State Fault Refusal :=
  match i with
  | .createSq f e => execCreateSq f e s
  | .destroySq f e => execDestroySq f e s
  | .createCq f e => execCreateCq f e s
  | .destroyCq f e => execDestroyCq f e s
  | .createEq f e => execCreateEq f e s
  | .destroyEq f e => execDestroyEq f e s
  | .subscribeEvents f e => execSubscribeEvents f e s
  | .queryQueue f e => execQueryQueue f e s
  | .createConn f e => execCreateConn f e s
  | .destroyConn f e => execDestroyConn f e s
  | .modifyConn f e => execModifyConn f e s
  | .createMatchCtx f e => execCreateMatchCtx f e s
  | .destroyMatchCtx f e => execDestroyMatchCtx f e s
  | .registerRegion f e => execRegisterRegion f e s
  | .deregisterRegion f e => execDeregisterRegion f e s
  | .setTranslationRoot f e => execSetTranslationRoot f e s
  | .invalidate f e => execInvalidate f e s
  | .resumeMark f e => execResumeMark f e s
  | .joinTree f e => execJoinTree f e s
  | .leaveTree f e => execLeaveTree f e s
  | .setShaper f e => execSetShaper f e s
  | .setPolicer f e => execSetPolicer f e s
  | .parkFunction f e => execParkFunction f e s
  | .unparkFunction f e => execUnparkFunction f e s
  | .setFuncDomain f e => execSetFuncDomain f e s
  | .setFuncQuota f e q => execSetFuncQuota f e q s
  | .queryFunc f e => execQueryFunc f e s
  | .setMode f e => execSetMode f e s
  | .setModeDeviceReset f e => execSetModeDeviceReset f e s
  | .faultClear f e => execFaultClear f e s
  | .identify f e => execIdentify f e s
  | .ownerCtlWrite m w => execOwnerCtlWrite m w s
  | .faultRecordClear m src => execFaultRecordClear m src s
  | .corrClr m src => execCorrClr m src s
  | .fltForce m src fc => execFltForce m src fc s
  | .fltBreak m src => execFltBreak m src s
  | .armA m w => execArmA m w s
  | .armB m w => execArmB m w s
  | .retireA m w => execRetireA m w s
  | .retireB m w => execRetireB m w s
  | .stampWrite m w => execStampWrite m w s
  | .tableRead m w => execTableRead m w s
  | .tableWrite m w => execTableWrite m w s
  | .forcedWrite m w => execForcedWrite m w s
  | .rtCoordWrite m w => execRtCoordWrite m w s
  | .rtHpDrainWrite m w => execRtHpDrainWrite m w s
  | .portEnable m p => execPortEnable m p s
  | .portDisable m p => execPortDisable m p s
  | .narrowLane0 m p => execNarrowLane0 m p s
  | .narrowLane1 m p => execNarrowLane1 m p s
  | .widen m p => execWiden m p s
  | .retrainLane0 m p => execRetrainLane0 m p s
  | .retrainLane1 m p => execRetrainLane1 m p s
  | .portRestart m p => execPortRestart m p s
  | .gclRead m w => execGclRead m w s
  | .gclWrite m w => execGclWrite m w s
  | .svcRestart m n w => execSvcRestart m n w s
  | .svcRtRead m w => execSvcRtRead m w s
  | .svcRtWrite m w => execSvcRtWrite m w s
  | .ftSet m w => execFtSet m w s
  | .modeCtlReq m w => execModeCtlReq m w s
  | .modeCtlDeviceReset m w => execModeCtlDeviceReset m w s
  | .mtrTimeSet m w => execMtrTimeSet m w s
  | .mtrTimeAdj m w => execMtrTimeAdj m w s
  | .mtrAck m w => execMtrAck m w s
  | .mtrRdSel k m w => execMtrRdSel k m w s
  | .mtrWindowRead k m n lo hi => execMtrWindowRead k m n lo hi s
  | .trimSet m w => execTrimSet m w s
  | .operatorSet m w => execOperatorSet m w s
  | .mtrFwBegin m w => execMtrFwBegin m w s
  | .mtrFwData m w => execMtrFwData m w s
  | .mtrFwActivate m w => execMtrFwActivate m w s
  | .fwActivate m w => execFwActivate m w s
  | .fwCommit m w => execFwCommit m w s
  | .pmuSelWrite m k w => execPmuSelWrite m k w s
  | .pmuClear m w => execPmuClear m w s
  | .dumpEnable m w => execDumpEnable m w s
  | .inkStart m w => execInkStart m w s
  | .inkStop m w => execInkStop m w s
  | .inkDiscard m w => execInkDiscard m w s
  | .inkTransfer m w => execInkTransfer m w s
  | .inkReplay m w => execInkReplay m w s
  | .cfgCommit m w => execCfgCommit m w s
  | .crcCapture m w => execCrcCapture m w s
  | .cfgLock m w => execCfgLock m w s
  | .clearOnRead m b off a => execClearOnRead m b off a s
  | .registerWrite m b off w => execRegisterWrite m b off w s
  | .fabricMgmtSend f e buf => lift (fmSend f e buf) s
  | .fabricMgmtRecv f e => execFabricMgmtRecv f e s
  | .fabricMgmtLocal f e buf => lift (fmLocal f e buf) s
  | _ => .next s

/-- Carry out a command that has waited its turn. `m` is the sample reads return. -/
def runRow (m : Dev) (i : Instr) (d : Dev) : Dev :=
  match execRow i { dev := d, mir := m } with
  | .next t => t.dev
  | _ => d

/-- Carry out the commands in hand in order of arrival; a COMMAND that waits between its entries holds back the rest (R60, R361), one
of which only the answer waits for arbitration does not. -/
def runCmds (m : Dev) : Nat → Dev → Dev
  | 0, d => d
  | fuel + 1, d =>
    if d.svc.cmds.any (·.hold) then d
    else match d.svc.cmds.find? fun c => c.waitMode.isNone with
      | none => d
      | some c =>
        let d1 : Dev := { d with svc := { d.svc with cmds := d.svc.cmds.erase c } }
        runCmds m fuel (match c.row with
          | some i => runRow m i d1
          | none => if c.started then cmdEntries m 64 c d1 else cmdBegin m c d1)

/-- Carry out what can be; a command may put one more in front of the rest (R363). -/
def pumpCmds (m d : Dev) : Dev := runCmds m (2 * d.svc.cmds.length + 1) d

/-- COMMAND (R361). -/
def execCommand (n : Fin 4) (f : Frame) (s : State) : Host.Outcome State Fault Refusal :=
  lift (fun d => pumpCmds s.mir (svcFrame 0x5 n.val f (cmdIn (some n.val)) d)) s

/-! ### WRITE_WAIT at a tick (R361) -/

/-- A waiting COMMAND at a tick: it goes on once the register is no longer busy, and fails after 97 ticks, the most that fit
into 100 microseconds. -/
def waitTick (m : Dev) (d : Dev) : Dev :=
  match d.svc.cmds.find? fun c => c.waitReg.isSome with
  | none => d
  | some c =>
    let d1 : Dev := { d with svc := { d.svc with cmds := d.svc.cmds.erase c } }
    if !regBusy d (c.waitReg.getD 0) then pumpCmds m (cmdHold { c.next 0 with waitReg := none } d1)
    else if 97 ≤ c.ticks + 1 then pumpCmds m (cmdEnd c .busy d1)
    else cmdHold { c with ticks := c.ticks + 1 } d1

/-! ### Mode arbitration (R372, R450) -/

/-- The COMMANDs that wait for arbitration: those that named the mode carried out go on; the rest fail. -/
def answerWith (won : Mode) (lost : Status) (d : Dev) : Dev :=
  let waiting := d.svc.cmds.filter fun c => c.waitMode.isSome
  let d1 : Dev := { d with svc := { d.svc with cmds := d.svc.cmds.filterMap fun c =>
    match c.waitMode with
    | none => some c
    | some w => if w = won then some { c.next 0 with waitMode := none } else none } }
  waiting.foldl (fun d c => if c.waitMode = some won then d else cmdEnd c lost d) d1

/-- The COMMANDs whose mode requests have been arbitrated; those that lose fail with BUSY (R372). -/
def answerCmds (won : Mode) (d : Dev) : Dev := answerWith won .busy d

/-- MODE_ARBITRATION (R372, R410). -/
def arbitration (m d : Dev) : Dev :=
  if d.mode = .quarantine then pumpCmds m (answerWith .quarantine .modeRefused (answerStale d))
  else match arbitrate d with
    | (none, d1) => d1
    | (some w, d1) => pumpCmds m (answerCmds w d1)

/-- MODE_ARBITRATION. -/
def execModeArbitration (s : State) : Host.Outcome State Fault Refusal := lift (arbitration s.mir) s

/-! ### FABRIC_MGMT (R363) -/

/-- FABRIC_MGMT_SEND. -/
def execFabricMgmtSend (f : FnId) (e : Desc) (buf : List Byte) (s : State) : Host.Outcome State Fault Refusal :=
  if fmOp e = 1 ∨ fmOp e = 2 then .next s else lift (fun d => pumpCmds s.mir (fmSend f e buf d)) s

/-- FABRIC_MGMT_LOCAL. -/
def execFabricMgmtLocal (f : FnId) (e : Desc) (buf : List Byte) (s : State) : Host.Outcome State Fault Refusal :=
  if fmOp e ≠ 2 then .next s else lift (fun d => pumpCmds s.mir (fmLocal f e buf d)) s

end Sys2Proof.Machine
end

