-- ==== Sys2Proof/Machine/Tick.lean ====
section
/-!
DEFINITION. The management tick (R40, R487): what its close brings, and the sample it leaves; and the pins' own interfaces:
the test access port (R511) and the SMBus target (R512).
-/
namespace Sys2Proof.Machine

open Sys2Proof

/-! ### Counters reach their registers (R487, R488) -/

/-- A port's counters at a tick. -/
def Port.tick (x : Port) : Port :=
  let lane := fun (l : LaneSt) => { l with uncorr := l.uncorr.tick 0xFFFF, bip := l.bip.tick 0xFFFF }
  { x with
    l0 := lane x.l0, l1 := lane x.l1, crcFail := x.crcFail.tick 0xFFFF, replays := x.replays.tick 0xFFFF
    timerReplays := x.timerReplays.tick 0xFFFF, changes := x.changes.tick 0xFFFF }

/-- A service port's counters at a tick. -/
def SvcPort.tick (x : SvcPort) : SvcPort :=
  { x with
    crcFail := x.crcFail.tick 0xFFFF, resends := x.resends.tick 0xFFFF, codeErr := x.codeErr.tick 0xFFFF
    drops := x.drops.tick 0xFFFF }

/-- Every counter that a read clears takes what has been counted since the last tick. -/
def tickCounters (d : Dev) : Dev :=
  { d with
    xpt := { d.xpt with
      crcFail := d.xpt.crcFail.tick 0xFFFF, outWindow := d.xpt.outWindow.tick 0xFFFF
      srcMismatch := d.xpt.srcMismatch.tick 0xFFFF, stray := d.xpt.stray.tick 0xFFFF }
    mtc := { d.mtc with noteDrop := d.mtc.noteDrop.tick 0xFFFF }
    tre := { d.tre with discards := d.tre.discards.tick 0xFFFF, refused := d.tre.refused.tick 0xFF }
    rt := { d.rt with
      fullWaits := d.rt.fullWaits.tick 0xFFFFFFFF, noroute := d.rt.noroute.tick 0xFFFF
      badEpoch := d.rt.badEpoch.tick 0xFFFF, aged := d.rt.aged.tick 0xFFFF, hop := d.rt.hop.tick 0xFFFF
      reachRefused := d.rt.reachRefused.tick 0xFFFF, destDownSent := d.rt.destDownSent.tick 0xFFFF
      nibStall := d.rt.nibStall.tick 0xFFFF }
    ports := d.ports.map fun p => (p.1, p.2.tick)
    svc := { d.svc with
      rxDrops := d.svc.rxDrops.tick 0xFFFF
      ports := d.svc.ports.map fun p => (p.1, p.2.tick) } }

/-- The place of an engine's tile in the order of the pace monitors' counts, row by row (R21). -/
def engineTile (k : Nat) : Nat :=
  ([17, 18, 19, 20, 21, 22, 27, 28, 35, 36, 41, 42, 43, 44, 45, 46, 38][k / 2]?).getD 64

/-- The handshakes of a tick that fall into a class of an engine (R466): what was found for the first three, and for STARVED_FRONT
the rest of the tile's, so that the four advance at the tile's pace. -/
def slotCount (counts : List Nat) (slots : List Int) (k : Nat) : Int :=
  let found := fun i => (slots[k / 4 * 4 + i]?).getD 0
  if k % 4 = 3 then (((counts[engineTile (k / 4)]?).getD 0 : Nat) : Int) - (found 0 + found 1 + found 2) else found (k % 4)

/-- The slots of each engine, four classes an engine (R466); a step that is discarded later moves from one class to another, so
a count may fall. A failed engine's counters stop. (DESIGN CHOICE, log entry 87) -/
def tickSlots (counts : List Nat) (slots : List Int) (d : Dev) : Dev :=
  if counted d 1 = 0 then d
  else
    let add := fun (t : Tbl Nat) (k : Nat) =>
      let n := slotCount counts slots k
      if n = 0 || d.eng.failed.testBit (k / 4) then t else tput t k (((((tget t k).getD 0 : Nat) : Int) + n) % 2 ^ 48).toNat
    { d with pmu := { d.pmu with td := (List.range 136).foldl add d.pmu.td } }

/-! ### What takes effect at a tick -/

/-- OWNER_PORT comes into force (R48); not while block 0 is fenced (R490). -/
def tickOwner (d : Dev) : Dev :=
  if fencedBlk d 0 then d else watchOwner (fun d => { d with ownerPort := Fin.ofNat 4 (fld (regInForce d 0x28 0) 0 2) }) d

/-- A drained host port has nothing in flight (R265). (DEDUCED, log entry 79) -/
def portEmpty (d : Dev) (p : Fin 4) : Bool := portDrained d p && (inFlightOf d p).isEmpty

/-- DRAIN bits that were cleared end their drains, and DRAINED is shown (R265, R276). -/
def tickDrain (d : Dev) : Dev :=
  let d1 : Dev := { d with rt := { d.rt with drain := fld (regInForce d 0x20060 0) 0 4 } }
  let n := ([0, 1, 2, 3] : List (Fin 4)).foldl (fun n p => if portEmpty d1 p then n + 2 ^ p.val else n) 0
  { d1 with rt := { d1.rt with drained := n } }

/-- Enabled service ports whose link is down begin to lock (R349). -/
def tickSvc (d : Dev) : Dev :=
  svcPorts.foldl (fun d n => if svcEnable d n && decide ((getSvc d n).link = 0) then updSvc n (fun x => { x with link := 1 }) d else d) d

/-- Bits set in this tick are no longer new (R16), a sweep may start (R494), and PPS_SEEN covers the last 1.5 s (R380). -/
def tickMarks (d : Dev) : Dev :=
  { d with
    fns := d.fns.map fun f => (f.1, { f.2 with statNew := 0 })
    cfg := { d.cfg with dirty := false }
    ft := { d.ft with ppsSeen := d.ft.ppsSeen && decide (d.clk.now < d.ft.ppsAt + 1500000000) }
    clk := { d.clk with ticks := d.clk.ticks + 1 } }

/-- Temperature and voltage values apply (R457). -/
def tickCal (d : Dev) : Dev :=
  { d with therm := { d.therm with tjMax := tjOf d d.therm.raw, vmEff := (List.range 8).map fun v => calEff d (0x80 + 8 * v) } }

/-- The close of a management tick, from the pace monitors' counts and the engines' slots of the tick. The collector takes what
the sources report (R411), and calibration values apply to the readings (R457). The writes of atomics that
left in it are acknowledged. (DESIGN CHOICE, log entry 156) -/
def closeTick (counts : List Nat) (slots : List Int) (d : Dev) : Dev :=
  let d1 := tickSlots counts slots (tickCounters (paceTick counts (tickCal (collect d))))
  let d2 := tagTick (dumpTick (pmuTick d1))
  let d3 := tickSvc (liftFences (tickDrain (tickOwner (readersReady d2))))
  let d4 := tickMarks (ackAtomics d3)
  waitTick d4 d4

/-- PACE_MEASUREMENT (R30, R34, R40, R487): the tick closes, and its end is the sample that reads return until the next.
(DESIGN CHOICE, log entry 6) -/
def execPaceMeasurement (counts : List Nat) (slots : List Int) (s : State) : Host.Outcome State Fault Refusal :=
  if asleep s.dev then .next s
  else
    let d := rest (closeTick counts slots s.dev)
    .next { s with dev := d, mir := d }

/-! ### The test access port (R511) -/

/-- An instruction that takes effect only while SYS_RST_N is low. -/
def needsReset (i : JtagIr) : Bool := [JtagIr.extest, .extestPulse, .extestTrain, .clamp, .highz].contains i

/-- The instruction that is in effect: one of the five that act on pins acts as BYPASS while SYS_RST_N is high. -/
def jtagActs (d : Dev) : JtagIr := if needsReset d.jtag.ir && !d.jtag.rstLow then .bypass else d.jtag.ir

/-- An instruction is shifted in, and stays whatever SYS_RST_N does after. (DEDUCED, log entry 122) -/
def jtag (i : JtagIr) (s : State) : Host.Outcome State Fault Refusal :=
  let d := s.dev
  .next { s with dev := { d with jtag := { d.jtag with ir := i } } }

/-- An instruction is shifted in with SYS_RST_N at a level. -/
def jtagAt (i : JtagIr) (rstLow : Bool) (s : State) : Host.Outcome State Fault Refusal :=
  let d := s.dev
  .next { s with dev := { d with jtag := { ir := i, rstLow := rstLow } } }

/-- BYPASS. -/
def execBypass (s : State) : Host.Outcome State Fault Refusal := jtag .bypass s
/-- IDCODE: the identification code is shifted out. -/
def execIdcode (s : State) : Host.Outcome State Fault Refusal :=
  let d := s.dev
  .next { s with dev := emit (.jtagId 0x26404A6B) { d with jtag := { d.jtag with ir := .idcode } } }
/-- SAMPLE/PRELOAD. -/
def execSamplePreload (s : State) : Host.Outcome State Fault Refusal := jtag .samplePreload s
/-- EXTEST. -/
def execExtest (rstLow : Bool) (s : State) : Host.Outcome State Fault Refusal := jtagAt .extest rstLow s
/-- EXTEST_PULSE. -/
def execExtestPulse (rstLow : Bool) (s : State) : Host.Outcome State Fault Refusal := jtagAt .extestPulse rstLow s
/-- EXTEST_TRAIN. -/
def execExtestTrain (rstLow : Bool) (s : State) : Host.Outcome State Fault Refusal := jtagAt .extestTrain rstLow s
/-- CLAMP. -/
def execClamp (rstLow : Bool) (s : State) : Host.Outcome State Fault Refusal := jtagAt .clamp rstLow s
/-- HIGHZ. -/
def execHighz (rstLow : Bool) (s : State) : Host.Outcome State Fault Refusal := jtagAt .highz rstLow s

/-! ### The SMBus target (R512) -/

/-- SMB_ALERT_N is driven low (R512). -/
def smbAlert (d : Dev) : Bool := faultN d || d.therm.trip || d.therm.hbm0.throttled || d.therm.hbm1.throttled

/-- The status word of SMBus command 0x04 from a sample. -/
def smbStatus (m : Dev) : Nat :=
  modeCode m.mode + b2n (faultN m) * 2 ^ 3 + b2n m.therm.trip * 2 ^ 4 + b2n m.therm.hbm0.throttled * 2 ^ 5
  + b2n m.therm.hbm1.throttled * 2 ^ 6 + b2n (meterHold m || meterFull m) * 2 ^ 7

/-- SMBus's CRC-8. (PRESUMED, log entry 163) -/
def crc8 (bs : List Byte) : Byte :=
  bs.foldl (fun c b => (List.range 8).foldl (fun (c : Byte) _ => if c.msb then (c <<< 1) ^^^ 0x07 else c <<< 1) (c ^^^ b)) 0

/-- The PEC of a read of a command: over the address with its direction, the command and the data. -/
def smbPec (cmd : Byte) (data : List Byte) : Byte := crc8 ([0x74, cmd, 0x75] ++ data)

/-- Answer a read with the value of the last sample, and its PEC. (DEDUCED, log entry 123) -/
def smbRead (cmd : Byte) (bytes : Dev → List Byte) (s : State) : Host.Outcome State Fault Refusal :=
  lift0 (fun d => emit (.smbus (bytes s.mir) (smbPec cmd (bytes s.mir))) d) s

/-- A signed value as a word. -/
def smbSigned (x : Int) : List Byte := leBytes 2 (BitVec.ofInt 16 x).toNat

/-- SMB_READ_TJ_MAX (command 0x01). -/
def execSmbReadTjMax (s : State) : Host.Outcome State Fault Refusal := smbRead 0x01 (fun m => smbSigned m.therm.tjMax) s
/-- SMB_READ_HBM0_TEMP (0x02). -/
def execSmbReadHbm0Temp (s : State) : Host.Outcome State Fault Refusal := smbRead 0x02 (fun m => smbSigned m.therm.hbm0.temp) s
/-- SMB_READ_HBM1_TEMP (0x03). -/
def execSmbReadHbm1Temp (s : State) : Host.Outcome State Fault Refusal := smbRead 0x03 (fun m => smbSigned m.therm.hbm1.temp) s
/-- SMB_READ_STATUS (0x04). -/
def execSmbReadStatus (s : State) : Host.Outcome State Fault Refusal := smbRead 0x04 (fun m => leBytes 2 (smbStatus m)) s
/-- SMB_READ_VDD_REQ (0x05). -/
def execSmbReadVddReq (s : State) : Host.Outcome State Fault Refusal := smbRead 0x05 (fun m => leBytes 2 m.pace.vdd) s
/-- SMB_READ_PACE (0x06). -/
def execSmbReadPace (s : State) : Host.Outcome State Fault Refusal := smbRead 0x06 (fun m => leBytes 2 m.pace.now) s
/-- SMB_READ_UNIT_ID (0x10): a block read, its byte count first. -/
def execSmbReadUnitId (s : State) : Host.Outcome State Fault Refusal := smbRead 0x10 (fun m => [8] ++ leBytes 8 m.fuse.unitId.toNat) s
/-- SMB_WRITE: refused with a NACK. -/
def execSmbWrite (s : State) : Host.Outcome State Fault Refusal := lift0 (emit .smbusNack) s

/-- What happens with no command waiting: one cycle of the management clock and of the metering island (R41, R384; DESIGN
CHOICE, log entry 4). While power-on reset is held, the island alone runs (R507). -/
def idle (s : State) : State := { s with dev := islandCycle (if asleep s.dev then s.dev else clockCycle s.dev) }

end Sys2Proof.Machine
end

