-- ==== Sys2Proof/Machine/Dispatch.lean ====
section
/-!
DEFINITION. From each command to its meaning.
-/
namespace Sys2Proof.Machine

open Sys2Proof

/-- A command's effect on everything but the queue. -/
def exec (i : Instr) (s : State) : Host.Outcome State Fault Refusal :=
  match i with
  | .createSq f e => Sys2Proof.Machine.execCreateSq f e s
  | .destroySq f e => Sys2Proof.Machine.execDestroySq f e s
  | .createCq f e => Sys2Proof.Machine.execCreateCq f e s
  | .destroyCq f e => Sys2Proof.Machine.execDestroyCq f e s
  | .createEq f e => Sys2Proof.Machine.execCreateEq f e s
  | .destroyEq f e => Sys2Proof.Machine.execDestroyEq f e s
  | .subscribeEvents f e => Sys2Proof.Machine.execSubscribeEvents f e s
  | .queryQueue f e => Sys2Proof.Machine.execQueryQueue f e s
  | .createConn f e => Sys2Proof.Machine.execCreateConn f e s
  | .destroyConn f e => Sys2Proof.Machine.execDestroyConn f e s
  | .modifyConn f e => Sys2Proof.Machine.execModifyConn f e s
  | .createMatchCtx f e => Sys2Proof.Machine.execCreateMatchCtx f e s
  | .destroyMatchCtx f e => Sys2Proof.Machine.execDestroyMatchCtx f e s
  | .registerRegion f e => Sys2Proof.Machine.execRegisterRegion f e s
  | .deregisterRegion f e => Sys2Proof.Machine.execDeregisterRegion f e s
  | .deregisterRegionDone f => Sys2Proof.Machine.execDeregisterRegionDone f s
  | .setTranslationRoot f e => Sys2Proof.Machine.execSetTranslationRoot f e s
  | .setTranslationRootDone f => Sys2Proof.Machine.execSetTranslationRootDone f s
  | .invalidate f e => Sys2Proof.Machine.execInvalidate f e s
  | .invalidateDone f => Sys2Proof.Machine.execInvalidateDone f s
  | .resumeMark f e => Sys2Proof.Machine.execResumeMark f e s
  | .joinTree f e => Sys2Proof.Machine.execJoinTree f e s
  | .leaveTree f e => Sys2Proof.Machine.execLeaveTree f e s
  | .setShaper f e => Sys2Proof.Machine.execSetShaper f e s
  | .setPolicer f e => Sys2Proof.Machine.execSetPolicer f e s
  | .parkFunction f e => Sys2Proof.Machine.execParkFunction f e s
  | .parkFunctionDone f => Sys2Proof.Machine.execParkFunctionDone f s
  | .unparkFunction f e => Sys2Proof.Machine.execUnparkFunction f e s
  | .unparkFunctionDone f crcOk => Sys2Proof.Machine.execUnparkFunctionDone f crcOk s
  | .setFuncDomain f e => Sys2Proof.Machine.execSetFuncDomain f e s
  | .setFuncQuota f e q => Sys2Proof.Machine.execSetFuncQuota f e q s
  | .queryFunc f e => Sys2Proof.Machine.execQueryFunc f e s
  | .setMode f e => Sys2Proof.Machine.execSetMode f e s
  | .setModeDeviceReset f e => Sys2Proof.Machine.execSetModeDeviceReset f e s
  | .fabricMgmtSend f e buf => Sys2Proof.Machine.execFabricMgmtSend f e buf s
  | .fabricMgmtRecv f e => Sys2Proof.Machine.execFabricMgmtRecv f e s
  | .fabricMgmtLocal f e buf => Sys2Proof.Machine.execFabricMgmtLocal f e buf s
  | .faultClear f e => Sys2Proof.Machine.execFaultClear f e s
  | .identify f e => Sys2Proof.Machine.execIdentify f e s
  | .descriptorFetch f r res => Sys2Proof.Machine.execDescriptorFetch f r res s
  | .nop f sq e => Sys2Proof.Machine.execNop f sq e s
  | .put f sq e => Sys2Proof.Machine.execPut f sq e s
  | .putFlag f sq e => Sys2Proof.Machine.execPutFlag f sq e s
  | .get f sq e => Sys2Proof.Machine.execGet f sq e s
  | .atomic f sq e => Sys2Proof.Machine.execAtomic f sq e s
  | .sendTagged f sq e => Sys2Proof.Machine.execSendTagged f sq e s
  | .postRecv f sq e => Sys2Proof.Machine.execPostRecv f sq e s
  | .note f sq e => Sys2Proof.Machine.execNote f sq e s
  | .coll f sq e => Sys2Proof.Machine.execColl f sq e s
  | .fence f sq e => Sys2Proof.Machine.execFence f sq e s
  | .sqDoorbell f n w => Sys2Proof.Machine.execSqDoorbell f n w s
  | .aqDb f w => Sys2Proof.Machine.execAqDb f w s
  | .acqDb f w => Sys2Proof.Machine.execAcqDb f w s
  | .cqDoorbell f n w => Sys2Proof.Machine.execCqDoorbell f n w s
  | .eqDoorbell f n w => Sys2Proof.Machine.execEqDoorbell f n w s
  | .aqCfgWrite f w => Sys2Proof.Machine.execAqCfgWrite f w s
  | .acqCfgWrite f w => Sys2Proof.Machine.execAcqCfgWrite f w s
  | .ownerCtlWrite m w => Sys2Proof.Machine.execOwnerCtlWrite m w s
  | .cqStallTimeout f n => Sys2Proof.Machine.execCqStallTimeout f n s
  | .coalTimeExpiry f n => Sys2Proof.Machine.execCoalTimeExpiry f n s
  | .functionLevelReset f => Sys2Proof.Machine.execFunctionLevelReset f s
  | .flrComplete f => Sys2Proof.Machine.execFlrComplete f s
  | .vfDisable p num en => Sys2Proof.Machine.execVfDisable p num en s
  | .vfTeardownDone f => Sys2Proof.Machine.execVfTeardownDone f s
  | .hostLinkDown p => Sys2Proof.Machine.execHostLinkDown p s
  | .hostPortReset p => Sys2Proof.Machine.execHostPortReset p s
  | .tlpDiscard p aer => Sys2Proof.Machine.execTlpDiscard p aer s
  | .hostReadFailure id aer => Sys2Proof.Machine.execHostReadFailure id aer s
  | .pcieCompletionTimeout id => Sys2Proof.Machine.execPcieCompletionTimeout id s
  | .payloadReadDone id data => Sys2Proof.Machine.execPayloadReadDone id data s
  | .walkReadResponse id e => Sys2Proof.Machine.execWalkReadResponse id e s
  | .markRereadResponse id e => Sys2Proof.Machine.execMarkRereadResponse id e s
  | .getTargetReadDone id data => Sys2Proof.Machine.execGetTargetReadDone id data s
  | .atomicTargetReadDone id w => Sys2Proof.Machine.execAtomicTargetReadDone id w s
  | .putPacket p => Sys2Proof.Machine.execPutPacket p s
  | .putFlagPacket p => Sys2Proof.Machine.execPutFlagPacket p s
  | .getReq p => Sys2Proof.Machine.execGetReq p s
  | .getResp p => Sys2Proof.Machine.execGetResp p s
  | .atomicReq p => Sys2Proof.Machine.execAtomicReq p s
  | .sendPacket p => Sys2Proof.Machine.execSendPacket p s
  | .rendezvousFinish p => Sys2Proof.Machine.execRendezvousFinish p s
  | .notePacket p => Sys2Proof.Machine.execNotePacket p s
  | .stagedCopyDone id => Sys2Proof.Machine.execStagedCopyDone id s
  | .ack m => Sys2Proof.Machine.execAck m s
  | .nak m => Sys2Proof.Machine.execNak m s
  | .rnrNak m => Sys2Proof.Machine.execRnrNak m s
  | .accessNak m => Sys2Proof.Machine.execAccessNak m s
  | .atomicResp m => Sys2Proof.Machine.execAtomicResp m s
  | .connReset m => Sys2Proof.Machine.execConnReset m s
  | .funcReset m => Sys2Proof.Machine.execFuncReset m s
  | .destDown m => Sys2Proof.Machine.execDestDown m s
  | .retransmitTimeout n => Sys2Proof.Machine.execRetransmitTimeout n s
  | .rnrWaitEnd n => Sys2Proof.Machine.execRnrWaitEnd n s
  | .ackTimer n => Sys2Proof.Machine.execAckTimer n s
  | .contextFetchDone n => Sys2Proof.Machine.execContextFetchDone n s
  | .contextWriteoutDone n => Sys2Proof.Machine.execContextWriteoutDone n s
  | .missWaitTimeout n => Sys2Proof.Machine.execMissWaitTimeout n s
  | .handshakeStall src => Sys2Proof.Machine.execHandshakeStall src s
  | .faultReport x => Sys2Proof.Machine.execFaultReport x s
  | .graftDone slot => Sys2Proof.Machine.execGraftDone slot s
  | .notifyHoldoffEnd => Sys2Proof.Machine.execNotifyHoldoffEnd s
  | .reportPathFailure src => Sys2Proof.Machine.execReportPathFailure src s
  | .faultRecordClear m src => Sys2Proof.Machine.execFaultRecordClear m src s
  | .corrClr m src => Sys2Proof.Machine.execCorrClr m src s
  | .fltForce m src fc => Sys2Proof.Machine.execFltForce m src fc s
  | .fltBreak m src => Sys2Proof.Machine.execFltBreak m src s
  | .eccUncorrectable src detail object => Sys2Proof.Machine.execEccUncorrectable src detail object s
  | .eccCorrected src => Sys2Proof.Machine.execEccCorrected src s
  | .quillWatchdog => Sys2Proof.Machine.execQuillWatchdog s
  | .hbmStackFailure n => Sys2Proof.Machine.execHbmStackFailure n s
  | .treeUp port p => Sys2Proof.Machine.execTreeUp port p s
  | .treeDown port p => Sys2Proof.Machine.execTreeDown port p s
  | .upCredit port p => Sys2Proof.Machine.execUpCredit port p s
  | .downCredit port p => Sys2Proof.Machine.execDownCredit port p s
  | .treeAck port p => Sys2Proof.Machine.execTreeAck port p s
  | .treeDone port p => Sys2Proof.Machine.execTreeDone port p s
  | .treeAbort port p => Sys2Proof.Machine.execTreeAbort port p s
  | .treeTimeout tree => Sys2Proof.Machine.execTreeTimeout tree s
  | .treeContribReadDone id data => Sys2Proof.Machine.execTreeContribReadDone id data s
  | .routePacket ing it resid => Sys2Proof.Machine.execRoutePacket ing it resid s
  | .packetAgeExpiry it => Sys2Proof.Machine.execPacketAgeExpiry it s
  | .nibStallDiscard p => Sys2Proof.Machine.execNibStallDiscard p s
  | .armA m w => Sys2Proof.Machine.execArmA m w s
  | .armB m w => Sys2Proof.Machine.execArmB m w s
  | .retireA m w => Sys2Proof.Machine.execRetireA m w s
  | .retireB m w => Sys2Proof.Machine.execRetireB m w s
  | .stampWrite m w => Sys2Proof.Machine.execStampWrite m w s
  | .tableRead m w => Sys2Proof.Machine.execTableRead m w s
  | .tableWrite m w => Sys2Proof.Machine.execTableWrite m w s
  | .forcedWrite m w => Sys2Proof.Machine.execForcedWrite m w s
  | .rtCoordWrite m w => Sys2Proof.Machine.execRtCoordWrite m w s
  | .rtHpDrainWrite m w => Sys2Proof.Machine.execRtHpDrainWrite m w s
  | .drainLimitExpiry p => Sys2Proof.Machine.execDrainLimitExpiry p s
  | .flitReceive p a slots => Sys2Proof.Machine.execFlitReceive p a slots s
  | .replayTimeout p => Sys2Proof.Machine.execReplayTimeout p s
  | .linkHello p m => Sys2Proof.Machine.execLinkHello p m s
  | .linkHelloTimer p => Sys2Proof.Machine.execLinkHelloTimer p s
  | .changeReq p m => Sys2Proof.Machine.execChangeReq p m s
  | .changeAck p m => Sys2Proof.Machine.execChangeAck p m s
  | .changeGo p m => Sys2Proof.Machine.execChangeGo p m s
  | .changeBusy p m => Sys2Proof.Machine.execChangeBusy p m s
  | .changeBusyWaitEnd p => Sys2Proof.Machine.execChangeBusyWaitEnd p s
  | .changeDone p m => Sys2Proof.Machine.execChangeDone p m s
  | .changeReqTimeout p => Sys2Proof.Machine.execChangeReqTimeout p s
  | .linkMode p m => Sys2Proof.Machine.execLinkMode p m s
  | .timeReq p m => Sys2Proof.Machine.execTimeReq p m s
  | .timeResp p m => Sys2Proof.Machine.execTimeResp p m s
  | .timeExchangeTimer => Sys2Proof.Machine.execTimeExchangeTimer s
  | .laneHealthWindow p j sym unc bip => Sys2Proof.Machine.execLaneHealthWindow p j sym unc bip s
  | .laneSignalLoss p j lol => Sys2Proof.Machine.execLaneSignalLoss p j lol s
  | .frameLockGained p j before last => Sys2Proof.Machine.execFrameLockGained p j before last s
  | .frameLockLost x => Sys2Proof.Machine.execFrameLockLost x s
  | .frameLockTimeout p => Sys2Proof.Machine.execFrameLockTimeout p s
  | .trainLockTimeout p j => Sys2Proof.Machine.execTrainLockTimeout p j s
  | .rateLockTimeout p => Sys2Proof.Machine.execRateLockTimeout p s
  | .portDownDwellEnd p => Sys2Proof.Machine.execPortDownDwellEnd p s
  | .laneRestoreTimer p j => Sys2Proof.Machine.execLaneRestoreTimer p j s
  | .laneSoakEnd p j => Sys2Proof.Machine.execLaneSoakEnd p j s
  | .portEnable m p => Sys2Proof.Machine.execPortEnable m p s
  | .portDisable m p => Sys2Proof.Machine.execPortDisable m p s
  | .narrowLane0 m p => Sys2Proof.Machine.execNarrowLane0 m p s
  | .narrowLane1 m p => Sys2Proof.Machine.execNarrowLane1 m p s
  | .widen m p => Sys2Proof.Machine.execWiden m p s
  | .retrainLane0 m p => Sys2Proof.Machine.execRetrainLane0 m p s
  | .retrainLane1 m p => Sys2Proof.Machine.execRetrainLane1 m p s
  | .portRestart m p => Sys2Proof.Machine.execPortRestart m p s
  | .paceMeasurement counts slots => Sys2Proof.Machine.execPaceMeasurement counts slots s
  | .paceEventHoldoffEnd k => Sys2Proof.Machine.execPaceEventHoldoffEnd k s
  | .governorEvaluation => Sys2Proof.Machine.execGovernorEvaluation s
  | .avsRequestComplete => Sys2Proof.Machine.execAvsRequestComplete s
  | .avsTimeout status => Sys2Proof.Machine.execAvsTimeout status s
  | .avsFault status => Sys2Proof.Machine.execAvsFault status s
  | .avsRetry => Sys2Proof.Machine.execAvsRetry s
  | .thermalSample raw hbm0 hbm1 => Sys2Proof.Machine.execThermalSample raw hbm0 hbm1 s
  | .thermtrip => Sys2Proof.Machine.execThermtrip s
  | .shaperRefill => Sys2Proof.Machine.execShaperRefill s
  | .gateEntryChange p starts => Sys2Proof.Machine.execGateEntryChange p starts s
  | .gclRead m w => Sys2Proof.Machine.execGclRead m w s
  | .gclWrite m w => Sys2Proof.Machine.execGclWrite m w s
  | .svcLinkAck n f => Sys2Proof.Machine.execSvcLinkAck n f s
  | .svcHello n f => Sys2Proof.Machine.execSvcHello n f s
  | .svcHelloTimer n => Sys2Proof.Machine.execSvcHelloTimer n s
  | .speed n f speed => Sys2Proof.Machine.execSpeed n f speed s
  | .speedSwitch n => Sys2Proof.Machine.execSpeedSwitch n s
  | .speedLockTimeout n => Sys2Proof.Machine.execSpeedLockTimeout n s
  | .discover n f => Sys2Proof.Machine.execDiscover n f s
  | .discoverReply n f => Sys2Proof.Machine.execDiscoverReply n f s
  | .command n f => Sys2Proof.Machine.execCommand n f s
  | .response n f => Sys2Proof.Machine.execResponse n f s
  | .heartbeat n f => Sys2Proof.Machine.execHeartbeat n f s
  | .notify n f => Sys2Proof.Machine.execNotify n f s
  | .image n f => Sys2Proof.Machine.execImage n f s
  | .svcLockGained n => Sys2Proof.Machine.execSvcLockGained n s
  | .svcLockLost x => Sys2Proof.Machine.execSvcLockLost x s
  | .svcAckTimeout n => Sys2Proof.Machine.execSvcAckTimeout n s
  | .svcLinkAckTimer n => Sys2Proof.Machine.execSvcLinkAckTimer n s
  | .svcRestart m n w => Sys2Proof.Machine.execSvcRestart m n w s
  | .svcRtRead m w => Sys2Proof.Machine.execSvcRtRead m w s
  | .svcRtWrite m w => Sys2Proof.Machine.execSvcRtWrite m w s
  | .upstreamTimeout => Sys2Proof.Machine.execUpstreamTimeout s
  | .heartbeatTimer => Sys2Proof.Machine.execHeartbeatTimer s
  | .managerListenEnd => Sys2Proof.Machine.execManagerListenEnd s
  | .takeover => Sys2Proof.Machine.execTakeover s
  | .leaseTimeout => Sys2Proof.Machine.execLeaseTimeout s
  | .ppsInEdge => Sys2Proof.Machine.execPpsInEdge s
  | .ftSet m w => Sys2Proof.Machine.execFtSet m w s
  | .modeArbitration => Sys2Proof.Machine.execModeArbitration s
  | .modeCtlReq m w => Sys2Proof.Machine.execModeCtlReq m w s
  | .modeCtlDeviceReset m w => Sys2Proof.Machine.execModeCtlDeviceReset m w s
  | .tallyTapDelivery tap => Sys2Proof.Machine.execTallyTapDelivery tap s
  | .tapSilence tap => Sys2Proof.Machine.execTapSilence tap s
  | .meterSample => Sys2Proof.Machine.execMeterSample s
  | .minuteBoundary => Sys2Proof.Machine.execMinuteBoundary s
  | .blockSigned => Sys2Proof.Machine.execBlockSigned s
  | .flashWriteDone ok => Sys2Proof.Machine.execFlashWriteDone ok s
  | .sealSample opened => Sys2Proof.Machine.execSealSample opened s
  | .islandPowerUp sealOpen => Sys2Proof.Machine.execIslandPowerUp sealOpen s
  | .mtrTimeSet m w => Sys2Proof.Machine.execMtrTimeSet m w s
  | .mtrTimeAdj m w => Sys2Proof.Machine.execMtrTimeAdj m w s
  | .mtrAck m w => Sys2Proof.Machine.execMtrAck m w s
  | .mtrRdSel k m w => Sys2Proof.Machine.execMtrRdSel k m w s
  | .mtrWindowRead k m n lo hi => Sys2Proof.Machine.execMtrWindowRead k m n lo hi s
  | .trimSet m w => Sys2Proof.Machine.execTrimSet m w s
  | .operatorSet m w => Sys2Proof.Machine.execOperatorSet m w s
  | .mtrFwBegin m w => Sys2Proof.Machine.execMtrFwBegin m w s
  | .mtrFwData m w => Sys2Proof.Machine.execMtrFwData m w s
  | .mtrFwActivate m w => Sys2Proof.Machine.execMtrFwActivate m w s
  | .meterXoLoss => Sys2Proof.Machine.execMeterXoLoss s
  | .vddMtrLoss => Sys2Proof.Machine.execVddMtrLoss s
  | .powerOnReset role bootSrc recovery => Sys2Proof.Machine.execPowerOnReset role bootSrc recovery s
  | .deviceReset recovery => Sys2Proof.Machine.execDeviceReset recovery s
  | .bootComplete => Sys2Proof.Machine.execBootComplete s
  | .fwActivate m w => Sys2Proof.Machine.execFwActivate m w s
  | .fwActivateDone => Sys2Proof.Machine.execFwActivateDone s
  | .fwCommit m w => Sys2Proof.Machine.execFwCommit m w s
  | .getVersion p => Sys2Proof.Machine.execGetVersion p s
  | .getCapabilities p => Sys2Proof.Machine.execGetCapabilities p s
  | .negotiateAlgorithms p => Sys2Proof.Machine.execNegotiateAlgorithms p s
  | .getDigests p => Sys2Proof.Machine.execGetDigests p s
  | .getCertificate p slot off len => Sys2Proof.Machine.execGetCertificate p slot off len s
  | .challenge p req => Sys2Proof.Machine.execChallenge p req s
  | .getMeasurements p req => Sys2Proof.Machine.execGetMeasurements p req s
  | .spdmUnsupportedRequest p => Sys2Proof.Machine.execSpdmUnsupportedRequest p s
  | .supplyBrownout => Sys2Proof.Machine.execSupplyBrownout s
  | .mgmtXoLoss => Sys2Proof.Machine.execMgmtXoLoss s
  | .refclkFabLoss q => Sys2Proof.Machine.execRefclkFabLoss q s
  | .bypass => Sys2Proof.Machine.execBypass s
  | .idcode => Sys2Proof.Machine.execIdcode s
  | .samplePreload => Sys2Proof.Machine.execSamplePreload s
  | .extest rstLow => Sys2Proof.Machine.execExtest rstLow s
  | .extestPulse rstLow => Sys2Proof.Machine.execExtestPulse rstLow s
  | .extestTrain rstLow => Sys2Proof.Machine.execExtestTrain rstLow s
  | .clamp rstLow => Sys2Proof.Machine.execClamp rstLow s
  | .highz rstLow => Sys2Proof.Machine.execHighz rstLow s
  | .smbReadTjMax => Sys2Proof.Machine.execSmbReadTjMax s
  | .smbReadHbm0Temp => Sys2Proof.Machine.execSmbReadHbm0Temp s
  | .smbReadHbm1Temp => Sys2Proof.Machine.execSmbReadHbm1Temp s
  | .smbReadStatus => Sys2Proof.Machine.execSmbReadStatus s
  | .smbReadVddReq => Sys2Proof.Machine.execSmbReadVddReq s
  | .smbReadPace => Sys2Proof.Machine.execSmbReadPace s
  | .smbReadUnitId => Sys2Proof.Machine.execSmbReadUnitId s
  | .smbWrite => Sys2Proof.Machine.execSmbWrite s
  | .pmuSelWrite m k w => Sys2Proof.Machine.execPmuSelWrite m k w s
  | .pmuClear m w => Sys2Proof.Machine.execPmuClear m w s
  | .bwWindowEnd => Sys2Proof.Machine.execBwWindowEnd s
  | .dumpEnable m w => Sys2Proof.Machine.execDumpEnable m w s
  | .dumpBoundary => Sys2Proof.Machine.execDumpBoundary s
  | .inkStart m w => Sys2Proof.Machine.execInkStart m w s
  | .inkStop m w => Sys2Proof.Machine.execInkStop m w s
  | .inkDiscard m w => Sys2Proof.Machine.execInkDiscard m w s
  | .inkTransfer m w => Sys2Proof.Machine.execInkTransfer m w s
  | .inkReplay m w => Sys2Proof.Machine.execInkReplay m w s
  | .inkCheckpointDone => Sys2Proof.Machine.execInkCheckpointDone s
  | .inkSegmentFull x => Sys2Proof.Machine.execInkSegmentFull x s
  | .inkPostTriggerEnd => Sys2Proof.Machine.execInkPostTriggerEnd s
  | .inkTransferDone heads => Sys2Proof.Machine.execInkTransferDone heads s
  | .inkReplayDone r => Sys2Proof.Machine.execInkReplayDone r s
  | .cfgCommit m w => Sys2Proof.Machine.execCfgCommit m w s
  | .commitEvaluation => Sys2Proof.Machine.execCommitEvaluation s
  | .crcSweepComplete => Sys2Proof.Machine.execCrcSweepComplete s
  | .crcCapture m w => Sys2Proof.Machine.execCrcCapture m w s
  | .cfgLock m w => Sys2Proof.Machine.execCfgLock m w s
  | .regParityMismatch f off => Sys2Proof.Machine.execRegParityMismatch f off s
  | .stagedParityMismatch off => Sys2Proof.Machine.execStagedParityMismatch off s
  | .clearOnRead m b off a => Sys2Proof.Machine.execClearOnRead m b off a s
  | .registerWrite m b off w => Sys2Proof.Machine.execRegisterWrite m b off w s
  | .hostLinkUp p => Sys2Proof.Machine.execHostLinkUp p s
  | .pcieConfigWrite f c => Sys2Proof.Machine.execPcieConfigWrite f c s
  | .flitSend p => Sys2Proof.Machine.execFlitSend p s
  | .slotVerifyDone => Sys2Proof.Machine.execSlotVerifyDone s
  | .internalResetRelease role bootSrc recovery => Sys2Proof.Machine.execInternalResetRelease role bootSrc recovery s
  | .mtrFwVerifyDone sigOk version => Sys2Proof.Machine.execMtrFwVerifyDone sigOk version s

end Sys2Proof.Machine
end

