-- ==== Sys2Proof/Machine/Step.lean ====
section
/-!
DEFINITION. One step of the block: the command at the front of the queue; on an empty queue, one cycle of the clocks.
-/
namespace Sys2Proof.Machine

open Sys2Proof

/-- The command at the front runs on the state with the rest of the queue. With no command waiting, one cycle of the
management clock and of the metering island's passes (R41, R384; DESIGN CHOICE, log entry 4).
(DESIGN CHOICE, log entry 19) (DESIGN CHOICE, log entry 48) (DESIGN CHOICE, log entry 68) -/
def step (s : State) : Host.Outcome State Fault Refusal :=
  match s.pending with
  | [] => .next (idle s)
  | c :: rest => exec c { s with pending := rest }

/-- The state with the command a table word spells in front of its queue: no word spells one. -/
def State.withFetchWord (s : State) (nbits w : Nat) : State :=
  match decodeTableWord nbits w with
  | none => s
  | some c => { s with pending := c :: s.pending }

end Sys2Proof.Machine
end

