-- ==== Sys2Proof/Safety.lean ====
section
/-!
DEFINITION. What the statements call sound: the fuses of a device, the form of its tables, and the states a command leaves.
-/
namespace Sys2Proof.Machine

open Sys2Proof

/-- A table in its one form: keys strictly rising, so none twice. -/
abbrev rising {α : Type} (t : Tbl α) : Prop := t.Pairwise (fun a b => a.1 < b.1)

/-- The tables of functions, host ports, fabric ports and connection contexts are in their one form. -/
def ordered (d : Dev) : Prop := rising d.fns ∧ rising d.hp ∧ rising d.ports ∧ rising d.xpt.conns

/-- The straps that only a power-on reset samples (R435). -/
abbrev pins (s : Strap) : BitVec 2 × BitVec 2 := (s.role, s.bootSrc)

/-- Fuses as they may stand later: the anti-rollback count has not fallen and nothing else has changed (R452). -/
abbrev fuseKept (a b : Fuse) : Prop := a.svn ≤ b.svn ∧ b = { a with svn := b.svn }

/-- The commands that may change a stored register, a staged copy, a fuse or a strap: writes and reads of registers and table
windows, port and recording commands that set a control bit, commits and sweeps, mode changes, boot, firmware, and resets. -/
def setsRegs : Instr → Bool
  | .armA .. | .armB .. | .bootComplete .. | .cfgLock .. | .command .. | .commitEvaluation .. | .crcCapture ..
  | .crcSweepComplete .. | .deviceReset .. | .dumpBoundary .. | .dumpEnable .. | .fabricMgmtLocal .. | .fabricMgmtSend ..
  | .forcedWrite .. | .functionLevelReset .. | .fwActivate .. | .fwCommit .. | .gclRead .. | .gclWrite .. | .hostLinkDown ..
  | .hostPortReset .. | .inkDiscard .. | .inkReplay .. | .inkStart .. | .inkStop .. | .inkTransfer ..
  | .internalResetRelease .. | .managerListenEnd .. | .mgmtXoLoss .. | .modeArbitration .. | .ownerCtlWrite ..
  | .paceMeasurement .. | .pcieConfigWrite .. | .pmuClear .. | .pmuSelWrite .. | .portDisable .. | .portEnable ..
  | .powerOnReset .. | .quillWatchdog .. | .registerWrite .. | .retireA .. | .retireB .. | .rtCoordWrite ..
  | .rtHpDrainWrite .. | .slotVerifyDone .. | .stampWrite .. | .supplyBrownout .. | .svcRestart .. | .svcRtRead ..
  | .svcRtWrite .. | .tableRead .. | .tableWrite .. | .takeover .. => true
  | _ => false

/-- The commands that take a new sample of the mirrors: the close of the management tick, and the resets of the device. -/
def samples : Instr → Bool
  | .paceMeasurement .. | .powerOnReset .. | .deviceReset .. | .supplyBrownout .. | .mgmtXoLoss .. | .internalResetRelease ..
  | .quillWatchdog .. | .slotVerifyDone .. => true
  | _ => false

/-- A device's stored and staged registers, functions, host ports, fabric ports and connections are tables in their one form:
keys strictly rising, no function, port or connection twice. -/
abbrev soundDev (d : Dev) : Prop := rising d.regs ∧ rising d.stg ∧ ordered d

/-- So are the device's and those of the last sample. -/
abbrev Sound (s : State) : Prop := soundDev s.dev ∧ soundDev s.mir

/-- The state with the device as a command leaves it, once what follows at once has been done. -/
def State.after (s : State) (d : Dev) : State := { s with dev := rest d }

/-- The state with the device as a command leaves it, where nothing follows. -/
def State.now (s : State) (d : Dev) : State := { s with dev := d }

/-- The device takes commands: power-on reset is not held internally. -/
abbrev listens (s : State) : Prop := asleep s.dev = false

/-- An access by this master is carried out at once: it is not the fabric manager's, or no COMMAND holds the sequencer (R42,
R60). -/
abbrev atOnce (m : Master) (s : State) : Prop := m = .fabricManager → seqHeld s.dev = false

/-- The master of a command that is an access to a register or a window. -/
def masterOf : Instr → Option Master
  | .ownerCtlWrite m _ => some m
  | .portEnable m _ => some m
  | .portDisable m _ => some m
  | .narrowLane0 m _ => some m
  | .narrowLane1 m _ => some m
  | .widen m _ => some m
  | .retrainLane0 m _ => some m
  | .retrainLane1 m _ => some m
  | .portRestart m _ => some m
  | .armA m _ => some m
  | .armB m _ => some m
  | .retireA m _ => some m
  | .retireB m _ => some m
  | .stampWrite m _ => some m
  | .tableRead m _ => some m
  | .tableWrite m _ => some m
  | .forcedWrite m _ => some m
  | .rtCoordWrite m _ => some m
  | .rtHpDrainWrite m _ => some m
  | .gclRead m _ => some m
  | .gclWrite m _ => some m
  | .ftSet m _ => some m
  | .svcRestart m _ _ => some m
  | .svcRtRead m _ => some m
  | .svcRtWrite m _ => some m
  | .mtrTimeSet m _ => some m
  | .mtrTimeAdj m _ => some m
  | .trimSet m _ => some m
  | .operatorSet m _ => some m
  | .mtrFwBegin m _ => some m
  | .mtrFwActivate m _ => some m
  | .mtrFwData m _ => some m
  | .mtrRdSel _ m _ => some m
  | .mtrWindowRead _ m _ _ _ => some m
  | .mtrAck m _ => some m
  | .pmuSelWrite m _ _ => some m
  | .pmuClear m _ => some m
  | .dumpEnable m _ => some m
  | .faultRecordClear m _ => some m
  | .corrClr m _ => some m
  | .fltForce m _ _ => some m
  | .fltBreak m _ => some m
  | .inkStart m _ => some m
  | .inkStop m _ => some m
  | .inkDiscard m _ => some m
  | .inkTransfer m _ => some m
  | .inkReplay m _ => some m
  | .modeCtlReq m _ => some m
  | .modeCtlDeviceReset m _ => some m
  | .fwActivate m _ => some m
  | .fwCommit m _ => some m
  | .registerWrite m _ _ _ => some m
  | .clearOnRead m _ _ _ => some m
  | .cfgCommit m _ => some m
  | .crcCapture m _ => some m
  | .cfgLock m _ => some m
  | _ => none

/-- The device once the entry at the head of a function's admin ring has been taken. -/
def entryTaken (f : FnId) (d : Dev) : Dev := updFn f (fun x => { x with admFetched := x.admFetched.drop 1 }) d

/-- An admin entry is the next one of its function's ring and passes every check that comes before its command's own:
steps 1 to 5 of R521. -/
abbrev admitted (op : Nat) (p : Perm) (f : FnId) (e : Desc) (s : State) : Prop :=
  listens s ∧ e.opcode = op ∧ admReady s.dev f e = true ∧ permitted (entryTaken f s.dev) f e p = true ∧
    fnExists (entryTaken f s.dev) (targetOf f e) = true ∧ admState (entryTaken f s.dev) (targetOf f e) e.opcode = none ∧
    (getFn (entryTaken f s.dev) (targetOf f e)).inFlr = false ∧ ((getFn (entryTaken f s.dev) (targetOf f e)).park = .no ∨ parkAdmits e.opcode = true)

/-- The code, the permission and the entry of a command that is a row of R61; FABRIC_MGMT's operations that go on to the service
network (SEND, LOCAL) and the later completions are not among them. -/
def adminOf : Instr → Option (Nat × Perm × FnId × Desc)
  | .createSq f e => some (0x01, .any, f, e)
  | .destroySq f e => some (0x02, .any, f, e)
  | .createCq f e => some (0x03, .any, f, e)
  | .destroyCq f e => some (0x04, .any, f, e)
  | .createEq f e => some (0x05, .any, f, e)
  | .destroyEq f e => some (0x06, .any, f, e)
  | .subscribeEvents f e => some (0x07, .any, f, e)
  | .queryQueue f e => some (0x08, .any, f, e)
  | .createConn f e => some (0x10, .any, f, e)
  | .destroyConn f e => some (0x11, .any, f, e)
  | .modifyConn f e => some (0x12, .any, f, e)
  | .createMatchCtx f e => some (0x18, .any, f, e)
  | .destroyMatchCtx f e => some (0x19, .any, f, e)
  | .registerRegion f e => some (0x20, .any, f, e)
  | .deregisterRegion f e => some (0x21, .any, f, e)
  | .setTranslationRoot f e => some (0x22, .any, f, e)
  | .invalidate f e => some (0x23, if e.f 0x18 8 2 = 3 then .owner else .any, f, e)
  | .resumeMark f e => some (0x24, .any, f, e)
  | .joinTree f e => some (0x28, .any, f, e)
  | .leaveTree f e => some (0x29, .any, f, e)
  | .setShaper f e => some (0x30, .pfForItsFns, f, e)
  | .setPolicer f e => some (0x31, .pfForItsFns, f, e)
  | .parkFunction f e => some (0x38, .pfForItsFns, f, e)
  | .unparkFunction f e => some (0x39, .pfForItsFns, f, e)
  | .setFuncDomain f e => some (0x40, .pfForItsFns, f, e)
  | .setFuncQuota f e _ => some (0x41, .pfForItsVfs, f, e)
  | .queryFunc f e => some (0x42, .pfOrSelf, f, e)
  | .setMode f e => if bit e.w1 8 = false then some (0x48, .owner, f, e) else none
  | .setModeDeviceReset f e => if bit e.w1 8 = true then some (0x48, .owner, f, e) else none
  | .fabricMgmtRecv f e => if fmOp e = 1 then some (0x49, .owner, f, e) else none
  | .faultClear f e => some (0x4A, .owner, f, e)
  | .identify f e => some (0x50, .any, f, e)
  | _ => none

/-- An admin entry is the next of its function's ring and its command carries its opcode. -/
abbrev nextEntry (op : Nat) (f : FnId) (e : Desc) (s : State) : Prop := listens s ∧ e.opcode = op ∧ admReady s.dev f e = true

/-- The state an admin entry leaves that completes with a status and does nothing else. -/
def refusedWith (st : Status) (f : FnId) (e : Desc) (s : State) : State :=
  s.after (postAcq f (admCqe e st 0 0) (entryTaken f s.dev))

/-- The same of one that the target's state refuses: MODIFY_CONN's completion returns its connection's state even so (R117). -/
def refusedEarly (st : Status) (f : FnId) (e : Desc) (s : State) : State :=
  let w := earlyWords (entryTaken f s.dev) (targetOf f e) e
  s.after (postAcq f (admCqe e st w.1 w.2) (entryTaken f s.dev))

/-- The wait of an admin command whose effect takes time (R60). -/
def waiting (op : Nat) (f : FnId) (e : Desc) (ids : List Nat) (d : Dev) : Dev :=
  updFn f (fun x => { x with admWait := some { cmdId := e.cmdId, op := op, target := targetOf f e, arg := e, ids := ids } }) d

/-- An admin command waits for its later completion. -/
abbrev awaited (op : Nat) (f : FnId) (w : AdmWait) (s : State) : Prop :=
  listens s ∧ (getFn s.dev f).admWait = some w ∧ w.op = op

/-- The device once that wait has ended. -/
def waitEnded (f : FnId) (d : Dev) : Dev := updFn f (fun x => { x with admWait := none }) d

/-- A work descriptor of an opcode is at the head of its queue's fetched list and may start. -/
abbrev starts (op : Nat) (f : FnId) (sq : Fin 65536) (e : Desc) (q : Sq) (x : Fetched) (s : State) : Prop :=
  listens s ∧ e.opcode = op ∧ mayStart s.dev f sq.val e = some (q, x)

/-- What it knows of itself once started. -/
def startOf (f : FnId) (sq : Fin 65536) (e : Desc) (q : Sq) (x : Fetched) (d : Dev) : Start :=
  { fn := f, sq := sq.val, cls := q.cls, cnt := x.cnt, cq := workCq d f q e, e := e }

/-- The device once it has left the fetched list: it is in flight, timed and counted, and recorded where its unit is. -/
def descTaken (op : Nat) (f : FnId) (sq : Fin 65536) (e : Desc) (q : Sq) (x : Fetched) (d : Dev) : Dev :=
  let tc := if usesConn op then (ownConn d f e).map (·.tc.toNat) else classOf d f sq.val e
  occur (opOcc 0x01 f e tc) (tagStart f sq.val x tc (inkDesc f sq.val x.cnt e (takeHead f sq.val q x (workCq d f q e) d)))

/-- The device once something that arrived is taken in; what is for the recorded unit is recorded and opens an operation
(R473, R474). -/
def arrived (it : Item) (mine : Bool) (key : InkKey) (bytes : List Byte) (d : Dev) : Dev :=
  if mine then inkInput 1 key bytes (takeLocal it d) else takeLocal it d

/-- A data packet is taken in. -/
def pktArrived (p : Packet) (d : Dev) : Dev :=
  arrived (.data p) (pktRecorded d p) (if p.ptype = ptNote then .once else .conn p.conn.toNat) (pktBytes p) d

/-- A transport message is taken in. -/
def nibArrived (m : Nib) (d : Dev) : Dev :=
  arrived (.nib m) (slotRecorded d (connSlot m.conn.toNat)) (.conn m.conn.toNat) (nibBytes m) d

/-- A tree packet is for the recorded Trellis unit. -/
def treeRecorded (d : Dev) (p : TreePkt) : Bool := (entryFor d p.tree.toNat p.rh.epoch).any fun t => tuRecorded d t.tu

/-- A tree packet is taken in. -/
def treeArrived (p : TreePkt) (d : Dev) : Dev := arrived (.tree p) (treeRecorded d p) .once (treeBytes p) d

/-- A data packet reaches its connection's context on the die past every check of its way there: the CRC, the domain
filter, the drain, the source, the connection's state and its slot's; no checkpoint holds it (R122, R51, R265, R147, R153, R154,
R190, R475). -/
abbrev packetFits (p : Packet) (c : Conn) (s : State) : Prop :=
  listens s ∧ s.dev.mode ≠ .quarantine ∧ (pktRecorded s.dev p && inkHolds s.dev) = false ∧ pktCrc p = p.crc ∧ fnExists s.dev (epFn p.rh.dest) = true ∧
    p.rh.domain = (getFn s.dev (epFn p.rh.dest)).domain ∧ portDrained s.dev (epFn p.rh.dest).port = false ∧
    getConn s.dev p.conn.toNat = some c ∧ c.fn = epFn p.rh.dest ∧ c.peer = p.rh.src ∧ c.st = .active ∧
    (getFn s.dev c.fn).inFlr = false ∧ (getFn s.dev c.fn).park = .no ∧
    slotGrafting s.dev (connSlot p.conn.toNat) = false ∧ inWriting s.dev p.conn.toNat = false ∧ isOnDie s.dev p.conn.toNat = true

/-- The device once a packet has come and its connection is the most recently used. -/
def packetTaken (p : Packet) (d : Dev) : Dev := touchCtx p.conn.toNat (pktArrived p d)

/-- The packet is in the window, new, in order where its connection asks for order, and nothing refuses it: it is marked
(R132). -/
abbrev packetAccepted (p : Packet) (c : Conn) (s : State) : Prop :=
  packetFits p c s ∧ psnDist c p.psn < 1024 ∧ c.bitmap.getLsbD (psnDist c p.psn) = false ∧
    (p.rh.det = false ∨ psnDist c p.psn = 0) ∧ refusal (packetTaken p s.dev) p.conn.toNat c p = .none

/-- The device once the packet is marked, its message's record reserved where it needs one (R132, R176). -/
def packetMarked (p : Packet) (c : Conn) (d : Dev) : Dev :=
  setConn p.conn.toNat (markPkt c p) (reserveMsg p.conn.toNat c p (packetTaken p d))

/-- A transport message of a type reaches its Active connection past every check of its way there: its engine is not
grafting and has the context or room for it, and no checkpoint holds it (R51, R135, R153, R154, R245, R475). -/
abbrev nibReaches (nt : Byte) (m : Nib) (c : Conn) (s : State) : Prop :=
  listens s ∧ m.ntype = nt ∧ (slotRecorded s.dev (connSlot m.conn.toNat) && inkHolds s.dev) = false ∧ nibCrc m = m.crc ∧ fnExists s.dev (epFn m.dest) = true ∧
    m.domain = (getFn s.dev (epFn m.dest)).domain ∧ getConn s.dev m.conn.toNat = some c ∧ c.fn = epFn m.dest ∧ c.st = .active ∧
    slotGrafting s.dev (connSlot m.conn.toNat) = false ∧ ctxReady s.dev m.conn.toNat = true

/-- The device once a transport message has come and its connection's context is in use. -/
def nibTaken (m : Nib) (d : Dev) : Dev := useCtx m.conn.toNat (nibArrived m d)

/-- The answer to a host read of a payload is the one awaited. -/
abbrev answers (id : Nat) (data : List Byte) (a : Access) (r : ReadReq) (d1 : Dev) (s : State) : Prop :=
  listens s ∧ takeRead id s.dev = some (r, d1) ∧ r.why = .payload a ∧ data.length = a.len

/-- A tree packet of a type reaches its node under the entry that holds: its CRC and domain are right and, but for
TREE_ABORT, it comes from a child or the parent as its type asks, its unit works, and it belongs to the node's operation
(R198, R208, R228, R231); no checkpoint holds it (R475). -/
abbrev treeReaches (pt : Byte) (port : Fin 64) (p : TreePkt) (t : TreeWords) (s : State) : Prop :=
  listens s ∧ p.ptype = pt ∧ s.dev.mode ≠ .quarantine ∧ (treeRecorded s.dev p && inkHolds s.dev) = false ∧ treeCrc p = p.crc ∧ entryFor s.dev p.tree.toNat p.rh.epoch = some t ∧
    p.rh.domain = t.domain ∧ (pt = ptTreeAbort ∨ ((if upward p then t.childFabric port.val = true else t.role = 2 ∧ t.parent = port.val) ∧
      s.dev.tre.failed.testBit t.tu = false ∧ (getNode s.dev p.tree.toNat).opn = p.opn.toNat))

/-- A frame of an FTYPE arrives in sequence on a service port whose link is up, its CRC right and a buffer free (R351, R354). -/
abbrev frameReaches (code : BitVec 4) (n : Fin 4) (f : Frame) (s : State) : Prop :=
  listens s ∧ (getSvc s.dev n.val).link = 2 ∧ f.ftype = code ∧ frameGood f = true ∧
    f.seq.toNat = (getSvc s.dev n.val).expect ∧ (getSvc s.dev n.val).rxBuf.length < 8

/-- The receive buffer a frame is put into. -/
def frameBuf (n : Nat) (d : Dev) : Nat := (leastFrom (fun t => !(getSvc d n).rxBuf.contains t) 9 0).getD 0

/-- The device once the frame is acknowledged, counted and stored (R354). -/
def frameStored (n : Nat) (f : Frame) (d : Dev) : Dev :=
  updSvc n (fun x => { x with expect := (x.expect + 1) % 16, rxBuf := x.rxBuf ++ [frameBuf n d], ackDue := true })
    (takeFrameAck n f d)

end Sys2Proof.Machine
end

