-- ==== Sys2Proof/Certificates/Slice0/Obligations.lean ====
section
/-! DEFINITION. What is claimed of the machine: one definition for each statement the provers prove or refute. -/

open Sys2Proof
open Sys2Proof.Machine

/-- For every command c, queue rest q and state s: step of s with the queue c followed by q is exec of c on s with the queue q. -/
def Obligations.StepRunsFront : Prop :=
  ∀ (c : Instr) (q : List Instr) (s : State), step { s with pending := c :: q } = exec c { s with pending := q }

/-- On an empty queue a step answers the state with the cycle of the management clock, unless power-on reset is held, and then the metering island's cycle
run on its device. That an empty queue is one cycle is the model's choice (log entry 4). -/
def Obligations.IdleStepIsOneCycle : Prop :=
  ∀ s : State, s.pending = [] →
  (listens s → step s = .next { s with dev := islandCycle (clockCycle s.dev) }) ∧
  (¬ listens s → step s = .next { s with dev := islandCycle s.dev })

/-- For every command and every state exec answers a next state whose queue is the one before (no command ends in a fault or a refusal), and every step
answers a next state whose queue has lost exactly its front. -/
def Obligations.EveryCommandEndsAndLeavesTheQueue : Prop :=
  (∀ (c : Instr) (s : State), ∃ t, exec c s = .next t ∧ t.pending = s.pending) ∧
  (∀ s : State, ∃ t, step s = .next t ∧ t.pending = s.pending.tail)

/-- Whatever the state and the command at the front of its queue (or none): if the stored and the staged registers, the functions, the host and fabric
ports and the connection contexts are strictly rising tables (none twice) in the device and in the last sample, then so they are in the state the step
answers. -/
def Obligations.SoundKeptByEveryStep : Prop :=
  ∀ s t : State, Sound s → step s = .next t → Sound t

/-- State.reset satisfies the invariant that every step keeps, its queue is empty and its mirrors show its device (that they do is the model's choice, log
entry 7). -/
def Obligations.ResetStateIsSound : Prop :=
  Sound State.reset ∧ State.reset.pending = [] ∧ State.reset.mir = State.reset.dev

/-- Whatever the command, or none: after a step from a state whose tables are in their one form the anti-rollback count is at least what it was, every
other fuse is as it was, and the last block acknowledged (MTR_SEQ_ACKED) is at least what it was. -/
def Obligations.FusesOnlyRiseInEveryStep : Prop :=
  ∀ s t : State, Sound s → step s = .next t → fuseKept s.dev.fuse t.dev.fuse ∧ s.dev.isl.acked ≤ t.dev.isl.acked

/-- For every command outside setsRegs (register and table-window writes and reads, commands that set a control bit, commits, sweeps, mode changes, boot,
firmware and resets) and every state, the state exec answers has the stored registers, the staged copies, the fuses, the straps and the mirrors of the
state before. -/
def Obligations.RegistersChangeOnlyByTheirCommands : Prop :=
  ∀ (c : Instr) (s t : State), setsRegs c = false → exec c s = .next t →
  t.dev.regs = s.dev.regs ∧ t.dev.stg = s.dev.stg ∧ t.dev.fuse = s.dev.fuse ∧ t.dev.strap = s.dev.strap ∧ t.mir = s.mir

/-- For every command and state: unless the command closes the tick or resets the device, the mirrors after it are the mirrors before; whatever the
command, the mirrors after it are the mirrors before or the device after. An idle step leaves them alone. That a tick closes with PACE_MEASUREMENT and
that resets refresh the mirrors are the model's choices (log entries 6 and 7). -/
def Obligations.MirrorsMoveOnlyAtTheTick : Prop :=
  (∀ (c : Instr) (s t : State), exec c s = .next t → (samples c = false → t.mir = s.mir) ∧ (t.mir = s.mir ∨ t.mir = t.dev)) ∧
  ∀ s t : State, s.pending = [] → step s = .next t → t.mir = s.mir

/-- For every admin command but SEND and LOCAL of FABRIC_MGMT whose entry is next in its function's ring while no COMMAND holds the sequencer: where its
issuer may not use the opcode on its target it completes with OWNERSHIP if the command is FABRIC_MGMT, whose resources are fabric-owned, and the
target is one it may name, and with NOT_PERMITTED if not (which of the two is the model's reading, log entry 41, DEDUCED); else with NOT_FOUND where
the target does not exist; else with the status of the mode, drain or hold that refuses it; else with BUSY where the target is in a reset, is parked,
or is being parked or unparked (the last two the model's choice, log entry 129) and the command is not admitted; and the state differs from the
entry's taking in nothing but that completion and what follows at once. -/
def Obligations.AdminChecksComeInOrder : Prop :=
  ∀ (c : Instr) (op : Nat) (p : Perm) (f : FnId) (e : Desc) (s : State), adminOf c = some (op, p, f, e) → nextEntry op f e s →
  let d := entryTaken f s.dev
  let t := targetOf f e
  (permitted d f e p = false → op = 0x49 → (f.num.val ≠ 0 → e.targetFn = 0) → exec c s = .next (refusedWith .ownership f e s)) ∧
  (permitted d f e p = false → ¬ (op = 0x49 ∧ (f.num.val ≠ 0 → e.targetFn = 0)) → exec c s = .next (refusedWith .notPermitted f e s)) ∧
  (permitted d f e p = true → fnExists d t = false → exec c s = .next (refusedWith .notFound f e s)) ∧
  (∀ st, permitted d f e p = true → fnExists d t = true → admState d t e.opcode = some st →
    exec c s = .next (refusedEarly st f e s)) ∧
  (permitted d f e p = true → fnExists d t = true → admState d t e.opcode = none →
    ((getFn d t).inFlr = true ∨ ((getFn d t).park ≠ .no ∧ parkAdmits e.opcode = false)) →
    exec c s = .next (refusedEarly .busy f e s))

/-- For each of the five doorbells: a write of the low half acts as the 64-bit write of that count with bit 32 clear; a write of the high half only lets
what follows at once follow; a 64-bit write acts by its bits 31 to 0 and 32 alone, and on the two submission doorbells by bits 31 to 0 alone. -/
def Obligations.DoorbellsTakeCountAndArmWhole : Prop :=
  ∀ (f : FnId) (n : Fin 65536) (m : Fin 4096) (v : Word64) (x : Word32) (s : State), listens s →
  let arms : List (Wr → Instr) := [.acqDb f, .cqDoorbell f n, .eqDoorbell f m]
  let plain : List (Wr → Instr) := [.sqDoorbell f n, .aqDb f]
  (∀ c ∈ arms ++ plain, exec (c (.low x)) s = exec (c (.full (x.setWidth 64))) s ∧
    exec (c (.high x)) s = .next (s.after s.dev) ∧ exec (c (.full v)) s = exec (c (.full (v &&& 0x1FFFFFFFF))) s) ∧
  (∀ c ∈ plain, exec (c (.full v)) s = exec (c (.full (v &&& 0xFFFFFFFF))) s)

/-- For every ring of 2^LOG2_SIZE entries up to 2^20 and every 32-bit count k: its slot is k mod N and its phase 1 xor (k div N mod 2); the next count,
taken modulo 2^32, has the next slot, and its phase differs exactly where the slot returns to 0. -/
def Obligations.RingSlotsAndLapsGoOn : Prop :=
  ∀ (log2 : Nat) (k : Word32), log2 ≤ 20 →
  ringSlot log2 k = k.toNat % 2 ^ log2 ∧ b2n (ringPhase log2 k) = 1 ^^^ (k.toNat / 2 ^ log2 % 2) ∧
  ringSlot log2 (k + 1) = (ringSlot log2 k + 1) % 2 ^ log2 ∧
  ringPhase log2 (k + 1) = (ringPhase log2 k ^^ decide (ringSlot log2 (k + 1) = 0))

/-- SUM adds modulo 2^64 for both integer types, MIN and MAX compare as signed for INT64 and as unsigned for UINT64, AND, OR and XOR are bitwise, no
conversion sets a flag and a combining step adds none to those it was given; and folding any list of words gives what folding any permutation of it
gives, and what combining the folds of its two parts gives. -/
def Obligations.IntegerCombiningIsOrderFree : Prop :=
  (∀ x y : BitVec 64,
    combineElem 0x01 1 x.toNat y.toNat = (x + y).toNat ∧ combineElem 0x01 2 x.toNat y.toNat = (x + y).toNat ∧
    combineElem 0x02 1 x.toNat y.toNat = (if x.sle y then x else y).toNat ∧ combineElem 0x02 2 x.toNat y.toNat = (if x.ule y then x else y).toNat ∧
    combineElem 0x03 1 x.toNat y.toNat = (if x.sle y then y else x).toNat ∧ combineElem 0x03 2 x.toNat y.toNat = (if x.ule y then y else x).toNat ∧
    (∀ e, combineElem 0x04 e x.toNat y.toNat = (x &&& y).toNat ∧ combineElem 0x05 e x.toNat y.toNat = (x ||| y).toNat ∧
      combineElem 0x06 e x.toNat y.toNat = (x ^^^ y).toNat)) ∧
  (∀ (cop elem : Nat) (s : Int) (raw : Bool) (bs : List Byte), cop ∈ [0x01, 0x02, 0x03, 0x04, 0x05, 0x06] → elem ∈ [1, 2] →
    (leafForm cop elem s bs).2 = 0 ∧ (resultForm cop elem s raw bs).2 = 0) ∧
  (∀ (h : CollHdr) (a b : Contrib), (combine2 h a b).flags = a.flags ||| b.flags) ∧
  ∀ cop ∈ [0x01, 0x02, 0x03, 0x04, 0x05, 0x06], ∀ elem ∈ [1, 2], ∀ (x y : BitVec 64) (l m : List (BitVec 64)),
    (l.Perm m → (l.map (·.toNat)).foldl (combineElem cop elem) x.toNat = (m.map (·.toNat)).foldl (combineElem cop elem) x.toNat) ∧
    ((l ++ y :: m).map (·.toNat)).foldl (combineElem cop elem) x.toNat =
      combineElem cop elem ((l.map (·.toNat)).foldl (combineElem cop elem) x.toNat) ((m.map (·.toNat)).foldl (combineElem cop elem) y.toNat)

/-- For EXACT_SUM on every element type a combining step is addition of 256-bit two's-complement integers; folding any list of values gives what folding
any permutation of it gives, and what combining the folds of its two parts gives; and where the exact sum of the signed values fits in 256 bits the
fold is that sum. -/
def Obligations.ExactSumIsOrderFree : Prop :=
  ∀ (elem : Nat) (x y : BitVec 256) (l m : List (BitVec 256)),
  combineElem 0x07 elem x.toNat y.toNat = (x + y).toNat ∧
  (l.Perm m → (l.map (·.toNat)).foldl (combineElem 0x07 elem) x.toNat = (m.map (·.toNat)).foldl (combineElem 0x07 elem) x.toNat) ∧
  ((l ++ y :: m).map (·.toNat)).foldl (combineElem 0x07 elem) x.toNat =
    combineElem 0x07 elem ((l.map (·.toNat)).foldl (combineElem 0x07 elem) x.toNat) ((m.map (·.toNat)).foldl (combineElem 0x07 elem) y.toNat) ∧
  (-(2 ^ 255 : Int) ≤ x.toInt + (l.map (·.toInt)).sum → x.toInt + (l.map (·.toInt)).sum < 2 ^ 255 →
    (BitVec.ofNat 256 ((l.map (·.toNat)).foldl (combineElem 0x07 elem) x.toNat)).toInt = x.toInt + (l.map (·.toInt)).sum)

/-- Where the metering fuse is off: every command of the island and every write to the export block by its row leaves the state as it is; the device sees
neither HOLD nor FULL; a write of any width that R13 accepts to an offset of the export block leaves the state or lets what follows at once follow;
such a read there answers 0 and takes nothing; and the island's clock does not run (accesses of the fabric manager while no COMMAND holds the
sequencer). -/
def Obligations.UnmeteredDeviceHasNoIsland : Prop :=
  ∀ s : State, s.dev.fuse.meter = false →
  meterHold s.dev = false ∧ meterFull s.dev = false ∧ islandCycle s.dev = s.dev ∧ meterNotify s.dev = s.dev ∧
  (∀ (tap : Fin 8) (opened : Bool) (sig : List Byte) (m : Master) (w : Wr) (k : Fin 2) (v : Word32), atOnce m s →
    ∀ c ∈ [Instr.tallyTapDelivery tap, .tapSilence tap, .meterSample, .minuteBoundary, .blockSigned, .flashWriteDone opened, .sealSample opened,
      .islandPowerUp opened, .mtrTimeSet m w, .mtrTimeAdj m w, .mtrAck m w, .mtrRdSel k m w, .trimSet m w, .operatorSet m w, .mtrFwBegin m w,
      .mtrFwData m w, .mtrFwActivate m w, .meterXoLoss, .vddMtrLoss, .mtrFwVerifyDone sig v], exec c s = .next s) ∧
  (∀ (m : Master) (off : Fin 0x200000) (b : Nat) (w : Wr), atOnce m s → baseOf off.val = some b → 0x80000 ≤ b →
    badAccess s.dev m off.val false = false →
    exec (.registerWrite m .bar0 off (some w)) s = .next s ∨ exec (.registerWrite m .bar0 off (some w)) s = .next (s.after s.dev)) ∧
  (∀ (m : Master) (off : Fin 0x200000) (b : Nat) (a : Part), listens s → atOnce m s → baseOf off.val = some b → 0x80000 ≤ b →
    badAccess s.dev m off.val false = false →
    exec (.clearOnRead m .bar0 off (some a)) s = .next (s.now (emit (.readData 0) s.dev)))

/-- For every 24-bit connection number and every 16-bit context number the home slot is the exclusive-or of the fields R187 names, so below 32; connection
0x12_3456 is homed on slot 28 and context 7 on slot 7; the number CREATE_CONN or CREATE_MATCH_CTX assigns is never homed on a lost slot; and after a
device reset every slot s is served by MPEs. -/
def Obligations.HomeSlotsOfConnectionsAndContexts : Prop :=
  (∀ n : BitVec 24, connSlot n.toNat =
    (n.extractLsb' 0 5 ^^^ n.extractLsb' 5 5 ^^^ n.extractLsb' 10 5 ^^^ n.extractLsb' 15 5 ^^^ (n.extractLsb' 20 4).setWidth 5).toNat) ∧
  (∀ m : BitVec 16, mctxSlot m.toNat =
    (m.extractLsb' 0 5 ^^^ m.extractLsb' 5 5 ^^^ m.extractLsb' 10 5 ^^^ (m.extractLsb' 15 1).setWidth 5).toNat) ∧
  (∀ (d : Dev) (n : Nat), freeConn d = some n → slotLost d (connSlot n) = false) ∧
  (∀ (d : Dev) (m : Nat), freeMctx d = some m → slotLost d (mctxSlot m) = false) ∧
  connSlot 0x123456 = 28 ∧ mctxSlot 7 = 7 ∧
  (∀ (r : Bool) (s : State), listens s →
    ∃ t, exec (.deviceReset r) s = .next t ∧ ∀ slot < 32, (tget t.dev.eng.slotMpe slot).getD slot = slot)

/-- Where a commit that names block 0 is due and the staged PACE_TGT does not have 550 to 850 as bounds of VMIN and VMAX with VMIN at most VMAX, STEP_MV 1
to 25 and TARGET 800 to 2,600: COMMIT_EVALUATION answers a state whose CFG_COMMIT.ERR names block 0 (with code 1 or 2, or 5 or 6 where a parity
mismatch or a fence refuses it first), nothing is pending, and every register in force and staged is as it was. -/
def Obligations.PaceSetOutOfRangeIsRefused : Prop :=
  ∀ (n : Nat) (s : State), listens s → s.dev.cfg.commit = some n → n.testBit 0 = true →
  let v := snapOf s.dev 0x38
  let vmin := fld v 24 12
  let vmax := fld v 36 12
  ¬ (550 ≤ vmin ∧ vmin ≤ vmax ∧ vmax ≤ 850 ∧ 1 ≤ fld v 16 8 ∧ fld v 16 8 ≤ 25 ∧ 800 ≤ fld v 0 16 ∧ fld v 0 16 ≤ 2600) →
  ∃ t code, exec .commitEvaluation s = .next t ∧ t.dev.cfg.err = some (0, code) ∧ (code = 1 ∨ code = 2 ∨ code = 5 ∨ code = 6) ∧
    t.dev.cfg.commit = none ∧ t.dev.cfg.busy = false ∧ t.dev.regs = s.dev.regs ∧ t.dev.stg = s.dev.stg

/-- On a metered device whose island has power, a permitted 64-bit write of MTR_ACK with SEQ n: above the last signed SEQ, or not above MTR_SEQ_ACKED, or
with a block from there to n that has a page not yet read, it changes nothing but WR_IGNORED, which counts one more; else MTR_SEQ_ACKED is n and
nothing else of the island changes. So whatever the order of two acknowledgements, MTR_SEQ_ACKED never falls. -/
def Obligations.MeterAcknowledgeReleasesUpTo : Prop :=
  ∀ (m : Master) (v : Word64) (s : State), s.dev.fuse.meter = true → s.dev.isl.powered = true → mayWrite s.dev m = true → atOnce m s →
  let i := s.dev.isl
  let n := fld v 0 48
  let late := ((i.blocks.filter (·.signed)).map (·.seq)).foldl max 0 < n ∨ n ≤ i.acked ∨
    ∃ b ∈ i.blocks, i.acked < b.seq ∧ b.seq ≤ n ∧ allRead s.dev.fuse.unitId b = false
  (late → exec (.mtrAck m (.full v)) s = .next (s.now (meterNotify { s.dev with isl := { i with wrIgnored := i.wrIgnored.add 1 } }))) ∧
  (¬ late → exec (.mtrAck m (.full v)) s = .next (s.now (meterNotify { s.dev with isl := { i with acked := n } }))) ∧
  ∀ t, exec (.mtrAck m (.full v)) s = .next t → i.acked ≤ t.dev.isl.acked

/-- For every state and device: the state left once everything that follows at once is done has the fuses, straps, host ports, engine slots, traffic
control, boot, configuration, pace, thermal and test-port state, the stored and staged registers and the owner port of that device, and the queue and
mirrors of the state. -/
def Obligations.SettlingKeepsControlState : Prop :=
  ∀ (s : State) (d : Dev),
  let e := (s.after d).dev
  e.fuse = d.fuse ∧ e.strap = d.strap ∧ e.hp = d.hp ∧ e.eng = d.eng ∧ e.tc = d.tc ∧ e.boot = d.boot ∧ e.cfg = d.cfg ∧ e.pace = d.pace ∧
  e.therm = d.therm ∧ e.jtag = d.jtag ∧ e.regs = d.regs ∧ e.stg = d.stg ∧ e.ownerPort = d.ownerPort ∧
  (s.after d).pending = s.pending ∧ (s.after d).mir = s.mir

/-- A data packet with a right CRC that addresses an existing function but carries another domain, taken in by a unit that no checkpoint holds, is
dropped, whichever its type. What the drop leaves: the addressed function's FN_DOMAIN_DROP is one higher and nothing else of it changes; no other
function changes; the source of its port's domain filter captures one contained error that names the function, unless it is masked, and no other
source changes; and nothing else of the device changes. In Quarantine nothing happens at all. -/
def Obligations.DomainFilterDropsForeignPackets : Prop :=
  ∀ (p : Packet) (s : State), listens s →
  let f := epFn p.rh.dest
  let d := pktArrived p s.dev
  let src := srcDomain f.port.val
  let e := domainDrop f d
  let rows : List (Instr × Bool) := [(.putPacket p, p.ptype == ptPut), (.putFlagPacket p, p.ptype == ptPutFlag), (.getReq p, p.ptype == ptGetReq),
    (.getResp p, p.ptype == ptGetResp), (.atomicReq p, p.ptype == ptAtomicReq), (.sendPacket p, p.ptype == ptSend && skind p != 2),
    (.rendezvousFinish p, p.ptype == ptSend && skind p == 2), (.notePacket p, p.ptype == ptNote)]
  (s.dev.mode ≠ .quarantine → (pktRecorded s.dev p && inkHolds s.dev) = false → pktCrc p = p.crc → fnExists s.dev f = true →
    p.rh.domain ≠ (getFn s.dev f).domain →
    (∀ r ∈ rows, r.2 = true → exec r.1 s = .next (s.after e)) ∧
    e = { d with fns := e.fns, flt := { d.flt with recs := e.flt.recs } } ∧
    getFn e f = { getFn s.dev f with domDrop := (getFn s.dev f).domDrop + 1 } ∧
    (∀ g, g ≠ f → getFn e g = getFn s.dev g) ∧
    ((getRec s.dev src).masked = true → e.flt = s.dev.flt) ∧
    ((getRec s.dev src).masked = false → getRec e src =
      { getRec s.dev src with cap := some ((getRec s.dev src).captured .contained caDomain 0 (fnObject f) 1) }) ∧
    ∀ k, k ≠ src → getRec e k = getRec s.dev k) ∧
  (s.dev.mode = .quarantine → ∀ r ∈ rows, exec r.1 s = .next (s.after s.dev))

/-- While the island holds: a write of AQ_CFG that would enable a queue not enabled leaves the state as it is, and an UNPARK_FUNCTION that its earlier
checks let pass completes with METER_REFUSED and does nothing else. -/
def Obligations.HoldRefusesActivations : Prop :=
  ∀ (f : FnId) (e : Desc) (w : Wr) (s : State), meterHold s.dev = true →
  (listens s → fnExists s.dev f = true → wouldEnable w (getFn s.dev f) = true → exec (.aqCfgWrite f w) s = .next s) ∧
  (nextEntry 0x39 f e s → permitted (entryTaken f s.dev) f e .pfForItsFns = true → fnExists (entryTaken f s.dev) (targetOf f e) = true →
    (entryTaken f s.dev).mode ≠ .configure → (entryTaken f s.dev).mode ≠ .replay →
    exec (.unparkFunction f e) s = .next (refusedEarly .meterRefused f e s))

/-- While the device is in Quarantine every doorbell and every admin command leaves the device as it is but for what follows at once, which changes no
register, fuse or port state. While a COMMAND in hand holds the sequencer, an access of the fabric manager and an admin command that is next in its
ring are put behind the commands that wait, and the rest of the device is as before (what follows at once apart for the admin command); one whose
entry waits already is not put there twice, and no command in hand is taken up. Once it is held no longer, those that wait for no mode are carried out
from the front. -/
def Obligations.CommandsAreIgnoredInQuarantineAndWaitWhileHeld : Prop :=
  (∀ s : State, listens s → s.dev.mode = .quarantine →
  (∀ (f : FnId) (n : Fin 65536) (m : Fin 4096) (w : Wr), ∀ c ∈ [Instr.sqDoorbell f n w, .aqDb f w, .acqDb f w, .cqDoorbell f n w, .eqDoorbell f m w],
    exec c s = .next (s.after s.dev)) ∧
  (∀ (c : Instr) (op : Nat) (p : Perm) (f : FnId) (e : Desc), adminOf c = some (op, p, f, e) → exec c s = .next (s.after s.dev))) ∧
  (∀ (s : State) (c : Instr), listens s → s.dev.svc.cmds.any (·.hold) = true →
    let waits : Dev := { s.dev with svc := { s.dev.svc with cmds := s.dev.svc.cmds ++ [{ row := some c }] } }
    (masterOf c = some .fabricManager → exec c s = .next (s.now waits)) ∧
    (∀ (op : Nat) (p : Perm) (f : FnId) (e : Desc), adminOf c = some (op, p, f, e) → e.opcode = op → admTurn s.dev f e = true →
      exec c s = .next (s.after (if s.dev.svc.cmds.any (·.row == some c) then s.dev else waits)))) ∧
  (∀ (m d : Dev) (n : Nat), d.svc.cmds.any (·.hold) = true → runCmds m n d = d) ∧
  ∀ (m d : Dev) (n : Nat) (i : Instr) (r : List CmdRun), d.svc.cmds = { row := some i } :: r → r.any (·.hold) = false →
    runCmds m (n + 1) d = runCmds m n (runRow m i { d with svc := { d.svc with cmds := r } })

/-- An error of an unmasked source is captured and makes no record: the first names cause, detail and object, each is counted up to 65,535, a fatal one
raises the class; a masked source captures nothing. At the tick the collector takes the sources in the order of their numbers where no pair is driven
illegal; of an unmasked source it adds the corrected errors to CORR_COUNT, and it makes a new record from what is captured, with the tick's time,
where the record is not valid, and merges it where it is: COUNT grows, MERGED is set, CLASS rises to fatal, the first error's values stay; a fatal
error enters Quarantine. A permitted write of 1 to FLT_STAT_n.VALID of a valid fatal record in Quarantine changes nothing; any other clears VALID
(with which CLASS reads 0), MERGED, CAUSE, COUNT and the fields of FLT_INFO and keeps the corrected count, the mask, the class forced and what is
captured, so that an error of the same tick makes a fresh record (log entries 10 and 12, DEDUCED), and no other source's record changes. -/
def Obligations.RecordsKeepNewErrorsAndCounts : Prop :=
  (∀ (src : Nat) (cls : FClass) (cause : Nat) (detail : Byte) (object : BitVec 24) (n : Nat) (d : Dev),
    let r := getRec d src
    (r.masked = true → reportError src cls cause detail object n d = d ∧ reportCorrected src n d = d) ∧
    (r.masked = false → r.cap = none → reportError src cls cause detail object n d =
      setRec src { r with cap := some { cls := cls, cause := cause, count := min 0xFFFF n, detail := detail, object := object } } d) ∧
    (∀ w, r.masked = false → r.cap = some w → reportError src cls cause detail object n d =
      setRec src { r with cap := some { w with count := satAdd 0xFFFF w.count n, cls := if cls = .fatal then .fatal else w.cls } } d) ∧
    (r.masked = false → reportCorrected src n d = setRec src { r with capCorr := r.capCorr + n } d)) ∧
  (∀ d : Dev, rising d.flt.recs → (∀ x ∈ d.flt.recs, x.2.broken = 0) →
    collect d = (d.flt.recs.map (·.1)).foldl (fun d n => takeReport n d) d) ∧
  (∀ (src : Nat) (d : Dev),
    let r := getRec d src
    let d1 := if r.capCorr = 0 then d else
      { setRec src { r with corr := satAdd 0xFFFFFFFF r.corr r.capCorr, capCorr := 0 } d with
        flt := { (setRec src { r with corr := satAdd 0xFFFFFFFF r.corr r.capCorr, capCorr := 0 } d).flt with
          corrTotal := satAdd 0xFFFFFFFF d.flt.corrTotal r.capCorr } }
    let q := getRec d1 src
    (r.masked = true ∨ 0 < r.broken → takeReport src d = d) ∧
    (r.masked = false → r.broken = 0 → r.cap = none → takeReport src d = d1) ∧
    (∀ w, r.masked = false → r.broken = 0 → r.cap = some w →
      let d2 := if r.valid then
          setRec src { q with count := satAdd 0xFFFF r.count w.count, merged := true, cls := if w.cls = .fatal then .fatal else r.cls, cap := none } d1
        else newRec src { q with
          valid := true, cls := w.cls, merged := false, cause := w.cause, count := w.count, time := d.clk.tsc
          detail := w.detail, object := w.object, cap := none } d1
      let d3 := inkFault src (!r.valid) { d2 with svc := { d2.svc with notifyDue := true } }
      takeReport src d = sendNotify (if w.cls = .fatal then enterQuarantine 3 d3 else d3))) ∧
  ∀ (m : Master) (src : Fin 512) (s : State), listens s → atOnce m s → mayWrite s.dev m = true → knownSource s.dev src.val = true →
    let r := getRec s.dev src.val
    let barred := s.dev.mode = .quarantine ∧ r.valid = true ∧ r.cls = .fatal
    (barred → exec (.faultRecordClear m src) s = .next s) ∧
    (¬ barred → ∃ t, exec (.faultRecordClear m src) s = .next t ∧
      (let q := getRec t.dev src.val
       q.valid = false ∧ q.merged = false ∧ q.cause = 0 ∧ q.count = 0 ∧ q.time = 0 ∧ q.detail = 0 ∧ q.object = 0 ∧
        q.corr = r.corr ∧ q.masked = r.masked ∧ q.fclass = r.fclass ∧ q.cap = r.cap ∧ q.capCorr = r.capCorr) ∧
      (∀ k, k ≠ src.val → getRec t.dev k = getRec s.dev k) ∧ t.dev = { s.dev with flt := t.dev.flt })

/-- After POWER_ON_RESET, and after the release of a reset held, the straps are those at the pins as they stand, fuses, flash, read-only memory and keys
are kept, the island but for the tally accumulators, and everything else is as a device at reset has it, the Blotter with it; after DEVICE_RESET
besides these the clock's count, the trip latch, the test instruction and the Blotter but for its FCLASS are kept, ROLE_SEL and BOOT_SRC too,
RECOVERY_N is that at the pin, and the tallies have gone to the island first; each boot starts in recovery, in a service boot or with a slot to
verify. The mirrors show the device as the reset leaves it (log entry 7, the model's choice; what a device reset keeps beyond R437: log entries 23 and
116, DEDUCED). In every step but those of POWER_ON_RESET and of INTERNAL_RESET_RELEASE, from a state whose tables are in their one form, ROLE_SEL and
BOOT_SRC stay as they are. -/
def Obligations.StrapsAreSampledByTheirResets : Prop :=
  (∀ (role bs : BitVec 2) (rec' : Bool) (s : State), ∃ t, exec (.powerOnReset role bs rec') s = .next t ∧ t.mir = t.dev ∧
    (asleep s.dev = true → exec (.internalResetRelease role bs rec') s = .next t) ∧
    t.dev = { fuse := s.dev.fuse, strap := { role := role, bootSrc := bs, recovery := rec' }, isl := { s.dev.isl with acc := [] }
              out := s.dev.out, free := s.dev.free, boot := t.dev.boot, mode := t.dev.mode } ∧
    t.dev.boot = { flash := s.dev.boot.flash, romMeas := s.dev.boot.romMeas, keyDigest := s.dev.boot.keyDigest
                   certChain := s.dev.boot.certChain, phase := t.dev.boot.phase } ∧
    (rec' = true → t.dev.mode = .recovery ∧ t.dev.boot.phase = .recovery) ∧
    (rec' = false → bs = 1 → t.dev.mode = .configure ∧ t.dev.boot.phase = .service)) ∧
  (∀ (rec' : Bool) (s : State), listens s → ∃ t, exec (.deviceReset rec') s = .next t ∧ t.mir = t.dev ∧
    (let k := flushTaps s.dev
     t.dev = { fuse := s.dev.fuse, strap := { s.dev.strap with recovery := rec' }, isl := k.isl, out := k.out, free := k.free
               clk := k.clk, therm := { trip := k.therm.trip }, jtag := { k.jtag with rstLow := false }
               flt := { k.flt with recs := k.flt.recs.map fun r => (r.1, { r.2 with fclass := 0 }) }
               boot := t.dev.boot, mode := t.dev.mode } ∧
     t.dev.boot = { flash := k.boot.flash, romMeas := k.boot.romMeas, keyDigest := k.boot.keyDigest
                    certChain := k.boot.certChain, phase := t.dev.boot.phase })) ∧
  ∀ s t : State, Sound s → (∀ a b c, s.pending.head? ≠ some (.powerOnReset a b c) ∧ s.pending.head? ≠ some (.internalResetRelease a b c)) →
    step s = .next t → t.dev.strap.role = s.dev.strap.role ∧ t.dev.strap.bootSrc = s.dev.strap.bootSrc

/-- In the reset state registers of each of the blocks 0 to 10 (identity and mode with PACE_TGT, a function's queues and status page, the Blotter, the
user calibration values, every fabric port, routing, traffic control, the performance monitor, Inkwell, the service network, configuration integrity)
and of the meter export block read the reset values the field maps give. -/
def Obligations.ResetRegistersReadTheirResetValues : Prop :=
  let rd := fun off => readReg State.reset.dev State.reset.mir {} off
  (∀ n : Fin 64, rd (0x10000 + n.val * 0x100) = 0xBB00010000080819 ∧ rd (0x31000 + n.val * 8) = 0x1010101010101010 ∧ rd (0x32000 + n.val * 0x20) = 0) ∧
  (∀ n : Fin 4, rd (0x60000 + n.val * 0x20) = 0xC00000000000080A) ∧ (∀ n : Fin 512, rd (0x5000 + n.val * 8) = 0 ∧ rd (0x6000 + n.val * 8) = 0) ∧
  (∀ n : Fin 36, rd (0x8200 + n.val * 8) = 0) ∧
  rd 0x38 = 0x13522260507D0 ∧ rd 0x28 = 4 ∧ rd 0x310 = 0x10 ∧ rd 0x320 = 0 ∧ rd 0x330 = 1 ∧ rd 0x340 = 0x400002 ∧
  rd 0x1000 = 0 ∧ rd 0x1008 = 0x4 ∧ rd 0x1010 = 0 ∧ rd 0x1018 = 0x4 ∧ rd 0x1020 = 0 ∧ rd 0x1028 = 0 ∧ rd 0x1030 = 0 ∧
  rd 0x2000 = 0 ∧ rd 0x2008 = 0 ∧ rd 0x2010 = 0 ∧ rd 0x2018 = 0 ∧
  rd 0x4000 = 0 ∧ rd 0x30000 = 0x18 ∧ rd 0x20000 = 0 ∧ rd 0x20008 = 0 ∧ rd 0x20040 = 0 ∧ rd 0x20048 = 0x11000000040 ∧ rd 0x20060 = 0 ∧
  rd 0x40000 = 0 ∧ rd 0x40008 = 0x3E8 ∧ rd 0x40010 = 0x7800040000000064 ∧ rd 0x40018 = 0 ∧ rd 0x40020 = 0 ∧ rd 0x40028 = 0 ∧
  rd 0x50000 = 0x0400010000000000 ∧ rd 0x50008 = 0 ∧ rd 0x50010 = 0 ∧ rd 0x50018 = 0 ∧ rd 0x50020 = 0 ∧ rd 0x50028 = 0 ∧ rd 0x50030 = 0 ∧
  rd 0x60100 = 0 ∧ rd 0x60108 = 0xFF ∧ rd 0x60118 = 0x640000001E ∧ rd 0x60120 = 0x14 ∧ rd 0x60200 = 0x3E8 ∧ rd 0x70000 = 0 ∧
  rd 0x80010 = 0 ∧ rd 0x80018 = 0 ∧ rd 0x80020 = 0 ∧ rd 0x80038 = 0xF424000000000 ∧ rd 0x80040 = 0 ∧ rd 0x80048 = 0 ∧ rd 0x80058 = 0xC40000000000 ∧
  rd 0x80060 = 0 ∧ rd 0x80068 = 0 ∧ rd 0x80088 = 0 ∧ rd 0x80098 = 0 ∧ rd 0x800A0 = 0 ∧ rd 0x800A8 = 0 ∧ rd 0x80100 = 0

/-- An admitted CREATE_SQ, CREATE_CQ or CREATE_EQ whose sizes, addresses, quota and HBM fit adds the queue with the fields of its entry; an admitted
DESTROY of a queue that is empty and not halted, or bound to nothing, takes it away; each completes with SUCCESS. The whole next state is given: every
register, queue, buffer, counter and flag it does not set is as before, but for what follows a command at once (State.after), of which
SettlingKeepsControlState says what it leaves alone. The rules followed: R62, R80. What is the model's choice in it: log entries 17, 134. -/
def Obligations.QueueCommandsComplete : Prop :=
  (∀ (f : FnId) (e : Desc) (s : State),
      let d := entryTaken f s.dev
      let t := targetOf f e
      let q : Sq := { ring := e.w1, wb := e.w2, log2 := e.f 0x18 16 5, cls := e.f 0x18 21 3, cq := e.f 0x18 24 16, link := bit e.w3 40 }
      admitted 0x01 .any f e s →
      (4 ≤ e.f 0x18 16 5 ∧ e.f 0x18 16 5 ≤ 16) →
      (e.w1.toNat % 4096 = 0 ∧ e.w2.toNat % 8 = 0) →
      (bit e.w3 40 = true → (getHp d t.port).bifurcated = true) →
      (thas (getFn d t).sqs (e.f 0x18 0 16) = false ∧ thas (getFn d t).cqs (e.f 0x18 24 16) = true) →
      (overQuota (quotaOf d t).sq (getFn d t).sqs.length = false ∧ totalOf d (·.sqs.length) < 65536 ∧ overHbmQ d t = false) →
        exec (.createSq f e) s = .next (s.after ((postAcq f (admCqe e .success 0 0) (setFn t { getFn d t with sqs := tput (getFn d t).sqs (e.f 0x18 0 16) q } d))))) ∧
  (∀ (f : FnId) (e : Desc) (q : Sq) (s : State),
      let d := entryTaken f s.dev
      let t := targetOf f e
      admitted 0x02 .any f e s →
      tget (getFn d t).sqs (e.f 0x18 0 16) = some q →
      (q.halted = none ∧ q.c = q.p ∧ q.fetched = [] ∧ q.inflight = []) →
        exec (.destroySq f e) s = .next (s.after ((postAcq f (admCqe e .success 0 0) (setFn t { getFn d t with sqs := tdel (getFn d t).sqs (e.f 0x18 0 16) } d))))) ∧
  (∀ (f : FnId) (e : Desc) (s : State),
      let d := entryTaken f s.dev
      let t := targetOf f e
      let q : Cq :=
        { ring := e.w1, log2 := e.f 0x18 16 5, vec := e.f 0x18 21 11, coalCount := e.f 0x18 32 8, coalTime := e.f 0x18 40 8
          stallTo := if e.f 0x18 48 16 = 0 then 1953 else e.f 0x18 48 16, ien := bit e.w4 0, link := bit e.w4 1 }
      admitted 0x03 .any f e s →
      (4 ≤ e.f 0x18 16 5 ∧ e.f 0x18 16 5 ≤ 20) →
      e.w1.toNat % 4096 = 0 →
      (e.f 0x18 48 16 = 0 ∨ 98 ≤ e.f 0x18 48 16) →
      (bit e.w4 1 = true → (getHp d t.port).bifurcated = true) →
      thas (getFn d t).cqs (e.f 0x18 0 16) = false →
      (overQuota (quotaOf d t).cq (getFn d t).cqs.length = false ∧ totalOf d (·.cqs.length) < 65536 ∧ overHbmQ d t = false) →
        exec (.createCq f e) s = .next (s.after ((postAcq f (admCqe e .success 0 0) (setFn t { getFn d t with cqs := tput (getFn d t).cqs (e.f 0x18 0 16) q } d))))) ∧
  (∀ (f : FnId) (e : Desc) (s : State),
      let d := entryTaken f s.dev
      let t := targetOf f e
      admitted 0x04 .any f e s →
      (thas (getFn d t).cqs (e.f 0x18 0 16) = true ∧ cqBound d t (e.f 0x18 0 16) = false) →
        exec (.destroyCq f e) s = .next (s.after ((postAcq f (admCqe e .success 0 0) (setFn t { getFn d t with cqs := tdel (getFn d t).cqs (e.f 0x18 0 16) } d))))) ∧
  (∀ (f : FnId) (e : Desc) (s : State),
      let d := entryTaken f s.dev
      let t := targetOf f e
      let q : Eq := { ring := e.w1, log2 := e.f 0x18 16 5, vec := e.f 0x18 21 11, ien := bit e.w3 32, link := bit e.w3 33 }
      admitted 0x05 .any f e s →
      (4 ≤ e.f 0x18 16 5 ∧ e.f 0x18 16 5 ≤ 16) →
      e.w1.toNat % 4096 = 0 →
      (bit e.w3 33 = true → (getHp d t.port).bifurcated = true) →
      thas (getFn d t).eqs (e.f 0x18 0 12) = false →
      (overQuota (quotaOf d t).eq (getFn d t).eqs.length = false ∧ totalOf d (·.eqs.length) < 4096 ∧ overHbmQ d t = false) →
        exec (.createEq f e) s = .next (s.after ((postAcq f (admCqe e .success 0 0) (setFn t { getFn d t with eqs := tput (getFn d t).eqs (e.f 0x18 0 12) q } d))))) ∧
  (∀ (f : FnId) (e : Desc) (s : State),
      let d := entryTaken f s.dev
      let t := targetOf f e
      admitted 0x06 .any f e s →
      (thas (getFn d t).eqs (e.f 0x18 0 16) = true ∧ ∀ c ∈ (getFn d t).subs, c.2 ≠ e.f 0x18 0 16) →
        exec (.destroyEq f e) s = .next (s.after ((postAcq f (admCqe e .success 0 0) (setFn t { getFn d t with eqs := tdel (getFn d t).eqs (e.f 0x18 0 16) } d)))))

/-- SUBSCRIBE_EVENTS binds event classes to their queues; QUERY_QUEUE answers a queue's counts; CREATE_CONN, MODIFY_CONN and DESTROY_CONN make, change and
end a connection; CREATE_MATCH_CTX and DESTROY_MATCH_CTX make and end a match context; each completes with SUCCESS where its own checks pass. The
whole next state is given: every register, queue, buffer, counter and flag it does not set is as before, but for what follows a command at once
(State.after), of which SettlingKeepsControlState says what it leaves alone. The rules followed: R62, R76, R113, R114, R116, R117, R163, R165, R522.
What is the model's choice in it: log entries 17, 54, 74. -/
def Obligations.ConnectionAndContextCommandsComplete : Prop :=
  (∀ (f : FnId) (e : Desc) (s : State),
      let d := entryTaken f s.dev
      let t := targetOf f e
      let eq := if bit e.w3 23 then none else some (e.f 0x18 0 12)
      admitted 0x07 .any f e s →
      (bit e.w3 23 = true ∨ thas (getFn d t).eqs (e.f 0x18 0 12) = true) →
        exec (.subscribeEvents f e) s = .next (s.after ((postAcq f (admCqe e .success 0 0) (setFn t { getFn d t with subs := subscribe (e.f 0x18 16 7) eq (getFn d t).subs } d))))) ∧
  (∀ (f : FnId) (e : Desc) (q : Sq) (s : State),
      let d := entryTaken f s.dev
      let t := targetOf f e
      let r := queryWords q.p q.c (if q.halted.isSome then 2 else 1) ((q.halted.map statusCode).getD 0)
      admitted 0x08 .any f e s →
      e.f 0x18 16 2 = 0 →
      tget (getFn d t).sqs (e.f 0x18 0 16) = some q →
        exec (.queryQueue f e) s = .next (s.after ((postAcq f (admCqe e .success r.1 r.2) d)))) ∧
  (∀ (f : FnId) (e : Desc) (q : Cq) (s : State),
      let d := entryTaken f s.dev
      let t := targetOf f e
      let r := queryWords q.w q.h (if cqFull q then 3 else 1) 0
      admitted 0x08 .any f e s →
      e.f 0x18 16 2 = 1 →
      tget (getFn d t).cqs (e.f 0x18 0 16) = some q →
        exec (.queryQueue f e) s = .next (s.after ((postAcq f (admCqe e .success r.1 r.2) d)))) ∧
  (∀ (f : FnId) (e : Desc) (q : Eq) (s : State),
      let d := entryTaken f s.dev
      let t := targetOf f e
      let r := queryWords q.w q.h (if ringFree q.log2 q.w q.h = 0 then 3 else 1) 0
      admitted 0x08 .any f e s →
      e.f 0x18 16 2 = 2 →
      tget (getFn d t).eqs (e.f 0x18 0 16) = some q →
        exec (.queryQueue f e) s = .next (s.after ((postAcq f (admCqe e .success r.1 r.2) d)))) ∧
  (∀ (f : FnId) (e : Desc) (n : Nat) (s : State),
      let d := entryTaken f s.dev
      let t := targetOf f e
      let peer : Ep := BitVec.ofNat 26 (e.f 0x08 0 26)
      let c : Conn :=
        { fn := t, peer := peer, peerConn := BitVec.ofNat 24 (e.f 0x08 32 24), cq := e.f 0x18 0 16, strict := bit e.w3 16
          tc := BitVec.ofNat 3 (e.f 0x18 17 3), retryLimit := if e.f 0x18 20 4 = 0 then 7 else e.f 0x18 20 4
          rnrLimit := e.f 0x18 24 4, rto := if e.f 0x18 32 16 = 0 then 100 else e.f 0x18 32 16, rnrMin := e.f 0x18 48 8
          una := BitVec.ofNat 24 (e.f 0x10 0 24), next := BitVec.ofNat 24 (e.f 0x10 0 24)
          assign := BitVec.ofNat 24 (e.f 0x10 0 24), base := BitVec.ofNat 24 (e.f 0x10 24 24)
          lastAck := BitVec.ofNat 24 (e.f 0x10 24 24) }
      admitted 0x10 .any f e s →
      (e.f 0x18 32 16 = 0 ∨ 60 ≤ e.f 0x18 32 16) →
      (getFn d t).domain ≠ 0 →
      thas (getFn d t).cqs (e.f 0x18 0 16) = true →
      overQuota (quotaOf d t).conn (connsOf d t) = false →
      overHbm d t (hbmOf (connsOf d t + 1) (mctxsOf d t) (regionsOf d t) (queuesOf d t)) = false →
      freeConn d = some n →
        exec (.createConn f e) s = .next (s.after ((postAcq f (admCqe e .success (BitVec.ofNat 64 n) 0) (loadCtx n (setConn n c
      (updFn t (fun x => { x with resetPeers := x.resetPeers.filter (· != peer) })
        { d with xpt := { d.xpt with kept := tdel d.xpt.kept n } }))))))) ∧
  (∀ (f : FnId) (e : Desc) (c : Conn) (s : State),
      let d := entryTaken f s.dev
      let t := targetOf f e
      admitted 0x11 .any f e s →
      (connFor d t (e.f 0x08 0 24) = some c ∧ connIdle d (e.f 0x08 0 24) c = true) →
        exec (.destroyConn f e) s = .next (s.after ((postAcq f (admCqe e .success 0 0) (releaseConn (e.f 0x08 0 24) c false (if c.st = .error then d else breakMsgs (e.f 0x08 0 24) .connError d)))))) ∧
  (∀ (f : FnId) (e : Desc) (c : Conn) (s : State),
      let d := entryTaken f s.dev
      let t := targetOf f e
      let c1 := modifyConn e c
      admitted 0x12 .any f e s →
      connFor d t (e.f 0x08 0 24) = some c →
      ((e.f 0x20 0 6).testBit 4 = true → e.f 0x18 32 16 = 0 ∨ 60 ≤ e.f 0x18 32 16) →
      ((e.f 0x20 0 6).testBit 0 = true ∨ (e.f 0x20 0 6).testBit 1 = true → c.una = c.next) →
        exec (.modifyConn f e) s = .next (s.after ((postAcq f (admCqe e .success (connWords c1).1 (connWords c1).2) (setConn (e.f 0x08 0 24) c1 d))))) ∧
  (∀ (f : FnId) (e : Desc) (m : Nat) (s : State),
      let d := entryTaken f s.dev
      let t := targetOf f e
      let x : Mctx := { fn := t, maxPosted := e.f 0x08 0 23, maxUnexp := e.f 0x10 0 23, maxBlocks := e.f 0x10 24 24 }
      admitted 0x18 .any f e s →
      (e.f 0x08 0 23 ≤ 4194304 ∧ e.f 0x10 0 23 ≤ 4194304 ∧ e.f 0x10 24 24 ≤ 8388608) →
      (getFn d t).domain ≠ 0 →
      (overQuota (quotaOf d t).mctx (mctxsOf d t) = false ∧ d.mtc.ctxs.length < 65536) →
      overHbm d t (hbmOf (connsOf d t) (mctxsOf d t + 1) (regionsOf d t) (queuesOf d t)) = false →
      freeMctx d = some m →
        exec (.createMatchCtx f e) s = .next (s.after ((postAcq f (admCqe e .success (BitVec.ofNat 64 m) 0)
      (setMctx m x { d with mtc := { d.mtc with released := tdel d.mtc.released m } }))))) ∧
  (∀ (f : FnId) (e : Desc) (x : Mctx) (s : State),
      let d := entryTaken f s.dev
      let t := targetOf f e
      admitted 0x19 .any f e s →
      (getMctx d (e.f 0x08 0 16) = some x ∧ x.fn = t) →
      (∀ r ∈ d.mtc.recs, r.mctx = e.f 0x08 0 16 → r.st = .matched → r.closed = true) →
        exec (.destroyMatchCtx f e) s = .next (s.after ((postAcq f (admCqe e .success 0 0) (destroyMctx (e.f 0x08 0 16) true d)))))

/-- REGISTER_REGION adds a region and answers its key; DEREGISTER_REGION, SET_TRANSLATION_ROOT and INVALIDATE take effect and complete later, when what
they wait for is done; RESUME_MARK ends a mark trap. The whole next state is given: every register, queue, buffer, counter and flag it does not set is
as before, but for what follows a command at once (State.after), of which SettlingKeepsControlState says what it leaves alone. The rules followed:
R87, R88, R90, R91, R95, R104, R107, R108, R110, R521. What is the model's choice in it: log entries 47, 137. -/
def Obligations.RegionAndTranslationCommandsComplete : Prop :=
  (∀ (f : FnId) (e : Desc) (i : Nat) (s : State),
      let d := entryTaken f s.dev
      let t := targetOf f e
      let g := nextGen d i
      let r : Region :=
        { fn := t, gen := g, va := e.w1.toNat, len := e.w2.toNat, asn := e.f 0x18 0 8, lw := bit e.w3 8, rr := bit e.w3 9
          rw := bit e.w3 10, ra := bit e.w3 11, noMarks := bit e.w3 12 }
      let x : Xl :=
        { d.xl with
          regions := tput d.xl.regions i r, lastGen := tput d.xl.lastGen i g
          fresh := if d.xl.fresh < 2 ^ 24 then d.xl.fresh + 1 else d.xl.fresh
          freed := d.xl.freed.filter fun y => y.2 != i }
      admitted 0x20 .any f e s →
      (e.w1.toNat < 2 ^ 48 ∧ e.w2.toNat ≠ 0 ∧ e.w1.toNat + e.w2.toNat ≤ 2 ^ 48) →
      thas (getFn d t).roots (e.f 0x18 0 8) = true →
      overQuota (quotaOf d t).region (regionsOf d t) = false →
      overHbm d t (hbmOf (connsOf d t) (mctxsOf d t) (regionsOf d t + 1) (queuesOf d t)) = false →
      nextIndex d = some i →
        exec (.registerRegion f e) s = .next (s.after ((postAcq f (admCqe e .success (BitVec.ofNat 64 (i * 256 + g)) 0) { d with xl := x })))) ∧
  (∀ (f : FnId) (e : Desc) (r : Region) (s : State),
      let d := entryTaken f s.dev
      let t := targetOf f e
      let key := e.w1.setWidth 32
      let d1 :=
        { d with xl := { d.xl with
          regions := tdel d.xl.regions (keyIndex key), freed := d.xl.freed ++ [(d.clk.ticks, keyIndex key)] } }
      let y := takeSuspended (getFn d1 t) (fun a => a.key == key)
      let d2 := y.1.foldl (fun d a => failSuspended .keyInvalid a d) (setFn t y.2 d1)
      admitted 0x21 .any f e s →
      regionOf d t key = some r →
        exec (.deregisterRegion f e) s = .next (s.after ((waiting 0x21 f e (outstanding d2 fun a => a.key == key) d2)))) ∧
  (∀ (f : FnId) (w : AdmWait) (s : State),
      (awaited 0x21 f w s ∧ allEnded s.dev w.ids = true) →
        exec (.deregisterRegionDone f) s = .next (s.after ((postAcq f (admCqe w.arg .success 0 0) (waitEnded f s.dev))))) ∧
  (∀ (f : FnId) (e : Desc) (s : State),
      let d := entryTaken f s.dev
      let t := targetOf f e
      let root := fld e.w1 12 52 * 4096
      let asn := e.f 0x18 0 8
      admitted 0x22 .any f e s →
      root < 2 ^ 52 →
      (root = 0 → ∀ r ∈ d.xl.regions, r.2.fn = t → r.2.asn ≠ asn) →
        exec (.setTranslationRoot f e) s = .next (s.after ((waiting 0x22 f e (outstanding d fun a => decide (a.fn = t) && a.asn == asn)
      (staleWalks (fun a => decide (a.fn = t) && a.asn == asn)
       (purge (fun l => decide (l.fn = t) && l.asn == asn) (fun n => decide (n.fn = t) && n.asn == asn)
        (updFn t (fun x => { x with roots := if root = 0 then tdel x.roots asn else tput x.roots asn (BitVec.ofNat 64 root) }) d))))))) ∧
  (∀ (f : FnId) (w : AdmWait) (s : State),
      let asn := w.arg.f 0x18 0 8
      (awaited 0x22 f w s ∧ allEnded s.dev w.ids = true) →
        exec (.setTranslationRootDone f) s = .next (s.after ((postAcq f (admCqe w.arg .success 0 0)
      (purge (fun l => decide (l.fn = w.target) && l.asn == asn) (fun n => decide (n.fn = w.target) && n.asn == asn)
        (waitEnded f s.dev)))))) ∧
  (∀ (f : FnId) (e : Desc) (s : State),
      let d := entryTaken f s.dev
      let t := targetOf f e
      let reg := regionOf d t (e.w4.setWidth 32)
      (admitted 0x23 (if decide (e.f 0x18 8 2 = 3) then .owner else .any) f e s) →
      (e.f 0x18 8 2 = 0 → e.w2 ≠ 0) →
      (e.f 0x18 8 2 = 1 → reg ≠ none) →
        exec (.invalidate f e) s = .next (s.after ((waiting 0x23 f e (outstanding d (accInScope e t reg))
      (staleWalks (accInScope e t reg) (purge (leafInScope e t reg) (nodeInScope e t reg) d)))))) ∧
  (∀ (f : FnId) (w : AdmWait) (s : State),
      let reg := regionOf (waitEnded f s.dev) w.target (w.arg.w4.setWidth 32)
      (awaited 0x23 f w s ∧ allEnded s.dev w.ids = true) →
        exec (.invalidateDone f) s = .next (s.after ((postAcq f (admCqe w.arg .success 0 0)
      (purge (leafInScope w.arg w.target reg) (nodeInScope w.arg w.target reg) (waitEnded f s.dev)))))) ∧
  (∀ (f : FnId) (e : Desc) (tr : Trap) (s : State),
      let d := entryTaken f s.dev
      let t := targetOf f e
      let abort := bit e.w3 8
      let x := getFn d t
      let d1 :=
        setFn t { x with
          traps := tdel x.traps (e.f 0x18 0 4)
          aborted := if abort && tr.remote then x.aborted ++ [(tr.asn, tr.level, tr.page)] else x.aborted } d
      admitted 0x24 .any f e s →
      tget (getFn d t).traps (e.f 0x18 0 4) = some tr →
        exec (.resumeMark f e) s = .next (s.after ((postAcq f (admCqe e .success 0 0)
      (tr.waiters.foldl (fun d a => if abort then abortAccess a d else resumeAccess a d) (fillSlots t 16 d1))))))

/-- JOIN_TREE and LEAVE_TREE add and take away a membership; SET_SHAPER and SET_POLICER set their rates; PARK_FUNCTION and UNPARK_FUNCTION begin, and
their later completions answer SUCCESS, HOST_DMA_ERROR where the image read back fails its checksum (R158), or a mark trap of the moved contexts. The
whole next state is given: every register, queue, buffer, counter and flag it does not set is as before, but for what follows a command at once
(State.after), of which SettlingKeepsControlState says what it leaves alone. The rules followed: R154, R155, R156, R158, R164, R200, R201, R333, R336.
What is the model's choice in it: log entries 3, 17, 40, 70, 129, 134, 142. -/
def Obligations.TreeShaperAndParkCommandsComplete : Prop :=
  (∀ (f : FnId) (e : Desc) (s : State),
      let d := entryTaken f s.dev
      let t := targetOf f e
      let tree := e.f 0x08 0 14
      admitted 0x28 .any f e s →
      (getFn d t).domain ≠ 0 →
      thas (getFn d t).trees tree = false →
      treeRefuses d t tree = false →
        exec (.joinTree f e) s = .next (s.after ((postAcq f (admCqe e .success 0 0) (setFn t { getFn d t with trees := tput (getFn d t).trees tree {} } d))))) ∧
  (∀ (f : FnId) (e : Desc) (m : Member) (s : State),
      let d := entryTaken f s.dev
      let t := targetOf f e
      let tree := e.f 0x08 0 14
      admitted 0x29 .any f e s →
      tget (getFn d t).trees tree = some m →
      (m.cur = none ∧ m.waitQ = []) →
        exec (.leaveTree f e) s = .next (s.after ((postAcq f (admCqe e .success 0 0) (setFn t { getFn d t with trees := tdel (getFn d t).trees tree } d))))) ∧
  (∀ (f : FnId) (e : Desc) (s : State),
      let d := entryTaken f s.dev
      let t := targetOf f e
      let x := getFn d t
      let c := e.f 0x08 0 3
      let rate := e.f 0x10 0 19
      let burst := e.f 0x10 32 14
      let sh := if bit e.w1 8 then tput x.shapers c (setBucket (tget x.shapers c) rate burst) else tdel x.shapers c
      let d2 := drainClass t c (((tget x.admPt c).getD []).length + 1) (setFn t { x with shapers := sh } d)
      let v : Word64 × Dev := match tget (getFn d2 t).shapers c with | some b => (BitVec.ofInt 64 (b.t.tdiv 1000), d2) | none => takeFree d2
      admitted 0x30 .pfForItsFns f e s →
      (bit e.w1 8 = true → 1 ≤ rate ∧ rate ≤ 400000 ∧ 1 ≤ burst ∧ burst ≤ 16384) →
        exec (.setShaper f e) s = .next (s.after ((postAcq f (admCqe e .success v.1 0) v.2)))) ∧
  (∀ (f : FnId) (e : Desc) (s : State),
      let d := entryTaken f s.dev
      let t := targetOf f e
      let x := getFn d t
      admitted 0x31 .pfForItsFns f e s →
      bit e.w1 2 = false →
      (bit e.w1 0 = true → 1 ≤ e.f 0x10 0 19 ∧ e.f 0x10 0 19 ≤ 400000 ∧ 5 ≤ e.f 0x10 32 14 ∧ e.f 0x10 32 14 ≤ 16384) →
      (bit e.w1 1 = true → 1 ≤ e.f 0x18 0 19 ∧ e.f 0x18 0 19 ≤ 400000 ∧ 5 ≤ e.f 0x18 32 14 ∧ e.f 0x18 32 14 ≤ 16384) →
        exec (.setPolicer f e) s = .next (s.after ((postAcq f (admCqe e .success (x.polOutDrop.setWidth 64) (x.polInDrop.setWidth 64)) (setFn t { x with
      polOut := setPolicer (bit e.w1 0) x.polOut (e.f 0x10 0 19) (e.f 0x10 32 14)
      polIn := setPolicer (bit e.w1 1) x.polIn (e.f 0x18 0 19) (e.f 0x18 32 14) } d))))) ∧
  (∀ (f : FnId) (e : Desc) (s : State),
      let d := entryTaken f s.dev
      let t := targetOf f e
      admitted 0x31 .pfForItsFns f e s →
      bit e.w1 2 = true →
        exec (.setPolicer f e) s = .next (s.after ((postAcq f (admCqe e .success ((getFn d t).polOutDrop.setWidth 64) ((getFn d t).polInDrop.setWidth 64)) d)))) ∧
  (∀ (f : FnId) (e : Desc) (s : State),
      let d := entryTaken f s.dev
      let t := targetOf f e
      let x := getFn d t
      let back := BitVec.ofNat 64 (e.f 0x08 12 52 * 4096)
      let need := backingNeed d t
      let d1 := setFn t { x with park := .parking, backing := back } d
      admitted 0x38 .pfForItsFns f e s →
      (∀ q ∈ x.sqs, q.2.inflight = []) →
      need ≤ e.w2.toNat →
        exec (.parkFunction f e) s = .next (s.after ((waiting 0x38 f e [] (emit (.hostCopy t.port back.toNat need) d1))))) ∧
  (∀ (f : FnId) (w : AdmWait) (s : State),
      let d := waitEnded f s.dev
      let t := w.target
      let ns := connNums d t
      let d1 := ns.foldl (fun d n => refuseMiss n .parked d) d
      let d2 : Dev :=
        { d1 with xpt := { d1.xpt with
          writing := d1.xpt.writing.filter fun w => !ns.contains w.1
          fetching := d1.xpt.fetching.filter fun n => !ns.contains n
          onDie := d1.xpt.onDie.filter fun n => !ns.contains n } }
      awaited 0x38 f w s →
      ((getFn d t).park = .parking ∧ allWritten s.dev t = true) →
        exec (.parkFunctionDone f) s = .next (s.after ((postAcq f (admCqe w.arg .success 0 0)
      (moveStates t .active .parked .active .parked (updFn t (fun x => { x with park := .parked }) d2)))))) ∧
  (∀ (f : FnId) (e : Desc) (s : State),
      let d := entryTaken f s.dev
      let t := targetOf f e
      admitted 0x39 .pfForItsFns f e s →
      (getFn d t).park = .parked →
        exec (.unparkFunction f e) s = .next (s.after ((waiting 0x39 f e [] (emit (.hostLoad t.port (getFn d t).backing.toNat) (updFn t (fun x => { x with park := .unparking }) d)))))) ∧
  (∀ (f : FnId) (w : AdmWait) (crcOk : Bool) (s : State),
      let d := waitEnded f s.dev
      let t := w.target
      let back := moveStates t .parked .active .parked .active (updFn t (fun x => { x with park := .no }) d)
      awaited 0x39 f w s →
      (getFn d t).park = .unparking →
        exec (.unparkFunctionDone f crcOk) s = .next (s.after ((if crcOk then postAcq f (admCqe w.arg .success 0 0) back else postAcq f (admCqe w.arg .hostDmaError 0 0) (unparkFails t d)))))

/-- SET_FUNC_DOMAIN and SET_FUNC_QUOTA set what they name; QUERY_FUNC and IDENTIFY answer; SET_MODE enters the arbitration of the tick, which carries out
the highest request and completes it, and in Quarantine carries out none and completes those that wait; FAULT_CLEAR clears a record. The whole next
state is given: every register, queue, buffer, counter and flag it does not set is as before, but for what follows a command at once (State.after), of
which SettlingKeepsControlState says what it leaves alone. The rules followed: R50, R52, R61, R372, R389, R426, R450. What is the model's choice in
it: log entries 3, 39, 42, 90, 97, 98. -/
def Obligations.FunctionAndModeCommandsComplete : Prop :=
  (∀ (f : FnId) (e : Desc) (s : State),
      let d := entryTaken f s.dev
      let t := targetOf f e
      let x := getFn d t
      let new : Dom := BitVec.ofNat 16 (e.f 0x08 0 16)
      let d1 := updFn t (fun x => { x with domain := new }) d
      admitted 0x40 .pfForItsFns f e s →
      holdsDomain d t = false →
      splitInBlock d t = false →
        exec (.setFuncDomain f e) s = .next (s.after ((postAcq f (admCqe e .success 0 0) (if new = x.domain then d1 else { d1 with
      isl := { d1.isl with opened := d1.isl.opened.map fun b => { b with changed := tput b.changed (fnKey t) new } } }))))) ∧
  (∀ (f : FnId) (e : Desc) (q : QuotaArg) (s : State),
      let d := entryTaken f s.dev
      let t := targetOf f e
      admitted 0x41 .pfForItsVfs f e s →
        exec (.setFuncQuota f e q) s = .next (s.after ((postAcq f (admCqe e .success 0 0) (updFn t (fun x => { x with quota :=
      { sq := q.sq, cq := q.cq, eq := q.eq, conn := q.conn, mctx := q.mctx, region := q.region, hbm := q.hbm } }) d))))) ∧
  (∀ (f : FnId) (e : Desc) (s : State),
      let d := entryTaken f s.dev
      admitted 0x42 .pfOrSelf f e s →
        exec (.queryFunc f e) s = .next (s.after ((postAcq f (admCqe e .success (takeFree d).1 (takeFree (takeFree d).2).1) (takeFree (takeFree d).2).2)))) ∧
  (∀ (f : FnId) (e : Desc) (s : State),
      let d := entryTaken f s.dev
      admitted 0x50 .any f e s →
        exec (.identify f e) s = .next (s.after ((postAcq f (admCqe e .success (takeFree d).1 (takeFree (takeFree d).2).1) (takeFree (takeFree d).2).2)))) ∧
  (∀ (f : FnId) (e : Desc) (s : State),
      let d := entryTaken f s.dev
      admitted 0x48 .owner f e s →
      bit e.w1 8 = false →
      modeCheck d true (modeOf (e.f 0x08 0 3)) = none →
        exec (.setMode f e) s = .next (s.after ((waiting 0x48 f e [] (enterReq { owner := some (f, e), mode := modeOf (e.f 0x08 0 3) } d))))) ∧
  (∀ (f : FnId) (e : Desc) (s : State),
      let d := entryTaken f s.dev
      admitted 0x48 .owner f e s →
      bit e.w1 8 = true →
      d.svc.lease = false →
        exec (.setModeDeviceReset f e) s = .next (s.after ((postAcq f (admCqe e .success 0 0) { d with modeSt := { d.modeSt with resetReq := true } })))) ∧
  (∀ (r : ModeReq) (s : State),
      let d := answerReqs r.mode s.dev.modeSt.reqs { s.dev with modeSt := { s.dev.modeSt with reqs := [] } }
      (listens s ∧ s.dev.mode ≠ .quarantine) →
      winner s.dev.modeSt.reqs = some r →
        exec .modeArbitration s = .next (s.after ((pumpCmds s.mir (answerCmds r.mode (changeMode r.mode (if r.owner.isSome then 1 else 2) d)))))) ∧
  (∀ (s : State),
      (listens s ∧ s.dev.mode = .quarantine) →
        exec .modeArbitration s = .next (s.after ((pumpCmds s.mir (answerWith .quarantine .modeRefused (answerStale s.dev)))))) ∧
  (∀ (f : FnId) (e : Desc) (s : State),
      let d := entryTaken f s.dev
      let src := e.f 0x08 0 9
      let d1 := setRec src (getRec d src).cleared d
      admitted 0x4A .owner f e s →
      bit e.w1 16 = false →
      (knownSource d src = true ∧ clearBarred d src = false) →
        exec (.faultClear f e) s = .next (s.after ((postAcq f (admCqe e .success (BitVec.ofNat 64 (b2n (getRec d src).valid)) 0) (if bit e.w1 17 then clearCorr src d1 else d1)))))

/-- An admitted FABRIC_MGMT of the active manager with HOST_FM set completes with SUCCESS: SEND (FM_OP 0) with LEN at most 1,024 routes the frame its
words and buffer give, with COORD at DEPTH + 16 where UP; RECV (FM_OP 1) takes the oldest frame held and answers its header word and length, its
payload written to BUF, or 0 and 0 where none is held; LOCAL (FM_OP 2) puts the buffer's 1,024 bytes behind the commands in hand, begins it where none
is, and waits for its later completion. A DESCRIPTOR_FETCH of a ring that may be fetched copies the slots in order and writes the count back where
that is due: an entry whose SEQ is the count's is taken in and the count goes on by one; one whose SEQ is not, and a failed read, complete with
SQ_SEQ_MISMATCH or RING_READ_ERROR, halt the ring and post SQ_HALTED. The whole next state is given: every register, queue, buffer, counter and flag
it does not set is as before, but for what follows a command at once (State.after), of which SettlingKeepsControlState says what it leaves alone. The
rules followed: R66, R67, R79, R363. What is the model's choice in it: log entries 41, 89, 91, 130, 132, 133. -/
def Obligations.FabricMgmtAndFetchComplete : Prop :=
  (∀ (f : FnId) (e : Desc) (buf : List Byte) (s : State),
      let d := entryTaken f s.dev
      let fr := frameOf e.w3 (buf.take (e.f 0x10 0 11))
      let out := if fr.up then { fr with coord := BitVec.ofNat 16 (d.svc.depth + 16) } else fr
      admitted 0x49 .owner f e s →
      fmOp e = 0 →
      hostFm d = true →
      (e.f 0x10 0 11 ≤ 1024 ∧ e.f 0x08 0 3 = 0) →
        exec (.fabricMgmtSend f e buf) s = .next (s.after ((pumpCmds s.mir (postAcq f (admCqe e .success 0 0) (routeFrame out none mgrTake ownFrame d)))))) ∧
  (∀ (f : FnId) (e : Desc) (fr : Frame) (more : List Frame) (s : State),
      let d := entryTaken f s.dev
      admitted 0x49 .owner f e s →
      fmOp e = 1 →
      e.f 0x08 0 3 = 0 →
      d.svc.rx = fr :: more →
        exec (.fabricMgmtRecv f e) s = .next (s.after ((postAcq f (admCqe e .success (frameWord fr) (BitVec.ofNat 64 fr.payload.length))
      (hostWrite f false (e.f 0x08 0 64) fr.payload false { d with svc := { d.svc with rx := more } }))))) ∧
  (∀ (f : FnId) (e : Desc) (s : State),
      let d := entryTaken f s.dev
      admitted 0x49 .owner f e s →
      fmOp e = 1 →
      e.f 0x08 0 3 = 0 →
      d.svc.rx = [] →
        exec (.fabricMgmtRecv f e) s = .next (s.after ((postAcq f (admCqe e .success 0 0) d)))) ∧
  (∀ (f : FnId) (e : Desc) (buf : List Byte) (s : State),
      let d := entryTaken f s.dev
      let run : CmdRun := { frame := { ftype := 0x5, payload := buf.take 1024 }, fn := f, desc := e }
      admitted 0x49 .owner f e s →
      fmOp e = 2 →
      hostFm d = true →
      e.f 0x08 0 3 = 0 →
        exec (.fabricMgmtLocal f e buf) s = .next (s.after ((pumpCmds s.mir (waiting 0x49 f e [] { d with svc := { d.svc with cmds := run :: d.svc.cmds } }))))) ∧
  (∀ (f : FnId) (e : Desc) (buf : List Byte) (s : State),
      let d := entryTaken f s.dev
      let run : CmdRun := { frame := { ftype := 0x5, payload := buf.take 1024 }, fn := f, desc := e }
      admitted 0x49 .owner f e s →
      fmOp e = 2 →
      hostFm d = true →
      (e.f 0x08 0 3 = 0 ∧ d.svc.cmds = []) →
        exec (.fabricMgmtLocal f e buf) s = .next (s.after ((runCmds s.mir 2 (cmdBegin s.mir run (waiting 0x49 f e [] d)))))) ∧
  (∀ (f : FnId) (n : Fin 65536) (r : Desc) (q : Sq) (s : State),
      listens s →
      tget (getFn s.dev f).sqs n.val = some q →
      (q.halted = none ∧ fnSuspended s.dev f = false ∧ q.c ≠ q.p) →
      (r.seq = q.c.toNat % 256 ∧ q.c + 1 ≠ q.p ∧ (q.c + 1 - q.lastWb).toNat < 16) →
        exec (.descriptorFetch f (.sq n) [.entry r]) s = .next (s.after ((updFn f (fun x => { x with sqs := tput x.sqs n.val { q with
      c := q.c + 1, fetched := q.fetched ++ [{ cnt := q.c, d := r, t0 := s.dev.clk.tsc, tdb := dbTime q s.dev.clk.tsc }] } }) s.dev)))) ∧
  (∀ (f : FnId) (n : Fin 65536) (r : Desc) (q : Sq) (s : State),
      listens s →
      tget (getFn s.dev f).sqs n.val = some q →
      (q.halted = none ∧ fnSuspended s.dev f = false ∧ q.c ≠ q.p) →
      r.seq ≠ q.c.toNat % 256 →
        exec (.descriptorFetch f (.sq n) [.entry r]) s = .next (s.after ((wbSq f n.val (postHalted f (.sq n) .sqSeqMismatch (badDesc f n.val q.cq (some r) .sqSeqMismatch
      (updFn f (fun x => { x with sqs := tput x.sqs n.val { q with c := q.c + 1, halted := some .sqSeqMismatch } }) s.dev))))))) ∧
  (∀ (f : FnId) (n : Fin 65536) (aer : Fin 32) (q : Sq) (s : State),
      listens s →
      tget (getFn s.dev f).sqs n.val = some q →
      (q.halted = none ∧ fnSuspended s.dev f = false ∧ q.c ≠ q.p) →
        exec (.descriptorFetch f (.sq n) [.failed aer]) s = .next (s.after ((wbSq f n.val (postHalted f (.sq n) .ringReadError (badDesc f n.val q.cq none .ringReadError
      (haltSq f n.val .ringReadError (pcieError f aer.val s.dev)))))))) ∧
  (∀ (f : FnId) (n : Fin 65536) (res : List FetchRes) (q : Sq) (s : State),
      listens s →
      tget (getFn s.dev f).sqs n.val = some q →
      (q.halted = none ∧ fnSuspended s.dev f = false) →
        exec (.descriptorFetch f (.sq n) res) s = .next (s.after ((wbSq f n.val (fetchSq f n res s.dev))))) ∧
  (∀ (f : FnId) (r : Desc) (s : State),
      let x := getFn s.dev f
      listens s →
      (x.aqEnable = true ∧ x.aqHalted = none ∧ x.inFlr = false ∧ x.fenced = false ∧ x.acqSlot = []) →
      (fnExists s.dev f = true ∧ s.dev.mode ≠ .quarantine ∧ s.dev.boot.phase = .running) →
      (x.aqC ≠ x.aqP ∧ r.seq = x.aqC.toNat % 256 ∧ x.aqC + 1 ≠ x.aqP ∧ (x.aqC + 1 - x.aqLastWb).toNat < 16) →
        exec (.descriptorFetch f .admin [.entry r]) s = .next (s.after ((setFn f { x with aqC := x.aqC + 1, admFetched := x.admFetched ++ [r] } s.dev)))) ∧
  (∀ (f : FnId) (r : Desc) (s : State),
      let x := getFn s.dev f
      listens s →
      (x.aqEnable = true ∧ x.aqHalted = none ∧ x.inFlr = false ∧ x.fenced = false ∧ x.acqSlot = []) →
      (fnExists s.dev f = true ∧ s.dev.mode ≠ .quarantine ∧ s.dev.boot.phase = .running) →
      (x.aqC ≠ x.aqP ∧ r.seq ≠ x.aqC.toNat % 256) →
        exec (.descriptorFetch f .admin [.entry r]) s = .next (s.after ((wbAq f (postHalted f .admin .sqSeqMismatch (badAdmin f (some r) .sqSeqMismatch
      (setFn f { x with aqC := x.aqC + 1, aqHalted := some .sqSeqMismatch } s.dev))))))) ∧
  (∀ (f : FnId) (res : List FetchRes) (s : State),
      let x := getFn s.dev f
      listens s →
      (x.aqEnable = true ∧ x.aqHalted = none ∧ x.inFlr = false ∧ x.fenced = false ∧ x.acqSlot = []) →
      (fnExists s.dev f = true ∧ s.dev.mode ≠ .quarantine ∧ s.dev.boot.phase = .running) →
        exec (.descriptorFetch f .admin res) s = .next (s.after ((wbAq f (fetchAq f res s.dev)))))

/-- A PUT, PUT_FLAG, GET, ATOMIC or SEND_TAGGED that starts on a connection of its function, with its key and length right, is made an operation of that
connection in order; NOP and FENCE complete in ring order with SUCCESS. The whole next state is given: every register, queue, buffer, counter and flag
it does not set is as before, but for what follows a command at once (State.after), of which SettlingKeepsControlState says what it leaves alone. The
rules followed: R71, R73, R124, R125, R126, R167. What is the model's choice in it: log entries 32, 37, 57, 58, 63, 140, 141. -/
def Obligations.WorkOnConnectionsComplete : Prop :=
  (∀ (f : FnId) (sq : Fin 65536) (e : Desc) (q : Sq) (y : Fetched) (c : Conn) (s : State),
      let d := descTaken 0x01 f sq e q y s.dev
      let w := startOf f sq e q y s.dev
      starts 0x01 f sq e q y s →
      connStatus d f e = .ok c →
      reachable d c.peer = true →
        exec (.put f sq e) s = .next (s.after ((startOp e.conn (newOp w .put e.length) d)))) ∧
  (∀ (f : FnId) (sq : Fin 65536) (e : Desc) (q : Sq) (y : Fetched) (c : Conn) (s : State),
      let d := descTaken 0x02 f sq e q y s.dev
      let w := startOf f sq e q y s.dev
      starts 0x02 f sq e q y s →
      connStatus d f e = .ok c →
      reachable d c.peer = true →
        exec (.putFlag f sq e) s = .next (s.after ((startOp e.conn (newOp w .putFlag e.length) d)))) ∧
  (∀ (f : FnId) (sq : Fin 65536) (e : Desc) (q : Sq) (y : Fetched) (c : Conn) (s : State),
      let d := descTaken 0x03 f sq e q y s.dev
      let w := startOf f sq e q y s.dev
      starts 0x03 f sq e q y s →
      connStatus d f e = .ok c →
      reachable d c.peer = true →
        exec (.get f sq e) s = .next (s.after ((startOp e.conn (newOp w .get e.length) d)))) ∧
  (∀ (f : FnId) (sq : Fin 65536) (e : Desc) (q : Sq) (y : Fetched) (c : Conn) (s : State),
      let d := descTaken 0x04 f sq e q y s.dev
      let w := startOf f sq e q y s.dev
      starts 0x04 f sq e q y s →
      connStatus d f e = .ok c →
      reachable d c.peer = true →
        exec (.atomic f sq e) s = .next (s.after ((startOp e.conn (newOp w .atomic 8) d)))) ∧
  (∀ (f : FnId) (sq : Fin 65536) (e : Desc) (q : Sq) (y : Fetched) (c : Conn) (s : State),
      let d := descTaken 0x05 f sq e q y s.dev
      let w := startOf f sq e q y s.dev
      starts 0x05 f sq e q y s →
      connStatus d f e = .ok c →
      reachable d c.peer = true →
        exec (.sendTagged f sq e) s = .next (s.after ((startOp e.conn (newOp w (if byRendezvous e then .sendRts else .sendEager) e.length) d)))) ∧
  (∀ (f : FnId) (sq : Fin 65536) (e : Desc) (q : Sq) (y : Fetched) (s : State),
      starts 0x00 f sq e q y s →
        exec (.nop f sq e) s = .next (s.after ((endStart (startOf f sq e q y s.dev) .success 0 0 (descTaken 0x00 f sq e q y s.dev))))) ∧
  (∀ (f : FnId) (sq : Fin 65536) (e : Desc) (q : Sq) (y : Fetched) (s : State),
      starts 0x09 f sq e q y s →
        exec (.fence f sq e) s = .next (s.after ((endStart (startOf f sq e q y s.dev) .success 0 0 (descTaken 0x09 f sq e q y s.dev)))))

/-- A POST_RECV takes the oldest unexpected message that matches, or is posted, or is refused with the first status of R169 that applies, with
NO_RESOURCES where its context or the device is full; a NOTE reads its payload; a COLL waits for its tree's slot. The whole next state is given: every
register, queue, buffer, counter and flag it does not set is as before, but for what follows a command at once (State.after), of which
SettlingKeepsControlState says what it leaves alone. The rules followed: R127, R169, R170, R204, R205. What is the model's choice in it: log entries
3, 54, 62, 64, 65, 71, 72, 144, 158. -/
def Obligations.WorkOnContextsComplete : Prop :=
  (∀ (f : FnId) (sq : Fin 65536) (e : Desc) (q : Sq) (y : Fetched) (x : Mctx) (r : MsgRec) (s : State),
      let d := descTaken 0x06 f sq e q y s.dev
      let p : Posted :=
        { seq := x.postSeq, tag := e.remoteVa, ignore := e.ignore, va := e.w2, key := e.localKey, len := e.length
          source := e.source, anySource := e.anySource, wild := e.anySource || e.ignore != 0, mctx := e.mctx, fn := f
          sq := sq.val, cnt := y.cnt, cq := workCq s.dev f q e, userCtx := e.userCtx }
      let d1 := setMctx e.mctx { x with postSeq := x.postSeq + 1 } (noteSearch f (msgsExamined d e.mctx p) d)
      starts 0x06 f sq e q y s →
      recvStatus d f e = .ok x →
      selectMsg d1 e.mctx p = some r →
        exec (.postRecv f sq e) s = .next (s.after ((joinMsg r.id p d1)))) ∧
  (∀ (f : FnId) (sq : Fin 65536) (e : Desc) (q : Sq) (y : Fetched) (x : Mctx) (s : State),
      let d := descTaken 0x06 f sq e q y s.dev
      let p : Posted :=
        { seq := x.postSeq, tag := e.remoteVa, ignore := e.ignore, va := e.w2, key := e.localKey, len := e.length
          source := e.source, anySource := e.anySource, wild := e.anySource || e.ignore != 0, mctx := e.mctx, fn := f
          sq := sq.val, cnt := y.cnt, cq := workCq s.dev f q e, userCtx := e.userCtx }
      let d1 := setMctx e.mctx { x with postSeq := x.postSeq + 1 } (noteSearch f (msgsExamined d e.mctx p) d)
      let ix := takeFree d1
      let p1 := { p with ix := ix.1.toNat % 2 ^ 22, app := ix.2.xpt.nextId }
      starts 0x06 f sq e q y s →
      recvStatus d f e = .ok x →
      selectMsg d1 e.mctx p = none →
        exec (.postRecv f sq e) s = .next (s.after ((setMctx e.mctx { x with postSeq := x.postSeq + 1, posted := x.posted ++ [p1] }
      { ix.2 with xpt := { ix.2.xpt with nextId := ix.2.xpt.nextId + 1 } })))) ∧
  (∀ (f : FnId) (sq : Fin 65536) (e : Desc) (q : Sq) (y : Fetched) (x : Mctx) (g : Region) (s : State),
      let d := descTaken 0x06 f sq e q y s.dev
      starts 0x06 f sq e q y s →
      (refusedByState d f = none ∧ e.signal = true) →
      (getMctx d e.mctx = some x ∧ x.fn = f ∧ x.st ≠ .lost) →
      checkRegion d f e.localKey e.localVa e.length .localWrite = .ok g →
      ((x.maxPosted ≠ 0 ∧ x.maxPosted ≤ postedIn d e.mctx x) ∨ 4194304 ≤ postedUsed d) →
        exec (.postRecv f sq e) s = .next (s.after ((endStart (startOf f sq e q y s.dev) .noResources 0 0 d)))) ∧
  (∀ (f : FnId) (sq : Fin 65536) (e : Desc) (q : Sq) (y : Fetched) (st : Status) (s : State),
      let d := descTaken 0x06 f sq e q y s.dev
      starts 0x06 f sq e q y s →
      recvStatus d f e = .error st →
        exec (.postRecv f sq e) s = .next (s.after ((endStart (startOf f sq e q y s.dev) st 0 0 d)))) ∧
  (∀ (f : FnId) (sq : Fin 65536) (e : Desc) (q : Sq) (y : Fetched) (r : Region) (s : State),
      let d := descTaken 0x07 f sq e q y s.dev
      let a : Access :=
        { fn := f, key := e.localKey, va := e.localVa, len := e.length, right := .localRead, sq := sq.val
          cont := .noteRead sq.val y.cnt e }
      starts 0x07 f sq e q y s →
      noteStatus d f e = .ok r →
      e.length ≠ 0 →
        exec (.note f sq e) s = .next (s.after ((askChecked a r d)))) ∧
  (∀ (f : FnId) (sq : Fin 65536) (e : Desc) (q : Sq) (y : Fetched) (r : Region) (s : State),
      let d := descTaken 0x07 f sq e q y s.dev
      let a : Access :=
        { fn := f, key := e.localKey, va := e.localVa, len := e.length, right := .localRead, sq := sq.val
          cont := .noteRead sq.val y.cnt e }
      starts 0x07 f sq e q y s →
      noteStatus d f e = .ok r →
      e.length = 0 →
        exec (.note f sq e) s = .next (s.after ((readDone a [] d)))) ∧
  (∀ (f : FnId) (sq : Fin 65536) (e : Desc) (q : Sq) (y : Fetched) (s : State),
      let d := descTaken 0x08 f sq e q y s.dev
      let r : CollReq := { fn := f, sq := sq.val, cnt := y.cnt, cq := workCq s.dev f q e, cls := q.cls, desc := e }
      starts 0x08 f sq e q y s →
      collStatus d f e = none →
        exec (.coll f sq e) s = .next (s.after ((updFn f (fun x => { x with trees := tmod x.trees e.tree fun m => { m with waitQ := m.waitQ ++ [r] } }) d))))

/-- A doorbell whose count lies within the range its queue allows moves P of a submission or admin ring, or H of a completion, admin completion or event
queue, with ARM as written; a host whose link is up may write it. The whole next state is given: every register, queue, buffer, counter and flag it
does not set is as before, but for what follows a command at once (State.after), of which SettlingKeepsControlState says what it leaves alone. The
rules followed: R58, R65, R68, R69, R76, R78. What is the model's choice in it: log entries 31, 38, 124, 131, 132. -/
def Obligations.DoorbellsComplete : Prop :=
  (∀ (f : FnId) (n : Fin 65536) (w : Wr) (q : Sq) (count : Word32) (arm : Bool) (p : Word32) (s : State),
      let d := s.dev
      let t := if p = q.p then q.dbT else q.dbT.filter (fun y => decide ((y.1 - q.c).toNat - 1 < 2 ^ 31)) ++ [(p, d.clk.tsc)]
      (listens s ∧ dbLive d f = true) →
      dbValue w = some (count, arm) →
      (tget (getFn d f).sqs n.val = some q ∧ q.halted = none) →
      dbAdvance q.log2 q.p q.c count = .ok p →
        exec (.sqDoorbell f n w) s = .next (s.after ((occur { ev := 0x04, fn := some f } (updFn f (fun x => { x with sqs := tput x.sqs n.val { q with p := p, dbT := t } }) d))))) ∧
  (∀ (f : FnId) (w : Wr) (count : Word32) (arm : Bool) (p : Word32) (s : State),
      let d := s.dev
      let x := getFn d f
      (listens s ∧ dbLive d f = true) →
      dbValue w = some (count, arm) →
      (x.aqEnable = true ∧ x.aqHalted = none) →
      dbAdvance x.aqLog2 x.aqP x.aqC count = .ok p →
        exec (.aqDb f w) s = .next (s.after ((occur { ev := 0x04, fn := some f } (setFn f { x with aqP := p } d))))) ∧
  (∀ (f : FnId) (w : Wr) (count : Word32) (arm : Bool) (s : State),
      let d := s.dev
      let x := getFn d f
      (listens s ∧ dbLive d f = true) →
      dbValue w = some (count, arm) →
      (x.acqEnable = true ∧ countInRange x.acqH x.acqW count = true) →
        exec (.acqDb f w) s = .next (s.after ((drainAcq f (x.acqSlot.length + 1) (setFn f { x with acqH := count, acqArm := x.acqArm || arm } d))))) ∧
  (∀ (f : FnId) (n : Fin 65536) (w : Wr) (q : Cq) (count : Word32) (arm : Bool) (s : State),
      let d := s.dev
      let q1 := { q with h := count, arm := q.arm || arm }
      let q2 := if cqFull q1 then q1 else { q1 with stalled := false, stallPosted := false }
      let d2 := drainCq f n.val (q.buf.length + 1) (updFn f (fun x => { x with cqs := tput x.cqs n.val q2 }) d)
      (listens s ∧ dbLive d f = true) →
      dbValue w = some (count, arm) →
      (tget (getFn d f).cqs n.val = some q ∧ countInRange q.h q.w count = true) →
        exec (.cqDoorbell f n w) s = .next (s.after ((if q.stallPosted && !cqFull q1 then postEvent f .cqResumed (BitVec.ofNat 32 n.val) 0 0 d2 else d2)))) ∧
  (∀ (f : FnId) (n : Fin 4096) (w : Wr) (r : Eq) (count : Word32) (arm : Bool) (s : State),
      let d := s.dev
      let r1 := { r with h := count, arm := r.arm || arm }
      let regained := r.missed && decide (0 < ringFree r1.log2 r1.w r1.h)
      let d1 := updFn f (fun x => { x with eqs := tput x.eqs n.val (if regained then { r1 with missed := false } else r1) }) d
      let lost : Eqe := { code := .eqOverflowed, object := BitVec.ofNat 32 n.val, infoA := fnStatWord (getFn d1 f), time := d1.clk.tsc }
      (listens s ∧ dbLive d f = true) →
      dbValue w = some (count, arm) →
      (tget (getFn d f).eqs n.val = some r ∧ countInRange r.h r.w count = true) →
        exec (.eqDoorbell f n w) s = .next (s.after ((if regained then writeEqe f n.val lost d1 else d1))))

/-- A count beyond the ring of a submission queue or of the admin queue posts DB_OVERRUN and leaves P; a doorbell of a submission, completion or event
queue that does not exist, of a submission or admin queue that is halted, and a count outside H to W of a completion, event or admin completion queue,
move nothing and count in FN_DB_DROP; one of an admin or admin completion queue that is not enabled does nothing. The whole next state is given: every
register, queue, buffer, counter and flag it does not set is as before, but for what follows a command at once (State.after), of which
SettlingKeepsControlState says what it leaves alone. The rules followed: R58, R65, R68, R69, R76, R78. What is the model's choice in it: log entries
31, 38, 124, 131, 132. -/
def Obligations.DoorbellsOutOfPlace : Prop :=
  (∀ (f : FnId) (n : Fin 65536) (w : Wr) (q : Sq) (count : Word32) (arm : Bool) (s : State),
      let d := s.dev
      (listens s ∧ dbLive d f = true) →
      dbValue w = some (count, arm) →
      (tget (getFn d f).sqs n.val = some q ∧ q.halted = none) →
      2 ^ q.log2 - (q.p - q.c).toNat < (count - q.p).toNat →
        exec (.sqDoorbell f n w) s = .next (s.after ((postEvent f .dbOverrun (BitVec.ofNat 32 n.val) (count.setWidth 64) 0 d)))) ∧
  (∀ (f : FnId) (n : Fin 65536) (w : Wr) (count : Word32) (arm : Bool) (s : State),
      let d := s.dev
      (listens s ∧ dbLive d f = true) →
      dbValue w = some (count, arm) →
      ((tget (getFn d f).sqs n.val).all (fun q => q.halted.isSome) = true) →
        exec (.sqDoorbell f n w) s = .next (s.after ((updFn f (fun x => { x with dbDrop := x.dbDrop + 1 }) d)))) ∧
  (∀ (f : FnId) (n : Fin 65536) (w : Wr) (q : Cq) (count : Word32) (arm : Bool) (s : State),
      let d := s.dev
      (listens s ∧ dbLive d f = true) →
      dbValue w = some (count, arm) →
      (tget (getFn d f).cqs n.val = some q ∧ countInRange q.h q.w count = false) →
        exec (.cqDoorbell f n w) s = .next (s.after ((updFn f (fun x => { x with dbDrop := x.dbDrop + 1 }) d)))) ∧
  (∀ (f : FnId) (n : Fin 4096) (w : Wr) (r : Eq) (count : Word32) (arm : Bool) (s : State),
      let d := s.dev
      (listens s ∧ dbLive d f = true) →
      dbValue w = some (count, arm) →
      (tget (getFn d f).eqs n.val = some r ∧ countInRange r.h r.w count = false) →
        exec (.eqDoorbell f n w) s = .next (s.after ((updFn f (fun x => { x with dbDrop := x.dbDrop + 1 }) d)))) ∧
  (∀ (f : FnId) (n : Fin 65536) (w : Wr) (count : Word32) (arm : Bool) (s : State),
      let d := s.dev
      (listens s ∧ dbLive d f = true) →
      dbValue w = some (count, arm) →
      tget (getFn d f).cqs n.val = none →
        exec (.cqDoorbell f n w) s = .next (s.after ((updFn f (fun x => { x with dbDrop := x.dbDrop + 1 }) d)))) ∧
  (∀ (f : FnId) (n : Fin 4096) (w : Wr) (count : Word32) (arm : Bool) (s : State),
      let d := s.dev
      (listens s ∧ dbLive d f = true) →
      dbValue w = some (count, arm) →
      tget (getFn d f).eqs n.val = none →
        exec (.eqDoorbell f n w) s = .next (s.after ((updFn f (fun x => { x with dbDrop := x.dbDrop + 1 }) d)))) ∧
  (∀ (f : FnId) (w : Wr) (count : Word32) (arm : Bool) (s : State),
      let d := s.dev
      let x := getFn d f
      (listens s ∧ dbLive d f = true) →
      dbValue w = some (count, arm) →
      (x.aqEnable = true ∧ x.aqHalted = none) →
      2 ^ x.aqLog2 - (x.aqP - x.aqC).toNat < (count - x.aqP).toNat →
        exec (.aqDb f w) s = .next (s.after ((postEvent f .dbOverrun 0xFFFFFFFF (count.setWidth 64) 0 d)))) ∧
  (∀ (f : FnId) (w : Wr) (count : Word32) (arm : Bool) (s : State),
      let d := s.dev
      let x := getFn d f
      (listens s ∧ dbLive d f = true) →
      dbValue w = some (count, arm) →
      (x.aqEnable = true ∧ x.aqHalted.isSome = true) →
        exec (.aqDb f w) s = .next (s.after ((updFn f (fun x => { x with dbDrop := x.dbDrop + 1 }) d)))) ∧
  (∀ (f : FnId) (w : Wr) (s : State),
      let d := s.dev
      listens s →
      (getFn d f).aqEnable = false →
        exec (.aqDb f w) s = .next (s.after (d))) ∧
  (∀ (f : FnId) (w : Wr) (count : Word32) (arm : Bool) (s : State),
      let d := s.dev
      let x := getFn d f
      (listens s ∧ dbLive d f = true) →
      dbValue w = some (count, arm) →
      (x.acqEnable = true ∧ countInRange x.acqH x.acqW count = false) →
        exec (.acqDb f w) s = .next (s.after ((updFn f (fun x => { x with dbDrop := x.dbDrop + 1 }) d)))) ∧
  (∀ (f : FnId) (w : Wr) (s : State),
      let d := s.dev
      listens s →
      (getFn d f).acqEnable = false →
        exec (.acqDb f w) s = .next (s.after (d)))

/-- AQ_CFG and ACQ_CFG written by the host enable or disable their rings; the stall timeout of a full completion queue and the end of its coalescing time
act as R69 and R78 say. The whole next state is given: every register, queue, buffer, counter and flag it does not set is as before, but for what
follows a command at once (State.after), of which SettlingKeepsControlState says what it leaves alone. The rules followed: R56, R57, R69, R78. What is
the model's choice in it: log entries 30, 131. -/
def Obligations.QueueRegistersAndTimersComplete : Prop :=
  (∀ (f : FnId) (w : Wr) (s : State),
      let d := s.dev
      listens s →
      (fnExists d f = true ∧ (getFn d f).pci.d3 = false) →
      (meterHold d = true → wouldEnable w (getFn d f) = false) →
        exec (.aqCfgWrite f w) s = .next (s.now ((updFn f (halves aqCfgLow aqCfgHigh w) d)))) ∧
  (∀ (f : FnId) (w : Wr) (s : State),
      let d := s.dev
      listens s →
      (fnExists d f = true ∧ (getFn d f).pci.d3 = false) →
        exec (.acqCfgWrite f w) s = .next (s.now ((updFn f (halves acqCfgLow acqCfgHigh w) d)))) ∧
  (∀ (f : FnId) (n : Fin 65536) (q : Cq) (s : State),
      let d := s.dev
      listens s →
      (tget (getFn d f).cqs n.val = some q ∧ cqFull q = true ∧ q.stalled = false) →
        exec (.cqStallTimeout f n) s = .next (s.after ((postEvent f .cqStalled (BitVec.ofNat 32 n.val) (BitVec.ofNat 64 q.buf.length) 0
      (updFn f (fun x => { x with cqs := tput x.cqs n.val { q with stalled := true, stallPosted := canPost d f 0 } }) d))))) ∧
  (∀ (f : FnId) (n : Fin 65536) (q : Cq) (s : State),
      let d := s.dev
      listens s →
      (tget (getFn d f).cqs n.val = some q ∧ q.ien = true ∧ 0 < q.pend ∧ 0 < q.coalTime) →
        exec (.coalTimeExpiry f n) s = .next (s.after ((fire f q.vec (updFn f (fun x => { x with cqs := tput x.cqs n.val { q with pend := 0 } }) d)))))

/-- A write of OWNER_CTL sets the register, from which the tick takes the owner port (R48); a function-level reset, a VF's end and a lost host link reset
the functions and later end them; a link comes up; a configuration write sets bus mastering, a BAR, NumVFs or VF Enable, the PCI Express registers and
the MSI-X control of a function, and of the link companion of a bifurcated port, whose registers' layout is the model's choice (log entry 127). The
whole next state is given: every register, queue, buffer, counter and flag it does not set is as before, but for what follows a command at once
(State.after), of which SettlingKeepsControlState says what it leaves alone. The rules followed: R47, R48, R81, R83, R100, R414, R436, R438, R445,
R447, R491, R520. What is the model's choice in it: log entries 33, 34, 36, 39, 127. -/
def Obligations.FunctionEventsComplete : Prop :=
  (∀ (m : Master) (w : Wr) (s : State),
      atOnce m s →
      listens s →
      mayWrite s.dev m = true →
        exec (.ownerCtlWrite m w) s = .next (s.now ((putReg 0x28 0 (mergeWr (regInForce s.dev 0x28 0) 3 w) s.dev)))) ∧
  (∀ (f : FnId) (s : State),
      listens s →
      (fnExists s.dev f = true ∧ (getFn s.dev f).inFlr = false) →
        exec (.functionLevelReset f) s = .next (s.after ((watchOwner (fun d => if f.num.val = 0 then clearPortCfg f.port (resetPort f.port d) else resetOne f d) s.dev)))) ∧
  (∀ (f : FnId) (s : State),
      listens s →
      ((getFn s.dev f).inFlr = true ∧ fnExists s.dev f = true) →
        exec (.flrComplete f) s = .next (s.after ((updFn f (fun x => { x with inFlr := false }) (liftFnFence f s.dev))))) ∧
  (∀ (p : Fin 4) (num : Fin 256) (en : Bool) (s : State),
      let h := getHp s.dev p
      let n := min num.val h.numVfs
      let e := h.vfEnable && en
      let d := (vanishing s.dev p n e).foldl (fun d f => resetOne f d) s.dev
      listens s →
        exec (.vfDisable p num en) s = .next (s.after ((updHp p (fun h => { h with numVfs := n, vfEnable := e }) d)))) ∧
  (∀ (f : FnId) (s : State),
      listens s →
      ((getFn s.dev f).inFlr = true ∧ f.num ≠ 0) →
        exec (.vfTeardownDone f) s = .next (s.after ((updFn f (fun x => { x with inFlr := false }) (liftFnFence f s.dev))))) ∧
  (∀ (p : Fin 4) (s : State),
      let masters := (pfOf p :: vfsOf s.dev p).any (fun f => (getFn s.dev f).busMaster) || (getHp s.dev p).compBm
      let d := if masters then report (srcPcie p.val) .contained caPcie 5 (fnObject (pfOf p)) 1 s.dev else s.dev
      listens s →
      (getHp s.dev p).linkUp = true →
        exec (.hostLinkDown p) s = .next (s.after ((watchOwner (linkGone p) d)))) ∧
  (∀ (p : Fin 4) (s : State),
      listens s →
        exec (.hostPortReset p) s = .next (s.after ((watchOwner (linkGone p) s.dev)))) ∧
  (∀ (p : Fin 4) (s : State),
      listens s →
      (s.dev.mode ≠ .transit ∧ s.dev.mode ≠ .recovery ∧ s.dev.boot.phase = .running) →
        exec (.hostLinkUp p) s = .next (s.now ((updHp p (fun h => { h with linkUp := true }) s.dev)))) ∧
  (∀ (f : FnId) (on : Bool) (s : State),
      listens s →
      (fnExists s.dev f = true ∧ (getHp s.dev f.port).linkUp = true ∧ (getFn s.dev f).inFlr = false) →
        exec (.pcieConfigWrite f (.busMaster on)) s = .next (s.after ((watchOwner (updFn f fun x => { x with busMaster := on }) s.dev)))) ∧
  (∀ (f : FnId) (n : Fin 3) (a : Word64) (s : State),
      let base := BitVec.ofNat 64 (a.toNat / barSize false (barKey n) * barSize false (barKey n))
      (listens s ∧ f.num = 0) →
      (fnExists s.dev f = true ∧ (getHp s.dev f.port).linkUp = true ∧ (getFn s.dev f).inFlr = false) →
        exec (.pcieConfigWrite f (.bar n a)) s = .next (s.after ((updHp f.port (fun h => { h with barPf := tput h.barPf (barKey n) base }) s.dev)))) ∧
  (∀ (f : FnId) (n : Fin 3) (a : Word64) (s : State),
      let base := BitVec.ofNat 64 (a.toNat / barSize true (barKey n) * barSize true (barKey n))
      (listens s ∧ f.num = 0) →
      (fnExists s.dev f = true ∧ (getHp s.dev f.port).linkUp = true ∧ (getFn s.dev f).inFlr = false) →
        exec (.pcieConfigWrite f (.vfBar n a)) s = .next (s.after ((updHp f.port (fun h => { h with barVf := tput h.barVf (barKey n) base }) s.dev)))) ∧
  (∀ (f : FnId) (n : Fin 256) (s : State),
      (listens s ∧ f.num = 0) →
      (fnExists s.dev f = true ∧ (getHp s.dev f.port).linkUp = true ∧ (getFn s.dev f).inFlr = false) →
      vanishing s.dev f.port n.val (getHp s.dev f.port).vfEnable = [] →
        exec (.pcieConfigWrite f (.numVfs n)) s = .next (s.after ((updHp f.port (fun h => { h with numVfs := n.val }) s.dev)))) ∧
  (∀ (f : FnId) (on : Bool) (s : State),
      (listens s ∧ f.num = 0) →
      (fnExists s.dev f = true ∧ (getHp s.dev f.port).linkUp = true ∧ (getFn s.dev f).inFlr = false) →
      vanishing s.dev f.port (getHp s.dev f.port).numVfs on = [] →
        exec (.pcieConfigWrite f (.vfEnable on)) s = .next (s.after ((updHp f.port (fun h => { h with vfEnable := on }) s.dev)))) ∧
  (∀ (f : FnId) (w : PciWr) (s : State),
      listens s →
      (fnExists s.dev f = true ∧ (getHp s.dev f.port).linkUp = true ∧ (getFn s.dev f).inFlr = false) →
        exec (.pcieConfigWrite f (.pci w)) s = .next (s.after ((updFn f (fun x => { x with pci := match w with | .power d3 => { x.pci with d3 := d3 } | .payload n => { x.pci with mps := 128 * 2 ^ n.val } | .readReq n => { x.pci with mrrs := 128 * 2 ^ n.val } | .aerStatus ones => { x.pci with aerStatus := x.pci.aerStatus &&& ~~~ ones } | .aerMask v => { x.pci with aerMask := v } }) s.dev)))) ∧
  (∀ (f : FnId) (en mask : Bool) (s : State),
      listens s →
      (fnExists s.dev f = true ∧ (getHp s.dev f.port).linkUp = true ∧ (getFn s.dev f).inFlr = false) →
        exec (.pcieConfigWrite f (.msixControl en mask)) s = .next (s.after ((firePending f (updFn f (fun x => { x with msixEn := en, msixMask := mask }) s.dev))))) ∧
  (∀ (f : FnId) (on : Bool) (s : State),
      (listens s ∧ f.num = 0) →
      (fnExists s.dev f = true ∧ (getHp s.dev f.port).linkUp = true ∧ (getFn s.dev f).inFlr = false) →
      (getHp s.dev f.port).bifurcated = true →
        exec (.pcieConfigWrite f (.companionBusMaster on)) s = .next (s.after ((updHp f.port (fun h => { h with compBm := on }) s.dev)))) ∧
  (∀ (f : FnId) (w : PciWr) (s : State),
      (listens s ∧ f.num = 0) →
      (fnExists s.dev f = true ∧ (getHp s.dev f.port).linkUp = true ∧ (getFn s.dev f).inFlr = false) →
      (getHp s.dev f.port).bifurcated = true →
        exec (.pcieConfigWrite f (.companion w)) s = .next (s.after ((updHp f.port (fun h => { h with comp := h.comp.write w }) s.dev))))

/-- The awaited answer to a host read for a payload, a walk or a re-read goes on with what the read was for; a failed read is recorded and fails what it
was for. The whole next state is given: every register, queue, buffer, counter and flag it does not set is as before, but for what follows a command
at once (State.after), of which SettlingKeepsControlState says what it leaves alone. The rules followed: R83, R94, R103, R123, R125, R126, R127, R146,
R213. What is the model's choice in it: log entries 46, 47, 49, 55, 61, 73, 127, 138, 139. -/
def Obligations.HostReadAnswersComplete : Prop :=
  (∀ (id : Nat) (data : List Byte) (a : Access) (r : ReadReq) (d1 : Dev) (n : Nat) (q : Psn) (s : State),
      answers id data a r d1 s →
      a.cont = .txPayload n q →
        exec (.payloadReadDone id data) s = .next (s.after ((readDone a data d1)))) ∧
  (∀ (id : Nat) (data : List Byte) (a : Access) (r : ReadReq) (d1 : Dev) (n : Nat) (c : Word32) (e : Desc) (s : State),
      answers id data a r d1 s →
      a.cont = .noteRead n c e →
        exec (.payloadReadDone id data) s = .next (s.after ((readDone a data d1)))) ∧
  (∀ (id : Nat) (data : List Byte) (a : Access) (r : ReadReq) (d1 : Dev) (n q : Nat) (p : Packet) (s : State),
      answers id data a r d1 s →
      a.cont = .getRead n p q →
        exec (.getTargetReadDone id data) s = .next (s.after ((readDone a data d1)))) ∧
  (∀ (id : Nat) (w : Word64) (a : Access) (r : ReadReq) (d1 : Dev) (n : Nat) (p : Packet) (s : State),
      answers id (leBytes 8 w.toNat) a r d1 s →
      a.cont = .atomRead n p →
        exec (.atomicTargetReadDone id w) s = .next (s.after ((readDone a (leBytes 8 w.toNat) d1)))) ∧
  (∀ (id : Nat) (data : List Byte) (a : Access) (r : ReadReq) (d1 : Dev) (n o k : Nat) (s : State),
      answers id data a r d1 s →
      a.cont = .collRead n o k →
        exec (.treeContribReadDone id data) s = .next (s.after ((readDone a data d1)))) ∧
  (∀ (id k : Nat) (e : Word64) (r : ReadReq) (d1 d2 : Dev) (w : Walk) (s : State),
      listens s →
      (takeRead id s.dev = some (r, d1) ∧ r.why = .walk k) →
      (takeWalk k d1 = some (w, d2) ∧ w.reread = none) →
        exec (.walkReadResponse id e) s = .next (s.after ((applyRes (walkEntry w e d2))))) ∧
  (∀ (id k : Nat) (e : Word64) (r : ReadReq) (d1 d2 : Dev) (w : Walk) (l : Leaf) (s : State),
      listens s →
      (takeRead id s.dev = some (r, d1) ∧ r.why = .walk k) →
      (takeWalk k d1 = some (w, d2) ∧ w.reread = some l) →
        exec (.markRereadResponse id e) s = .next (s.after ((applyRes (rereadEntry w l e d2))))) ∧
  (∀ (id : Nat) (aer : Fin 32) (r : ReadReq) (d1 : Dev) (s : State),
      listens s →
      takeRead id s.dev = some (r, d1) →
        exec (.hostReadFailure id aer) s = .next (s.after ((readFailed r (pcieError r.fn aer.val d1))))) ∧
  (∀ (id : Nat) (r : ReadReq) (d1 : Dev) (s : State),
      listens s →
      takeRead id s.dev = some (r, d1) →
        exec (.pcieCompletionTimeout id) s = .next (s.after ((readFailed r (pcieError r.fn 14 d1))))) ∧
  (∀ (p : Fin 4) (aer : Fin 32) (s : State),
      listens s →
        exec (.tlpDiscard p aer) s = .next (s.now ((pcieError (pfOf p) aer.val s.dev))))

/-- A packet inside the window, new and refused by nothing, is marked and carried out by its type: a PUT placed, a GET read, an atomic run, a SEND handed
over and executed; a flagged PUT above BASE is held. A GET response is placed, fails its operation where VOID, or is counted stray. A NOTE past its
policer is matched. The whole next state is given: every register, queue, buffer, counter and flag it does not set is as before, but for what follows
a command at once (State.after), of which SettlingKeepsControlState says what it leaves alone. The rules followed: R121, R125, R126, R127, R132, R133,
R166, R175, R179, R180, R181. What is the model's choice in it: log entries 3, 32, 45, 50, 51, 52, 53, 59, 60, 64, 66, 67, 133, 154, 155, 156. -/
def Obligations.DataPacketsComplete : Prop :=
  (∀ (p : Packet) (c : Conn) (s : State),
      let n := p.conn.toNat
      let c1 := markPkt c p
      let d := packetMarked p c s.dev
      packetAccepted p c s →
      (p.ptype = ptPut ∧ p.void = false) →
        exec (.putPacket p) s = .next (s.after ((afterExec n false (askPut n c1 p d))))) ∧
  (∀ (p : Packet) (c : Conn) (s : State),
      let n := p.conn.toNat
      let d := packetMarked p c s.dev
      packetAccepted p c s →
      (p.ptype = ptPut ∧ p.void = true) →
        exec (.putPacket p) s = .next (s.after ((afterExec n false (markExec n p.psn d))))) ∧
  (∀ (p : Packet) (c : Conn) (s : State),
      let n := p.conn.toNat
      let c1 := markPkt c p
      let d := packetMarked p c s.dev
      packetAccepted p c s →
      (p.ptype = ptPutFlag ∧ p.void = false ∧ psnDist c p.psn = 0) →
        exec (.putFlagPacket p) s = .next (s.after ((afterExec n false (askPut n c1 p d))))) ∧
  (∀ (p : Packet) (c : Conn) (s : State),
      let n := p.conn.toNat
      let d := packetMarked p c s.dev
      packetAccepted p c s →
      (p.ptype = ptPutFlag ∧ p.void = true ∧ psnDist c p.psn = 0) →
        exec (.putFlagPacket p) s = .next (s.after ((afterExec n false (markExec n p.psn d))))) ∧
  (∀ (p : Packet) (c : Conn) (s : State),
      let n := p.conn.toNat
      let d := packetMarked p c s.dev
      packetAccepted p c s →
      (p.ptype = ptPutFlag ∧ psnDist c p.psn ≠ 0) →
        exec (.putFlagPacket p) s = .next (s.after ((updConn n (fun c => { c with held := c.held ++ [p.psn] }) d)))) ∧
  (∀ (p : Packet) (c : Conn) (s : State),
      let n := p.conn.toNat
      let c1 := markPkt c p
      let d := packetMarked p c s.dev
      packetAccepted p c s →
      p.ptype = ptGetReq →
        exec (.getReq p) s = .next (s.after ((afterExec n false (if p.void || p.aux == 0 then markExec n p.psn d else askGet n c1 p d))))) ∧
  (∀ (p : Packet) (c : Conn) (s : State),
      let n := p.conn.toNat
      let c1 := markPkt c p
      let d := packetMarked p c s.dev
      packetAccepted p c s →
      p.ptype = ptAtomicReq →
        exec (.atomicReq p) s = .next (s.after ((afterExec n false (if p.void then markExec n p.psn d else askAtomic n c1 p d))))) ∧
  (∀ (p : Packet) (c : Conn) (s : State),
      let n := p.conn.toNat
      let c1 := markPkt c p
      let d := packetMarked p c s.dev
      packetAccepted p c s →
      (p.ptype = ptSend ∧ skind p ≠ 2 ∧ p.void = false) →
        exec (.sendPacket p) s = .next (s.after ((afterExec n false (execSend n p (if p.first && decide (psnDist c1 p.psn = 0) then handOver n p d else d)))))) ∧
  (∀ (p : Packet) (c : Conn) (s : State),
      let n := p.conn.toNat
      let d := packetMarked p c s.dev
      packetAccepted p c s →
      (p.ptype = ptSend ∧ skind p ≠ 2 ∧ p.void = true) →
        exec (.sendPacket p) s = .next (s.after ((afterExec n false (markExec n p.psn d))))) ∧
  (∀ (p : Packet) (c : Conn) (s : State),
      let n := p.conn.toNat
      let d := packetMarked p c s.dev
      packetAccepted p c s →
      (p.ptype = ptSend ∧ skind p = 2) →
        exec (.rendezvousFinish p) s = .next (s.after ((afterExec n false (if p.void then markExec n p.psn d else finishSend n p (markExec n p.psn d)))))) ∧
  (∀ (p : Packet) (c : Conn) (o : Op) (r : Region) (s : State),
      let a : Access :=
        { fn := c.fn, key := o.desc.localKey, va := o.desc.localVa + p.offset.toNat, len := p.payload.length, right := .localWrite
          sq := o.sq, conn := p.conn.toNat, cont := .getPlace p.conn.toNat o.msn p.offset.toNat p.payload p.rh.det }
      let n := p.conn.toNat
      let d := packetTaken p s.dev
      (packetFits p c s ∧ p.ptype = ptGetResp) →
      (c.ops.find? (fun o => o.kind = .get && o.psn0 == p.psn && o.npk != 0 && !o.written) = some o) →
      (p.void = false ∧ 0 < p.payload.length ∧ p.offset.toNat + p.payload.length ≤ o.len) →
      checkRegion d c.fn o.desc.localKey (o.desc.localVa + p.offset.toNat) p.payload.length .localWrite = .ok r →
        exec (.getResp p) s = .next (s.after ((askChecked a r (tagResponse o (setConn n { updOp o.msn (fun o => { o with placing := o.placing + 1 }) c with retries := 0 } d)))))) ∧
  (∀ (p : Packet) (c : Conn) (o : Op) (s : State),
      let n := p.conn.toNat
      let d := packetTaken p s.dev
      (packetFits p c s ∧ p.ptype = ptGetResp) →
      (c.ops.find? (fun o => o.kind = .get && o.psn0 == p.psn && o.npk != 0 && !o.written) = some o) →
      p.void = true →
        exec (.getResp p) s = .next (s.after ((failOp n o.msn .remoteAccess (setConn n { c with retries := 0 } d))))) ∧
  (∀ (p : Packet) (c : Conn) (s : State),
      let d := packetTaken p s.dev
      (packetFits p c s ∧ p.ptype = ptGetResp) →
      (c.ops.find? (fun o => o.kind = .get && o.psn0 == p.psn && o.npk != 0 && !o.written) = none) →
        exec (.getResp p) s = .next (s.after (({ d with xpt := { d.xpt with stray := d.xpt.stray.add 1 } })))) ∧
  (∀ (p : Packet) (x : Fn) (m : Mctx) (b : Option Bucket) (s : State),
      let f := epFn p.rh.dest
      let d := pktArrived p s.dev
      let d1 := tally f 1 (pktLen p) (setFn f { x with polIn := b } d)
      (listens s ∧ s.dev.mode ≠ .quarantine ∧ p.ptype = ptNote ∧ skind p = 0 ∧ pktCrc p = p.crc) →
      (fnExists s.dev f = true ∧ getFn s.dev f = x ∧ x.inFlr = false ∧ p.rh.domain = x.domain ∧ portDrained s.dev f.port = false) →
      (police x.polIn (pktLen p + overhead s.dev) = (true, b) ∧ (pktRecorded s.dev p && inkHolds s.dev) = false) →
      (getMctx d1 (pktMctx p) = some m ∧ m.fn = f ∧ m.st = .active ∧ slotGrafting d1 (mctxSlot (pktMctx p)) = false) →
        exec (.notePacket p) s = .next (s.after ((matchNote p m d1))))

/-- An ACK, NAK or RNR_NAK not stale moves UNA and is reacted to; a stale one does nothing; ACCESS_NAK fails an operation; ATOMIC_RESP is written to the
result buffer; CONN_RESET, FUNC_RESET and DEST_DOWN fail the connection with their statuses. The whole next state is given: every register, queue,
buffer, counter and flag it does not set is as before, but for what follows a command at once (State.after), of which SettlingKeepsControlState says
what it leaves alone. The rules followed: R126, R138, R139, R144, R145, R146, R147, R160, R265. What is the model's choice in it: log entries 22, 54,
55, 56, 59, 141, 153, 154. -/
def Obligations.TransportMessagesComplete : Prop :=
  (∀ (m : Nib) (c : Conn) (s : State),
      let n := m.conn.toNat
      let d := nibTaken m s.dev
      nibReaches ntAck m c s →
        exec (.ack m) s = .next (s.after ((if ackInRange c m.psn then goOn n (ackTo n c m.psn m.value d) else d)))) ∧
  (∀ (m : Nib) (c : Conn) (s : State),
      let n := m.conn.toNat
      let d := nibTaken m s.dev
      nibReaches ntNak m c s →
        exec (.nak m) s = .next (s.after ((if ackInRange c m.psn then loss n (ackTo n c m.psn m.value d) else d)))) ∧
  (∀ (m : Nib) (c : Conn) (s : State),
      let n := m.conn.toNat
      let d := nibTaken m s.dev
      nibReaches ntRnrNak m c s →
        exec (.rnrNak m) s = .next (s.after ((if ackInRange c m.psn then backOff n m.info.toNat (ackTo n c m.psn m.value d) else d)))) ∧
  (∀ (m : Nib) (c : Conn) (o : Op) (s : State),
      let n := m.conn.toNat
      let d := nibTaken m s.dev
      let sent := (voidRange o m.psn).filter fun q => decide ((c.next - q).toNat < 2 ^ 23 ∧ q ≠ c.next)
      nibReaches ntAccessNak m c s →
      opOf c m.psn = some o →
        exec (.accessNak m) s = .next (s.after ((goOn n (setConn n { updOp o.msn (fun o => { o with fail := some (o.fail.getD .remoteAccess), voidFrom := some (min (opIndex o m.psn) (o.voidFrom.getD (opIndex o m.psn))) }) c with resendQ := sent ++ c.resendQ.filter fun q => !sent.contains q } d))))) ∧
  (∀ (m : Nib) (c : Conn) (o : Op) (r : Region) (s : State),
      let a : Access :=
        { fn := c.fn, key := o.desc.localKey, va := o.desc.localVa, len := 8, right := .localWrite, sq := o.sq
          conn := m.conn.toNat, cont := .atomResult m.conn.toNat o.msn m.value }
      let n := m.conn.toNat
      let d := nibTaken m s.dev
      nibReaches ntAtomicResp m c s →
      (c.ops.find? (fun o => o.kind = .atomic && o.psn0 == m.psn && !o.resp && !o.written && o.npk != 0) = some o) →
      checkRegion d c.fn o.desc.localKey o.desc.localVa 8 .localWrite = .ok r →
        exec (.atomicResp m) s = .next (s.after ((askChecked a r (setConn n { c with retries := 0 } d))))) ∧
  (∀ (m : Nib) (c : Conn) (s : State),
      let n := m.conn.toNat
      let d := nibTaken m s.dev
      nibReaches ntConnReset m c s →
        exec (.connReset m) s = .next (s.after ((failConn n .connError .connError .connError false d)))) ∧
  (∀ (m : Nib) (c : Conn) (s : State),
      let n := m.conn.toNat
      let d := nibTaken m s.dev
      nibReaches ntFuncReset m c s →
        exec (.funcReset m) s = .next (s.after ((failConn n .remoteFuncReset .remoteFuncReset .remoteFuncReset false d)))) ∧
  (∀ (m : Nib) (c : Conn) (s : State),
      let n := m.conn.toNat
      let d := nibTaken m s.dev
      nibReaches ntDestDown m c s →
        exec (.destDown m) s = .next (s.after ((failConn n .destDown .destDown .destDown false d))))

/-- A contribution or result within its credit is taken in, one beyond it is discarded; credits release what waited; acknowledgement, done and abort act
on the operation; TREE_TIMEOUT ends it with that status. The whole next state is given: every register, queue, buffer, counter and flag it does not
set is as before, but for what follows a command at once (State.after), of which SettlingKeepsControlState says what it leaves alone. The rules
followed: R177, R212, R213, R214, R215, R227, R228. What is the model's choice in it: log entries 66, 71, 72, 73, 144, 157, 158, 159. -/
def Obligations.TreePacketsComplete : Prop :=
  (∀ (port : Fin 64) (p : TreePkt) (t : TreeWords) (s : State),
      let n := p.tree.toNat
      let d := treeArrived p s.dev
      let credit := (match (getNode d n).op with | some o => max t.depth o.credited | none => t.depth)
      let e : Contrib := { child := port.val, chunk := p.chunk.toNat, null := p.null, flags := p.flags &&& 0x1F, epoch := p.rh.epoch, data := p.payload }
      treeReaches ptTreeUp port p t s →
        exec (.treeUp port p) s = .next (s.after ((if (!p.null || p.chunk ≠ 0xFFFFFFFF) && decide (credit ≤ p.chunk.toNat) then treeDiscard port.val p d else takeContrib n t (pktHdr p) e d)))) ∧
  (∀ (port : Fin 64) (p : TreePkt) (t : TreeWords) (s : State),
      let n := p.tree.toNat
      let d := treeArrived p s.dev
      let credit := (match (getNode d n).op with | some o => max t.depth o.downCredited | none => t.depth)
      let e : Contrib := { chunk := p.chunk.toNat, flags := p.flags &&& 0x1F, epoch := p.rh.epoch, data := p.payload }
      treeReaches ptTreeDown port p t s →
        exec (.treeDown port p) s = .next (s.after ((if credit ≤ p.chunk.toNat then treeDiscard port.val p d else withOp p (fun o d => downProgress n t (giveDown n t (o.hdr.getD (pktHdr p)) e d)) d)))) ∧
  (∀ (port : Fin 64) (p : TreePkt) (t : TreeWords) (s : State),
      let n := p.tree.toNat
      let d := treeArrived p s.dev
      treeReaches ptUpCredit port p t s →
        exec (.upCredit port p) s = .next (s.after ((withOp p (fun o d => o.upHeld.foldl (fun d c => passUp n t (o.hdr.getD (pktHdr p)) c d)
          (updOpn n (fun o => { o with upLimit := max o.upLimit p.chunk.toNat, upHeld := [] }) d)) d)))) ∧
  (∀ (port : Fin 64) (p : TreePkt) (t : TreeWords) (s : State),
      let n := p.tree.toNat
      let d := treeArrived p s.dev
      treeReaches ptDownCredit port p t s →
        exec (.downCredit port p) s = .next (s.after ((withOp p (fun o d => downProgress n t ((o.downHeld.filter fun x => x.1 == port.val).foldl (fun d x => sendDownTo n t x.2 port.val d)
          (updOpn n (fun o => { o with downLimits := tput o.downLimits port.val (max ((tget o.downLimits port.val).getD 0) p.chunk.toNat)
                                       downHeld := o.downHeld.filter fun x => x.1 != port.val }) d))) d)))) ∧
  (∀ (port : Fin 64) (p : TreePkt) (t : TreeWords) (s : State),
      let n := p.tree.toNat
      let d := treeArrived p s.dev
      treeReaches ptTreeAck port p t s →
        exec (.treeAck port p) s = .next (s.after ((withOp p (fun _ d => downProgress n t (updOpn n (fun o => { o with acked := if o.acked.contains port.val then o.acked else o.acked ++ [port.val] }) d)) d)))) ∧
  (∀ (port : Fin 64) (p : TreePkt) (t : TreeWords) (s : State),
      let n := p.tree.toNat
      let d := treeArrived p s.dev
      treeReaches ptTreeDone port p t s →
        exec (.treeDone port p) s = .next (s.after ((withOp p (fun _ d => endDone n t d) d)))) ∧
  (∀ (port : Fin 64) (p : TreePkt) (t : TreeWords) (s : State),
      let n := p.tree.toNat
      let d := treeArrived p s.dev
      treeReaches ptTreeAbort port p t s →
        exec (.treeAbort port p) s = .next (s.after ((if (getNode d n).opn = p.opn.toNat then endOpBy [(t, p.rh.epoch)] n (abortStatus p) p.mismatch port.val d
          else if opnBehind (getNode d n).opn p.opn.toNat then d else endOpBy [(t, p.rh.epoch)] n .treeFault true 64 d)))) ∧
  (∀ (tree : BitVec 14) (s : State),
      listens s →
      (getNode s.dev tree.toNat).op.isSome = true →
        exec (.treeTimeout tree) s = .next (s.after ((endOp tree.toNat .treeTimeout false 64 s.dev)))) ∧
  (∀ (id : Nat) (r : MsgRec) (s : State),
      listens s →
      (getMsg s.dev id = some r ∧ r.issued ≠ 0) →
        exec (.stagedCopyDone id) s = .next (s.after ((settleMsg id (updMsg id (fun r => { r with copying := r.copying - r.issued, issued := 0 }) s.dev)))))

/-- An error of a known, unmasked source acts on its object, then its capture register drives the report; a finished graft puts the spare in the slot; a
permitted clear clears all but what a clear leaves; a forced report is driven, a broken pair is illegal for two ticks; stored-word and stack errors
act as their class says. The whole next state is given: every register, queue, buffer, counter and flag it does not set is as before, but for what
follows a command at once (State.after), of which SettlingKeepsControlState says what it leaves alone. The rules followed: R190, R364, R412, R413,
R416, R419, R420, R422, R425, R432. What is the model's choice in it: log entries 3, 10, 12, 56, 95, 107, 108, 109, 143. -/
def Obligations.FaultCommandsComplete : Prop :=
  (∀ (y : FltIn) (k : FClass) (s : State),
      listens s →
      causeClass y.src.val y.cause.toNat y.detail.toNat = some k →
      (knownSource s.dev y.src.val = true ∧ (getRec s.dev y.src.val).masked = false) →
        exec (.faultReport y) s = .next (s.after (((recordOn y.src.val y.cause.toNat).foldl (fun d q => report q k y.cause.toNat y.detail y.object y.n d) (faultEffect y.src.val y.cause.toNat y.detail.toNat y.object.toNat (tellHost y.src.val y.cause.toNat y.detail y.object s.dev)))))) ∧
  (∀ (src : Fin 512) (k : FClass) (s : State),
      listens s →
      causeClass src.val caStall 0 = some k →
      (knownSource s.dev src.val = true ∧ (getRec s.dev src.val).masked = false) →
        exec (.handshakeStall src) s = .next (s.after (((recordOn src.val caStall).foldl (fun d q => report q k caStall 0 0 1 d) (faultEffect src.val caStall 0 0 s.dev))))) ∧
  (∀ (slot : Fin 32) (a k sp : Nat) (s : State),
      let d : Dev := { s.dev with eng := { s.dev.eng with slotMpe := tput s.dev.eng.slotMpe slot.val sp, grafting := s.dev.eng.grafting.filter fun g => g.1 != slot.val } }
      listens s →
      (s.dev.eng.grafting.find? (fun g => g.1 == slot.val) = some (a, k, sp)) →
        exec (.graftDone slot) s = .next (s.after ((postEngine .engineGrafted k sp slot.val ((d.xpt.conns.map (·.1)).foldl (fun d n => goOn n (if engineUp d n then afterExec n false d else d)) (releaseHeld slot.val (reissueAtomics slot.val d))))))) ∧
  (∀ (s : State),
      listens s →
        exec .notifyHoldoffEnd s = .next (s.now ((sendNotify { s.dev with svc := { s.dev.svc with notifyHold := false } })))) ∧
  (∀ (src : Fin 512) (s : State),
      let d := reportError srcReportPath .contained caReportPath 0 (BitVec.ofNat 24 src.val) 1 s.dev
      listens s →
      (knownSource s.dev src.val = true ∧ (getRec s.dev src.val).masked = false) →
        exec (.reportPathFailure src) s = .next (s.after ((setRec src.val { getRec d src.val with masked := true, cap := none, capCorr := 0, broken := 0 } d)))) ∧
  (∀ (m : Master) (src : Fin 512) (s : State),
      let r := getRec s.dev src.val
      atOnce m s →
      listens s →
      (mayWrite s.dev m = true ∧ knownSource s.dev src.val = true) →
      (¬(s.dev.mode = .quarantine ∧ r.valid = true ∧ r.cls = .fatal)) →
        exec (.faultRecordClear m src) s = .next (s.now ((setRec src.val { corr := r.corr, masked := r.masked, fclass := r.fclass, cap := r.cap, capCorr := r.capCorr, broken := r.broken } s.dev)))) ∧
  (∀ (m : Master) (src : Fin 512) (s : State),
      atOnce m s →
      listens s →
      (mayWrite s.dev m = true ∧ knownSource s.dev src.val = true) →
        exec (.corrClr m src) s = .next (s.now ((setRec src.val { getRec s.dev src.val with corr := 0 } s.dev)))) ∧
  (∀ (m : Master) (src : Fin 512) (fc : Fin 4) (s : State),
      let d := putFclass src.val fc.val s.dev
      let v := takeFree d
      let k : FClass := if fc.val = 1 then .corrected else if fc.val = 3 then .fatal else .contained
      atOnce m s →
      listens s →
      (mayWrite s.dev m = true ∧ knownSource s.dev src.val = true ∧ fencedBlk s.dev 2 = false) →
      bit (fltCtl s.dev) 0 = true →
      (fc.val ≠ 3 ∨ bit (fltCtl s.dev) 1 = true) →
        exec (.fltForce m src fc) s = .next (s.after ((report src.val k caForced (v.1.setWidth 8) ((v.1 >>> 8).setWidth 24) 1 v.2)))) ∧
  (∀ (m : Master) (src : Fin 512) (s : State),
      atOnce m s →
      listens s →
      (mayWrite s.dev m = true ∧ fencedBlk s.dev 2 = false ∧ bit (fltCtl s.dev) 0 = true) →
      (knownSource s.dev src.val = true ∧ (getRec s.dev src.val).masked = false) →
        exec (.fltBreak m src) s = .next (s.after ((setRec src.val { getRec s.dev src.val with broken := 2 } s.dev)))) ∧
  (∀ (src : Fin 512) (detail : Byte) (object : BitVec 24) (c : FClass) (s : State),
      listens s →
      eccClass src.val detail.toNat = some c →
        exec (.eccUncorrectable src detail object) s = .next (s.after ((report src.val c caEccUncorr detail object 1 (eccEffect src.val detail.toNat object.toNat s.dev))))) ∧
  (∀ (src : Fin 512) (s : State),
      listens s →
      hasEccCorr src.val = true →
        exec (.eccCorrected src) s = .next (s.now ((reportCorrected src.val 1 s.dev)))) ∧
  (∀ (n : Fin 2) (s : State),
      let t : Therm := if n.val = 0 then { s.dev.therm with hbm0 := { s.dev.therm.hbm0 with failed := true } } else { s.dev.therm with hbm1 := { s.dev.therm.hbm1 with failed := true } }
      listens s →
        exec (.hbmStackFailure n) s = .next (s.after ((report (srcHbm n.val) .fatal caHbmStack 0 0 1 { s.dev with therm := t }))))

/-- A retransmission timeout that runs is a loss; a wait that ends resends; an acknowledgement that is due is sent; a fetched context is loaded and its
waiting packets delivered; the packets that waited for a write-out are refused. The whole next state is given: every register, queue, buffer, counter
and flag it does not set is as before, but for what follows a command at once (State.after), of which SettlingKeepsControlState says what it leaves
alone. The rules followed: R137, R139, R140, R141, R144, R153, R154. What is the model's choice in it: log entries 55, 56, 67, 141, 142, 153. -/
def Obligations.TransportTimersAndContextsComplete : Prop :=
  (∀ (n : Psn) (c : Conn) (s : State),
      listens s →
      (getConn s.dev n.toNat = some c ∧ timerRuns c = true ∧ timerActs s.dev n.toNat = true) →
        exec (.retransmitTimeout n) s = .next (s.after ((loss n.toNat (useCtx n.toNat s.dev))))) ∧
  (∀ (n : Psn) (c : Conn) (s : State),
      listens s →
      (getConn s.dev n.toNat = some c ∧ c.rnrWait.isSome = true ∧ timerActs s.dev n.toNat = true) →
        exec (.rnrWaitEnd n) s = .next (s.after ((resend n.toNat (useCtx n.toNat (setConn n.toNat { c with rnrWait := none } s.dev)))))) ∧
  (∀ (n : Psn) (c : Conn) (s : State),
      listens s →
      (getConn s.dev n.toNat = some c ∧ c.ackDue = true ∧ c.st ≠ .error ∧ timerActs s.dev n.toNat = true) →
        exec (.ackTimer n) s = .next (s.after ((sendAck n.toNat (useCtx n.toNat s.dev))))) ∧
  (∀ (n : Psn) (s : State),
      let k := n.toNat
      let r := takeMiss k { s.dev with xpt := { s.dev.xpt with fetching := s.dev.xpt.fetching.filter (· != k) } }
      let handle := (fun (d : Dev) (p : Packet) => match getConn d k with | some c => if c.st = .error then d else deliverConn k c p d | none => d)
      listens s →
      (s.dev.xpt.fetching.contains n.toNat = true ∧ ctxReady s.dev n.toNat = true) →
        exec (.contextFetchDone n) s = .next (s.after ((r.1.foldl handle (loadCtx k r.2))))) ∧
  (∀ (n : Psn) (k : Nat) (v : Bool) (s : State),
      let d := refuseMiss n.toNat (writeReason v) { s.dev with xpt := { s.dev.xpt with writing := s.dev.xpt.writing.filter fun w => w.1 != n.toNat } }
      listens s →
      (s.dev.xpt.writing.find? (fun w => w.1 == n.toNat) = some (k, v)) →
        exec (.contextWriteoutDone n) s = .next (s.after ((if v then updConn n.toNat (fun c => if c.st = .active then { c with st := .parked } else c) d else d)))) ∧
  (∀ (n : Psn) (k : Nat) (v : Bool) (s : State),
      listens s →
      (s.dev.xpt.writing.find? (fun w => w.1 == n.toNat) = some (k, v)) →
        exec (.missWaitTimeout n) s = .next (s.after ((refuseMiss n.toNat (writeReason v) s.dev))))

/-- ROUTE_PACKET of an item the routing queue does not hold, which is a data packet or a routed Nib message: its bank not armed or no coordinate held,
BAD_EPOCH counts; else its age at 250 or more, AGE counts; else its coordinate the device's own, it goes to the host tiles; else at its ninth link,
HOP counts; else no port to choose, NOROUTE counts; else it joins the chosen port's queue with its DETOUR bit. One the queue holds is taken out of it
and goes the same way. PACKET_AGE_EXPIRY and NIB_STALL_DISCARD discard, free the ingress buffer and count. A permitted RT_HP_DRAIN_WRITE stores the
word and drains the ports set; DRAIN_LIMIT_EXPIRY of a drained port ends what each function of it still has outstanding, as limitFn does, and of one
not drained does nothing. The whole next state is given: every register, queue, buffer, counter and flag it does not set is as before, but for what
follows a command at once (State.after), of which SettlingKeepsControlState says what it leaves alone. The rules followed: R245, R248, R251, R265.
What is the model's choice in it: log entries 75, 76, 77, 79. -/
def Obligations.RoutingCommandsComplete : Prop :=
  (∀ (ing : Fin 65) (it : Item) (resid : Nat) (s : State),
      let t := takeRoute ing.val it s.dev
      listens s →
        exec (.routePacket ing it resid) s = .next (s.after ((routeItem (t.1.getD { item := it, ingress := ing.val, since := s.dev.clk.now - resid }) t.2)))) ∧
  (∀ (ing : Fin 65) (it : Item) (resid : Nat) (r : RouteIn) (s : State),
      listens s →
      ((s.dev.rt.routeQ.find? fun q => q.item == it && q.ingress == ing.val) = none ∧ routeIn ing.val it = some r) →
      (bankState s.dev r.epoch ≠ .armed ∨ coordValid s.dev = false) →
        exec (.routePacket ing it resid) s = .next (s.after (({ s.dev with rt := { s.dev.rt with badEpoch := s.dev.rt.badEpoch.add 1 } })))) ∧
  (∀ (ing : Fin 65) (it : Item) (resid : Nat) (r : RouteIn) (s : State),
      let y : QItem := { item := it, ingress := ing.val, since := s.dev.clk.now - resid }
      listens s →
      ((s.dev.rt.routeQ.find? fun q => q.item == it && q.ingress == ing.val) = none ∧ routeIn ing.val it = some r) →
      (bankState s.dev r.epoch = .armed ∧ coordValid s.dev = true) →
      250 ≤ ageNow (itemAge it) y.since s.dev.clk.now →
        exec (.routePacket ing it resid) s = .next (s.after (({ s.dev with rt := { s.dev.rt with aged := s.dev.rt.aged.add 1 } })))) ∧
  (∀ (ing : Fin 65) (it : Item) (resid : Nat) (r : RouteIn) (s : State),
      let y : QItem := { item := it, ingress := ing.val, since := s.dev.clk.now - resid }
      listens s →
      ((s.dev.rt.routeQ.find? fun q => q.item == it && q.ingress == ing.val) = none ∧ routeIn ing.val it = some r) →
      (bankState s.dev r.epoch = .armed ∧ coordValid s.dev = true) →
      ageNow (itemAge it) y.since s.dev.clk.now < 250 →
      r.dest = coord s.dev →
        exec (.routePacket ing it resid) s = .next (s.after ((tallyTx ing.val it { s.dev with rt := { s.dev.rt with localQ := s.dev.rt.localQ ++ [it] } })))) ∧
  (∀ (ing : Fin 65) (it : Item) (resid : Nat) (r : RouteIn) (s : State),
      let y : QItem := { item := it, ingress := ing.val, since := s.dev.clk.now - resid }
      listens s →
      ((s.dev.rt.routeQ.find? fun q => q.item == it && q.ingress == ing.val) = none ∧ routeIn ing.val it = some r) →
      (bankState s.dev r.epoch = .armed ∧ coordValid s.dev = true) →
      ageNow (itemAge it) y.since s.dev.clk.now < 250 →
      (r.dest ≠ coord s.dev ∧ r.t = 8) →
        exec (.routePacket ing it resid) s = .next (s.after (({ s.dev with rt := { s.dev.rt with hop := s.dev.rt.hop.add 1 } })))) ∧
  (∀ (ing : Fin 65) (it : Item) (resid : Nat) (r : RouteIn) (s : State),
      let y : QItem := { item := it, ingress := ing.val, since := s.dev.clk.now - resid }
      listens s →
      ((s.dev.rt.routeQ.find? fun q => q.item == it && q.ingress == ing.val) = none ∧ routeIn ing.val it = some r) →
      (bankState s.dev r.epoch = .armed ∧ coordValid s.dev = true) →
      ageNow (itemAge it) y.since s.dev.clk.now < 250 →
      (r.dest ≠ coord s.dev ∧ r.t ≠ 8 ∧ routeChoice s.dev ing.val r = .noRoute) →
        exec (.routePacket ing it resid) s = .next (s.after (({ s.dev with rt := { s.dev.rt with noroute := s.dev.rt.noroute.add 1 } })))) ∧
  (∀ (ing : Fin 65) (it : Item) (resid : Nat) (r : RouteIn) (p : Nat) (dim : Option Nat) (s : State),
      let y : QItem := { item := it, ingress := ing.val, since := s.dev.clk.now - resid }
      let d := queuePort p { y with dims := match dim with | some k => 2 ^ k | none => 0 } (tallyTx ing.val it s.dev)
      listens s →
      ((s.dev.rt.routeQ.find? fun q => q.item == it && q.ingress == ing.val) = none ∧ routeIn ing.val it = some r) →
      (bankState s.dev r.epoch = .armed ∧ coordValid s.dev = true) →
      ageNow (itemAge it) y.since s.dev.clk.now < 250 →
      (r.dest ≠ coord s.dev ∧ r.t ≠ 8 ∧ routeChoice s.dev ing.val r = .port p dim) →
        exec (.routePacket ing it resid) s = .next (s.after (({ d with rt := { d.rt with leastQ := tput d.rt.leastQ ing.val p } })))) ∧
  (∀ (ing : Fin 65) (it : Item) (resid : Nat) (q : QItem) (s : State),
      listens s →
      ((s.dev.rt.routeQ.find? fun q => q.item == it && q.ingress == ing.val) = some q) →
        exec (.routePacket ing it resid) s = .next (s.after ((routeItem q { s.dev with rt := { s.dev.rt with routeQ := s.dev.rt.routeQ.erase q } })))) ∧
  (∀ (it : Item) (d : Dev) (s : State),
      listens s →
      dropWaiting it s.dev = some d →
        exec (.packetAgeExpiry it) s = .next (s.now (({ d with rt := { d.rt with aged := d.rt.aged.add 1 } })))) ∧
  (∀ (p : Fin 64) (q : QItem) (s : State),
      let l := (tget s.dev.rt.egress p.val).getD []
      listens s →
      l.find? isNib = some q →
        exec (.nibStallDiscard p) s = .next (s.now ((releaseHold q.ingress q.hold { s.dev with rt := { s.dev.rt with egress := tput s.dev.rt.egress p.val (l.erase q), nibStall := s.dev.rt.nibStall.add 1 } })))) ∧
  (∀ (m : Master) (v : Wr) (s : State),
      let c := mergeWr (regInForce s.dev 0x20060 0) 0xFFFF000F v
      let d := putReg 0x20060 0 c s.dev
      atOnce m s →
      listens s →
      mayWrite s.dev m = true →
        exec (.rtHpDrainWrite m v) s = .next (s.after (({ d with rt := { d.rt with drain := d.rt.drain ||| fld c 0 4 } })))) ∧
  (∀ (p : Fin 4) (s : State),
      listens s →
      portDrained s.dev p = true →
        exec (.drainLimitExpiry p) s = .next (s.after ((((fnKeys s.dev).map fnOfKey).foldl (fun d f => if f.port = p then limitFn f d else d) s.dev)))) ∧
  (∀ (p : Fin 4) (s : State),
      listens s →
      portDrained s.dev p = false →
        exec (.drainLimitExpiry p) s = .next (s.after ((s.dev))))

/-- While block 5 is not fenced, a fabric manager's write of EPOCH_CTL stores DRAIN, then: ARM_A or ARM_B arms its bank if that is IDLE, the coordinate is
held and the arm check passes, else CMD_ERR is 1, or 2 for the check; RETIRE_A or RETIRE_B makes its bank RETIRING, and IDLE at once where nothing is
bound to it, if it is ARMED, not stamped and DRAIN has passed since it last was, else CMD_ERR is 1, or 3 for the drain; each here with STAMP as it
stands; a STAMP of the other, ARMED bank moves the stamp and its time, of one not ARMED sets CMD_ERR 1, and of the same bank nothing. An access
through TBL_WIN_ADDR stores the address and leaves the entry read in the data registers, or stores the entry written and gives STATUS 0; STATUS 4
where the table or index is none, 1 where the bank's state refuses the write, 2 where the content does, 1 for FORCE on a RETIRING bank. A write of
RT_COORD with both banks IDLE stores it, and one that changes it sends HELLO everywhere; with a bank not IDLE it is ignored. The whole next state is
given: every register, queue, buffer, counter and flag it does not set is as before, but for what follows a command at once (State.after), of which
SettlingKeepsControlState says what it leaves alone. The rules followed: R240, R257, R259, R260, R271. What is the model's choice in it: log entries
70, 78, 80, 136. -/
def Obligations.EpochAndTableCommandsComplete : Prop :=
  (∀ (m : Master) (v : Wr) (s : State),
      let d := putReg 0x20000 0 (mergeWr (regInForce s.dev 0x20000 0) (ins 32 0xFFFF) v) s.dev
      atOnce m s →
      listens s →
      (isFab m = true ∧ bit (wrBits v).2 0 = true ∧ fld (wrBits v).1 8 4 = 1 ∧ fencedBlk s.dev 5 = false) →
      bit (wrBits v).1 0 = s.dev.rt.stamp →
      (s.dev.rt.bankA = .idle ∧ coordValid d = true ∧ armCheck d false = true) →
        exec (.armA m v) s = .next (s.after (({ d with rt := { d.rt with bankA := .armed, cmdErr := 0 } })))) ∧
  (∀ (m : Master) (v : Wr) (s : State),
      let d := putReg 0x20000 0 (mergeWr (regInForce s.dev 0x20000 0) (ins 32 0xFFFF) v) s.dev
      atOnce m s →
      listens s →
      (isFab m = true ∧ bit (wrBits v).2 0 = true ∧ fld (wrBits v).1 8 4 = 1 ∧ fencedBlk s.dev 5 = false) →
      bit (wrBits v).1 0 = s.dev.rt.stamp →
      (s.dev.rt.bankA ≠ .idle ∨ coordValid d = false) →
        exec (.armA m v) s = .next (s.after (({ d with rt := { d.rt with cmdErr := 1 } })))) ∧
  (∀ (m : Master) (v : Wr) (s : State),
      let d := putReg 0x20000 0 (mergeWr (regInForce s.dev 0x20000 0) (ins 32 0xFFFF) v) s.dev
      atOnce m s →
      listens s →
      (isFab m = true ∧ bit (wrBits v).2 0 = true ∧ fld (wrBits v).1 8 4 = 1 ∧ fencedBlk s.dev 5 = false) →
      bit (wrBits v).1 0 = s.dev.rt.stamp →
      (s.dev.rt.bankA = .idle ∧ coordValid d = true ∧ armCheck d false = false) →
        exec (.armA m v) s = .next (s.after (({ d with rt := { d.rt with cmdErr := 2 } })))) ∧
  (∀ (m : Master) (v : Wr) (s : State),
      let d := putReg 0x20000 0 (mergeWr (regInForce s.dev 0x20000 0) (ins 32 0xFFFF) v) s.dev
      atOnce m s →
      listens s →
      (isFab m = true ∧ bit (wrBits v).2 0 = true ∧ fld (wrBits v).1 8 4 = 2 ∧ fencedBlk s.dev 5 = false) →
      bit (wrBits v).1 0 = s.dev.rt.stamp →
      (s.dev.rt.bankB = .idle ∧ coordValid d = true ∧ armCheck d true = true) →
        exec (.armB m v) s = .next (s.after (({ d with rt := { d.rt with bankB := .armed, cmdErr := 0 } })))) ∧
  (∀ (m : Master) (v : Wr) (s : State),
      let d := putReg 0x20000 0 (mergeWr (regInForce s.dev 0x20000 0) (ins 32 0xFFFF) v) s.dev
      atOnce m s →
      listens s →
      (isFab m = true ∧ bit (wrBits v).2 0 = true ∧ fld (wrBits v).1 8 4 = 2 ∧ fencedBlk s.dev 5 = false) →
      bit (wrBits v).1 0 = s.dev.rt.stamp →
      (s.dev.rt.bankB ≠ .idle ∨ coordValid d = false) →
        exec (.armB m v) s = .next (s.after (({ d with rt := { d.rt with cmdErr := 1 } })))) ∧
  (∀ (m : Master) (v : Wr) (s : State),
      let d := putReg 0x20000 0 (mergeWr (regInForce s.dev 0x20000 0) (ins 32 0xFFFF) v) s.dev
      atOnce m s →
      listens s →
      (isFab m = true ∧ bit (wrBits v).2 0 = true ∧ fld (wrBits v).1 8 4 = 2 ∧ fencedBlk s.dev 5 = false) →
      bit (wrBits v).1 0 = s.dev.rt.stamp →
      (s.dev.rt.bankB = .idle ∧ coordValid d = true ∧ armCheck d true = false) →
        exec (.armB m v) s = .next (s.after (({ d with rt := { d.rt with cmdErr := 2 } })))) ∧
  (∀ (m : Master) (v : Wr) (s : State),
      let d := putReg 0x20000 0 (mergeWr (regInForce s.dev 0x20000 0) (ins 32 0xFFFF) v) s.dev
      atOnce m s →
      listens s →
      (isFab m = true ∧ bit (wrBits v).2 0 = true ∧ fld (wrBits v).1 8 4 = 3 ∧ fencedBlk s.dev 5 = false) →
      bit (wrBits v).1 0 = s.dev.rt.stamp →
      (s.dev.rt.bankA = .armed ∧ s.dev.rt.stamp = true) →
      ((s.dev.rt.last0.any fun t => decide (s.dev.clk.now < t + epochDrain d)) = false) →
        exec (.retireA m v) s = .next (s.after ((let x := retireBanks { d with rt := { d.rt with bankA := .retiring } }; { x with rt := { x.rt with cmdErr := 0 } })))) ∧
  (∀ (m : Master) (v : Wr) (s : State),
      let d := putReg 0x20000 0 (mergeWr (regInForce s.dev 0x20000 0) (ins 32 0xFFFF) v) s.dev
      atOnce m s →
      listens s →
      (isFab m = true ∧ bit (wrBits v).2 0 = true ∧ fld (wrBits v).1 8 4 = 3 ∧ fencedBlk s.dev 5 = false) →
      bit (wrBits v).1 0 = s.dev.rt.stamp →
      (s.dev.rt.bankA ≠ .armed ∨ s.dev.rt.stamp = false) →
        exec (.retireA m v) s = .next (s.after (({ d with rt := { d.rt with cmdErr := 1 } })))) ∧
  (∀ (m : Master) (v : Wr) (t : Nat) (s : State),
      let d := putReg 0x20000 0 (mergeWr (regInForce s.dev 0x20000 0) (ins 32 0xFFFF) v) s.dev
      atOnce m s →
      listens s →
      (isFab m = true ∧ bit (wrBits v).2 0 = true ∧ fld (wrBits v).1 8 4 = 3 ∧ fencedBlk s.dev 5 = false) →
      bit (wrBits v).1 0 = s.dev.rt.stamp →
      (s.dev.rt.bankA = .armed ∧ s.dev.rt.stamp = true) →
      (s.dev.rt.last0 = some t ∧ s.dev.clk.now < t + epochDrain d) →
        exec (.retireA m v) s = .next (s.after (({ d with rt := { d.rt with cmdErr := 3 } })))) ∧
  (∀ (m : Master) (v : Wr) (s : State),
      let d := putReg 0x20000 0 (mergeWr (regInForce s.dev 0x20000 0) (ins 32 0xFFFF) v) s.dev
      atOnce m s →
      listens s →
      (isFab m = true ∧ bit (wrBits v).2 0 = true ∧ fld (wrBits v).1 8 4 = 4 ∧ fencedBlk s.dev 5 = false) →
      bit (wrBits v).1 0 = s.dev.rt.stamp →
      (s.dev.rt.bankB = .armed ∧ s.dev.rt.stamp = false) →
      ((s.dev.rt.last1.any fun t => decide (s.dev.clk.now < t + epochDrain d)) = false) →
        exec (.retireB m v) s = .next (s.after ((let x := retireBanks { d with rt := { d.rt with bankB := .retiring } }; { x with rt := { x.rt with cmdErr := 0 } })))) ∧
  (∀ (m : Master) (v : Wr) (s : State),
      let d := putReg 0x20000 0 (mergeWr (regInForce s.dev 0x20000 0) (ins 32 0xFFFF) v) s.dev
      atOnce m s →
      listens s →
      (isFab m = true ∧ bit (wrBits v).2 0 = true ∧ fld (wrBits v).1 8 4 = 4 ∧ fencedBlk s.dev 5 = false) →
      bit (wrBits v).1 0 = s.dev.rt.stamp →
      (s.dev.rt.bankB ≠ .armed ∨ s.dev.rt.stamp = true) →
        exec (.retireB m v) s = .next (s.after (({ d with rt := { d.rt with cmdErr := 1 } })))) ∧
  (∀ (m : Master) (v : Wr) (t : Nat) (s : State),
      let d := putReg 0x20000 0 (mergeWr (regInForce s.dev 0x20000 0) (ins 32 0xFFFF) v) s.dev
      atOnce m s →
      listens s →
      (isFab m = true ∧ bit (wrBits v).2 0 = true ∧ fld (wrBits v).1 8 4 = 4 ∧ fencedBlk s.dev 5 = false) →
      bit (wrBits v).1 0 = s.dev.rt.stamp →
      (s.dev.rt.bankB = .armed ∧ s.dev.rt.stamp = false) →
      (s.dev.rt.last1 = some t ∧ s.dev.clk.now < t + epochDrain d) →
        exec (.retireB m v) s = .next (s.after (({ d with rt := { d.rt with cmdErr := 3 } })))) ∧
  (∀ (m : Master) (v : Wr) (s : State),
      let d := putReg 0x20000 0 (mergeWr (regInForce s.dev 0x20000 0) (ins 32 0xFFFF) v) s.dev
      let e := bit (wrBits v).1 0
      let x := noteWrite d
      atOnce m s →
      listens s →
      (isFab m = true ∧ bit (wrBits v).2 0 = true ∧ fld (wrBits v).1 8 4 = 0 ∧ fencedBlk s.dev 5 = false) →
      (e ≠ s.dev.rt.stamp ∧ bankState s.dev e = .armed) →
        exec (.stampWrite m v) s = .next (s.after (({ x with rt := { x.rt with
      stamp := e, stampTime := BitVec.ofNat 32 (fld s.dev.clk.tsc 10 32)
      last0 := if e then some s.dev.clk.now else s.dev.rt.last0
      last1 := if e then s.dev.rt.last1 else some s.dev.clk.now } })))) ∧
  (∀ (m : Master) (v : Wr) (s : State),
      let d := putReg 0x20000 0 (mergeWr (regInForce s.dev 0x20000 0) (ins 32 0xFFFF) v) s.dev
      let e := bit (wrBits v).1 0
      atOnce m s →
      listens s →
      (isFab m = true ∧ bit (wrBits v).2 0 = true ∧ fld (wrBits v).1 8 4 = 0 ∧ fencedBlk s.dev 5 = false) →
      (e ≠ s.dev.rt.stamp ∧ bankState s.dev e ≠ .armed) →
        exec (.stampWrite m v) s = .next (s.after (({ d with rt := { d.rt with cmdErr := 1 } })))) ∧
  (∀ (m : Master) (v : Wr) (s : State),
      let d := putReg 0x20000 0 (mergeWr (regInForce s.dev 0x20000 0) (ins 32 0xFFFF) v) s.dev
      atOnce m s →
      listens s →
      (isFab m = true ∧ bit (wrBits v).2 0 = true ∧ fld (wrBits v).1 8 4 = 0 ∧ fencedBlk s.dev 5 = false) →
      bit (wrBits v).1 0 = s.dev.rt.stamp →
        exec (.stampWrite m v) s = .next (s.after (d))) ∧
  (∀ (m : Master) (v : Wr) (s : State),
      let a := mergeWr (regInForce s.dev 0x20010 0) 0x3FFFFF v
      let d := putReg 0x20010 0 a s.dev
      atOnce m s →
      listens s →
      (isFab m = true ∧ bit (wrBits v).2 0 = true ∧ bit (wrBits v).1 20 = false ∧ fencedBlk d 5 = false) →
      (fld a 16 3 = 0 ∧ fld a 0 16 < 64 ∧ bit a 20 = false) →
        exec (.tableRead m v) s = .next (s.after ((tblStatus 0 (setTblData [pmEntry d (bit a 19) (fld a 0 16 / 16) (fld a 0 16 % 16)] d))))) ∧
  (∀ (m : Master) (v : Wr) (s : State),
      let a := mergeWr (regInForce s.dev 0x20010 0) 0x3FFFFF v
      let d := putReg 0x20010 0 a s.dev
      atOnce m s →
      listens s →
      (isFab m = true ∧ bit (wrBits v).2 0 = true ∧ bit (wrBits v).1 20 = false ∧ fencedBlk d 5 = false) →
      (fld a 16 3 = 1 ∧ bit a 20 = false) →
        exec (.tableRead m v) s = .next (s.after ((tblStatus 0 (setTblData [(exEntry d (bit a 19) (fld a 0 16)).1, (exEntry d (bit a 19) (fld a 0 16)).2] d))))) ∧
  (∀ (m : Master) (v : Wr) (s : State),
      let a := mergeWr (regInForce s.dev 0x20010 0) 0x3FFFFF v
      let d := putReg 0x20010 0 a s.dev
      let t := treeEntry d (bit a 19) (fld a 0 16)
      atOnce m s →
      listens s →
      (isFab m = true ∧ bit (wrBits v).2 0 = true ∧ bit (wrBits v).1 20 = false ∧ fencedBlk d 5 = false) →
      (fld a 16 3 = 2 ∧ fld a 0 16 < 16384 ∧ bit a 20 = false) →
        exec (.tableRead m v) s = .next (s.after ((tblStatus 0 (setTblData [t.w0, t.w1, t.w2, t.w3] d))))) ∧
  (∀ (m : Master) (v : Wr) (s : State),
      let a := mergeWr (regInForce s.dev 0x20010 0) 0x3FFFFF v
      let d := putReg 0x20010 0 a s.dev
      atOnce m s →
      listens s →
      (isFab m = true ∧ bit (wrBits v).2 0 = true ∧ bit (wrBits v).1 20 = false ∧ fencedBlk d 5 = false) →
      (fld a 16 3 = 3 ∧ fld a 0 16 < 4096 ∧ bit a 20 = false) →
        exec (.tableRead m v) s = .next (s.after ((tblStatus 0 (setTblData [(tget d.rt.reach (fld a 0 16)).getD 0] d))))) ∧
  (∀ (m : Master) (v : Wr) (s : State),
      let a := mergeWr (regInForce s.dev 0x20010 0) 0x3FFFFF v
      let d := putReg 0x20010 0 a s.dev
      atOnce m s →
      listens s →
      (isFab m = true ∧ bit (wrBits v).2 0 = true ∧ bit (wrBits v).1 20 = false ∧ fencedBlk d 5 = false) →
      (tblSize (fld a 16 3) ≤ fld a 0 16 ∧ bit a 20 = false) →
        exec (.tableRead m v) s = .next (s.after ((tblStatus 4 (d))))) ∧
  (∀ (m : Master) (v : Wr) (s : State),
      let a := mergeWr (regInForce s.dev 0x20010 0) 0x3FFFFF v
      let d := putReg 0x20010 0 a s.dev
      atOnce m s →
      listens s →
      (isFab m = true ∧ bit (wrBits v).2 0 = true ∧ bit (wrBits v).1 20 = true ∧ bit (wrBits v).1 21 = false ∧ fencedBlk d 5 = false) →
      (tblSize (fld a 16 3) ≤ fld a 0 16 ∧ bit a 20 = true) →
        exec (.tableWrite m v) s = .next (s.after ((tblStatus 4 (d))))) ∧
  (∀ (m : Master) (v : Wr) (s : State),
      let a := mergeWr (regInForce s.dev 0x20010 0) 0x3FFFFF v
      let d := putReg 0x20010 0 a s.dev
      atOnce m s →
      listens s →
      (isFab m = true ∧ bit (wrBits v).2 0 = true ∧ bit (wrBits v).1 20 = true ∧ bit (wrBits v).1 21 = false ∧ fencedBlk d 5 = false) →
      (fld a 16 3 = 3 ∧ fld a 0 16 < 4096 ∧ bit a 20 = true) →
        exec (.tableWrite m v) s = .next (s.after ((tblStatus 0 ({ d with rt := { d.rt with reach := tput d.rt.reach (fld a 0 16) (tblData d 0) } }))))) ∧
  (∀ (m : Master) (v : Wr) (s : State),
      let a := mergeWr (regInForce s.dev 0x20010 0) 0x3FFFFF v
      let d := putReg 0x20010 0 a s.dev
      atOnce m s →
      listens s →
      (isFab m = true ∧ bit (wrBits v).2 0 = true ∧ bit (wrBits v).1 20 = true ∧ bit (wrBits v).1 21 = false ∧ fencedBlk d 5 = false) →
      (fld a 16 3 = 0 ∧ fld a 0 16 < 64 ∧ bit a 20 = true ∧ bankState d (bit a 19) = .idle ∧ pmOk (tblData d 0) = true) →
        exec (.tableWrite m v) s = .next (s.after ((tblStatus 0 (if bit a 19 then { d with rt := { d.rt with pmB := tput d.rt.pmB (fld a 0 16) (tblData d 0) } }
      else { d with rt := { d.rt with pmA := tput d.rt.pmA (fld a 0 16) (tblData d 0) } }))))) ∧
  (∀ (m : Master) (v : Wr) (s : State),
      let a := mergeWr (regInForce s.dev 0x20010 0) 0x3FFFFF v
      let d := putReg 0x20010 0 a s.dev
      atOnce m s →
      listens s →
      (isFab m = true ∧ bit (wrBits v).2 0 = true ∧ bit (wrBits v).1 20 = true ∧ bit (wrBits v).1 21 = false ∧ fencedBlk d 5 = false) →
      (fld a 16 3 = 0 ∧ fld a 0 16 < 64 ∧ bit a 20 = true ∧ bankState d (bit a 19) = .idle ∧ pmOk (tblData d 0) = false) →
        exec (.tableWrite m v) s = .next (s.after ((tblStatus 2 (d))))) ∧
  (∀ (m : Master) (v : Wr) (s : State),
      let a := mergeWr (regInForce s.dev 0x20010 0) 0x3FFFFF v
      let d := putReg 0x20010 0 a s.dev
      atOnce m s →
      listens s →
      (isFab m = true ∧ bit (wrBits v).2 0 = true ∧ bit (wrBits v).1 20 = true ∧ bit (wrBits v).1 21 = false ∧ fencedBlk d 5 = false) →
      (fld a 16 3 = 1 ∧ bit a 20 = true ∧ bankState d (bit a 19) = .idle ∧ exOk (tblData d 0) = true) →
        exec (.tableWrite m v) s = .next (s.after ((tblStatus 0 (if bit a 19 then { d with rt := { d.rt with exB := tput d.rt.exB (fld a 0 16) (tblData d 0, tblData d 1) } }
      else { d with rt := { d.rt with exA := tput d.rt.exA (fld a 0 16) (tblData d 0, tblData d 1) } }))))) ∧
  (∀ (m : Master) (v : Wr) (s : State),
      let a := mergeWr (regInForce s.dev 0x20010 0) 0x3FFFFF v
      let d := putReg 0x20010 0 a s.dev
      atOnce m s →
      listens s →
      (isFab m = true ∧ bit (wrBits v).2 0 = true ∧ bit (wrBits v).1 20 = true ∧ bit (wrBits v).1 21 = false ∧ fencedBlk d 5 = false) →
      (fld a 16 3 = 1 ∧ bit a 20 = true ∧ bankState d (bit a 19) = .idle ∧ exOk (tblData d 0) = false) →
        exec (.tableWrite m v) s = .next (s.after ((tblStatus 2 (d))))) ∧
  (∀ (m : Master) (v : Wr) (s : State),
      let a := mergeWr (regInForce s.dev 0x20010 0) 0x3FFFFF v
      let d := putReg 0x20010 0 a s.dev
      let t : TreeWords := { w0 := tblData d 0, w1 := tblData d 1, w2 := tblData d 2, w3 := tblData d 3 }
      atOnce m s →
      listens s →
      (isFab m = true ∧ bit (wrBits v).2 0 = true ∧ bit (wrBits v).1 20 = true ∧ bit (wrBits v).1 21 = false ∧ fencedBlk d 5 = false) →
      (fld a 16 3 = 2 ∧ fld a 0 16 < 16384 ∧ bit a 20 = true) →
      (bankState d (bit a 19) = .idle ∧ treeOk d (bit a 19) (fld a 0 16) t = true ∧ boundTo d (fld a 0 16) (bit a 19) = false) →
        exec (.tableWrite m v) s = .next (s.after ((tblStatus 0 (putTree (bit a 19) (fld a 0 16) t d))))) ∧
  (∀ (m : Master) (v : Wr) (s : State),
      let a := mergeWr (regInForce s.dev 0x20010 0) 0x3FFFFF v
      let d := putReg 0x20010 0 a s.dev
      atOnce m s →
      listens s →
      (isFab m = true ∧ bit (wrBits v).2 0 = true ∧ bit (wrBits v).1 20 = true ∧ bit (wrBits v).1 21 = false ∧ fencedBlk d 5 = false) →
      (fld a 16 3 < 2 ∧ fld a 0 16 < 64 ∧ bit a 20 = true ∧ bit a 21 = false ∧ bankState d (bit a 19) ≠ .idle) →
        exec (.tableWrite m v) s = .next (s.after ((tblStatus 1 (d))))) ∧
  (∀ (m : Master) (v : Wr) (s : State),
      let a := mergeWr (regInForce s.dev 0x20010 0) 0x3FFFFF v
      let d := putReg 0x20010 0 a s.dev
      atOnce m s →
      listens s →
      (isFab m = true ∧ bit (wrBits v).2 0 = true ∧ bit (wrBits v).1 20 = true ∧ bit (wrBits v).1 21 = true ∧ fencedBlk d 5 = false) →
      (fld a 16 3 = 0 ∧ fld a 0 16 < 64 ∧ bit a 20 = true ∧ bit a 21 = true ∧ bankState d (bit a 19) ≠ .retiring ∧ pmOk (tblData d 0) = true) →
        exec (.forcedWrite m v) s = .next (s.after ((tblStatus 0 (if bit a 19 then { d with rt := { d.rt with pmB := tput d.rt.pmB (fld a 0 16) (tblData d 0) } }
      else { d with rt := { d.rt with pmA := tput d.rt.pmA (fld a 0 16) (tblData d 0) } }))))) ∧
  (∀ (m : Master) (v : Wr) (s : State),
      let a := mergeWr (regInForce s.dev 0x20010 0) 0x3FFFFF v
      let d := putReg 0x20010 0 a s.dev
      let t : TreeWords := { w0 := tblData d 0, w1 := tblData d 1, w2 := tblData d 2, w3 := tblData d 3 }
      let x := if boundTo d (fld a 0 16) (bit a 19) then endIfRunning (fld a 0 16) .treeFault d else d
      atOnce m s →
      listens s →
      (isFab m = true ∧ bit (wrBits v).2 0 = true ∧ bit (wrBits v).1 20 = true ∧ bit (wrBits v).1 21 = true ∧ fencedBlk d 5 = false) →
      (fld a 16 3 = 2 ∧ fld a 0 16 < 16384 ∧ bit a 20 = true ∧ bit a 21 = true) →
      (bankState d (bit a 19) = .armed ∧ treeOk d (bit a 19) (fld a 0 16) t = true) →
        exec (.forcedWrite m v) s = .next (s.after ((tblStatus 0 (putTree (bit a 19) (fld a 0 16) t x))))) ∧
  (∀ (m : Master) (v : Wr) (s : State),
      let a := mergeWr (regInForce s.dev 0x20010 0) 0x3FFFFF v
      let d := putReg 0x20010 0 a s.dev
      atOnce m s →
      listens s →
      (isFab m = true ∧ bit (wrBits v).2 0 = true ∧ bit (wrBits v).1 20 = true ∧ bit (wrBits v).1 21 = true ∧ fencedBlk d 5 = false) →
      (fld a 16 3 < 2 ∧ fld a 0 16 < 64 ∧ bit a 20 = true ∧ bit a 21 = true ∧ bankState d (bit a 19) = .retiring) →
        exec (.forcedWrite m v) s = .next (s.after ((tblStatus 1 (d))))) ∧
  (∀ (m : Master) (v : Wr) (s : State),
      let c := mergeWr (rtCoordWord s.dev) 0x1FFFF v
      let d := putReg 0x20040 0 c s.dev
      atOnce m s →
      listens s →
      isFab m = true →
      (s.dev.rt.bankA = .idle ∧ s.dev.rt.bankB = .idle) →
      c ≠ rtCoordWord s.dev →
        exec (.rtCoordWrite m v) s = .next (s.after ((svcHellos s.dev (helloAll d))))) ∧
  (∀ (m : Master) (v : Wr) (s : State),
      let c := mergeWr (rtCoordWord s.dev) 0x1FFFF v
      let d := putReg 0x20040 0 c s.dev
      atOnce m s →
      listens s →
      isFab m = true →
      (s.dev.rt.bankA = .idle ∧ s.dev.rt.bankB = .idle) →
      c = rtCoordWord s.dev →
        exec (.rtCoordWrite m v) s = .next (s.after (d))) ∧
  (∀ (m : Master) (v : Wr) (s : State),
      atOnce m s →
      listens s →
      isFab m = true →
      (s.dev.rt.bankA ≠ .idle ∨ s.dev.rt.bankB ≠ .idle) →
        exec (.rtCoordWrite m v) s = .next (s.after ((s.dev))))

/-- A lane that locks is trained and, with the last one awaited, the port enters NIB_ONLY; a retrained lane ends its change; locks lost and time-outs act
as their causes say; a failing lane asks to narrow; restore and soak timers ask for their changes. The whole next state is given: every register,
queue, buffer, counter and flag it does not set is as before, but for what follows a command at once (State.after), of which SettlingKeepsControlState
says what it leaves alone. The rules followed: R280, R283, R285, R304, R306, R307, R310, R314, R315, R319, R323. What is the model's choice in it: log
entries 82, 84, 86, 146, 149. -/
def Obligations.LinkTrainingComplete : Prop :=
  (∀ (p : Fin 64) (j : Fin 2) (before : List Mark) (last : Mark) (lane : Option Nat) (inv : Bool) (s : State),
      let k := lane.getD (if ((getPort s.dev p.val).lanes j.val).swapped then 1 - j.val else j.val)
      let sw := decide (k ≠ j.val)
      (listens s ∧ lockOf (before ++ [last]) = some (lane, inv)) →
      ((getPort s.dev p.val).st = .training ∧ portLaneEn s.dev p.val k = true) →
        exec (.frameLockGained p j before last) s = .next (s.after ((trained p.val (trainLane p.val k 1 sw inv s.dev))))) ∧
  (∀ (p : Fin 64) (j : Fin 2) (before : List Mark) (last : Mark) (lane : Option Nat) (inv : Bool) (s : State),
      let k := lane.getD (if ((getPort s.dev p.val).lanes j.val).swapped then 1 - j.val else j.val)
      let sw := decide (k ≠ j.val)
      let x := getPort s.dev p.val
      let d := trainLane p.val k (trainRung x) sw inv s.dev
      (listens s ∧ lockOf (before ++ [last]) = some (lane, inv)) →
      (x.st = .retraining ∧ k = x.lane) →
        exec (.frameLockGained p j before last) s = .next (s.after ((finish p.val (resume p.val (updPort p.val (fun y => { y with rung := trainRung x, outage := false }) d)))))) ∧
  (∀ (p : Fin 64) (j : Fin 2) (before : List Mark) (last : Mark) (lane : Option Nat) (inv : Bool) (s : State),
      let k := lane.getD (if ((getPort s.dev p.val).lanes j.val).swapped then 1 - j.val else j.val)
      let sw := decide (k ≠ j.val)
      let x := getPort s.dev p.val
      let d := trainLane p.val k (trainRung x) sw inv s.dev
      (listens s ∧ lockOf (before ++ [last]) = some (lane, inv)) →
      (changing x.st = true ∧ trainee x = some k) →
        exec (.frameLockGained p j before last) s = .next (s.after ((afterDone p.val (sendLink p.val (chgMsg 0x06 (x.prog.getD {})) (updPort p.val (fun y => { y with doneOwn := true }) d)))))) ∧
  (∀ (p : Fin 64) (j : Fin 2) (before : List Mark) (last : Mark) (lane : Option Nat) (inv : Bool) (s : State),
      let k := lane.getD (if ((getPort s.dev p.val).lanes j.val).swapped then 1 - j.val else j.val)
      let sw := decide (k ≠ j.val)
      let x := getPort s.dev p.val
      let y := x.updLane k fun l => { l with framed := true, swapped := sw, inverted := inv }
      (listens s ∧ lockOf (before ++ [last]) = some (lane, inv)) →
      (changing x.st = true ∧ trainee x ≠ some k ∧ x.frameLock = false ∧ (lane.isSome = true ∨ (x.lanes k).soak = false)) →
        exec (.frameLockGained p j before last) s = .next (s.after ((if lane.isSome && !(y.l0.framed && y.l1.framed) then setPort p.val y s.dev else rxFormat p.val (if lane.isSome then 2 else 1) (if lane.isSome then 0 else k) (setPort p.val { y with frameLock := true } s.dev))))) ∧
  (∀ (p : Fin 64) (seen : List Mark) (s : State),
      let x := getPort s.dev p.val
      let keep := x.st != .training
      listens s →
      (carriesLocal x.st = true ∧ lockGone seen = true) →
        exec (.frameLockLost { p := p, seen := seen }) s = .next (s.now ((setPort p.val { x with frameLock := false, l0 := { x.l0 with framed := false, locked := x.l0.locked && keep }, l1 := { x.l1 with framed := false, locked := x.l1.locked && keep } } s.dev)))) ∧
  (∀ (p : Fin 64) (s : State),
      listens s →
      (changing (getPort s.dev p.val).st = true ∧ (getPort s.dev p.val).frameLock = false) →
        exec (.frameLockTimeout p) s = .next (s.after ((goDown p.val 2 s.dev)))) ∧
  (∀ (p : Fin 64) (j : Fin 2) (s : State),
      let x := getPort s.dev p.val
      let d := updPort p.val (fun y => y.updLane j.val fun l => { l with lol := true }) s.dev
      listens s →
      (x.st = .training ∧ (x.lanes j.val).locked = false) →
        exec (.trainLockTimeout p j) s = .next (s.after ((trained p.val d)))) ∧
  (∀ (p : Fin 64) (s : State),
      listens s →
      (getPort s.dev p.val).prog.isSome = true →
        exec (.rateLockTimeout p) s = .next (s.after ((rateLockTimeout p.val s.dev)))) ∧
  (∀ (p : Fin 64) (s : State),
      listens s →
      ((getPort s.dev p.val).st = .down ∧ (portAutoRetrain s.dev p.val = true ∨ (getPort s.dev p.val).restart = true)) →
        exec (.portDownDwellEnd p) s = .next (s.after ((startTraining p.val s.dev)))) ∧
  (∀ (p : Fin 64) (j : Fin 2) (lol : Bool) (s : State),
      let x := getPort s.dev p.val
      let d := updPort p.val (fun y => y.updLane j.val fun l => { l with los := l.los || !lol, lol := l.lol || lol, locked := false, soak := false, framed := false }) s.dev
      listens s →
      changing x.st = true →
        exec (.laneSignalLoss p j lol) s = .next (s.after ((if x.width = 2 then narrowNow p.val (1 - j.val) (takeOut p.val j.val d) else if x.lane = j.val then goDown p.val 1 d else d)))) ∧
  (∀ (p : Fin 64) (j : Fin 2) (sym unc bip : Nat) (s : State),
      let l0 := (getPort s.dev p.val).lanes j.val
      let failing := laneFailing s.dev p.val j.val (l0.winSym + sym) (l0.winUnc + unc)
      let d := updPort p.val (fun y => y.updLane j.val fun l => { l with symWin := min 0xFFFFFF (l0.winSym + sym), uncorr := l.uncorr.add unc, bip := l.bip.add bip, soak := l.soak && !failing, failing := failing, winSym := 0, winUnc := 0 }) s.dev
      let x := getPort d p.val
      listens s →
        exec (.laneHealthWindow p j sym unc bip) s = .next (s.after ((if failing && changing x.st && x.width = 2 then requestChg p.val { kind := 1, lane := 1 - j.val, reason := 1 } d else d)))) ∧
  (∀ (p : Fin 64) (j : Fin 2) (s : State),
      let x := getPort s.dev p.val
      listens s →
      (changing x.st = true ∧ (x.lanes j.val).fail = true ∧ (x.lanes j.val).soak = false) →
      (portLaneEn s.dev p.val j.val = true ∧ x.width = 1 ∧ x.lane ≠ j.val) →
        exec (.laneRestoreTimer p j) s = .next (s.after ((requestChg p.val { kind := 3, lane := j.val, reason := 5 } s.dev)))) ∧
  (∀ (p : Fin 64) (j : Fin 2) (s : State),
      let l := (getPort s.dev p.val).lanes j.val
      listens s →
      (l.soak = true ∧ (l.fail = false ∨ portLaneEn s.dev p.val 0 = false ∨ portLaneEn s.dev p.val 1 = false)) →
        exec (.laneSoakEnd p j) s = .next (s.after ((setPort p.val ((getPort s.dev p.val).updLane j.val fun l => { l with soak := false }) s.dev)))) ∧
  (∀ (p : Fin 64) (j : Fin 2) (s : State),
      listens s →
      (((getPort s.dev p.val).lanes j.val).soak = true ∧ ((getPort s.dev p.val).lanes j.val).fail = true ∧ portLaneEn s.dev p.val 0 = true ∧ portLaneEn s.dev p.val 1 = true) →
        exec (.laneSoakEnd p j) s = .next (s.after ((requestChg p.val { kind := 2, reason := 5 } (setPort p.val ((getPort s.dev p.val).updLane j.val fun l => { l with soak := false, fail := false }) s.dev)))))

/-- HELLO stores the partner, or takes an UP port down where the unit differs; a change request is accepted, merged or refused as R313 says; ACK and GO
apply it, BUSY puts it back, DONE and LINK_MODE act; the timers resend. The whole next state is given: every register, queue, buffer, counter and flag
it does not set is as before, but for what follows a command at once (State.after), of which SettlingKeepsControlState says what it leaves alone. The
rules followed: R303, R305, R311, R313, R316. What is the model's choice in it: log entries 81, 83, 85, 146, 147, 148. -/
def Obligations.LinkMessagesComplete : Prop :=
  (∀ (p : Fin 64) (m : LinkMsg) (s : State),
      let d := takeLink p.val m s.dev
      let x := getPort d p.val
      let e := setPort p.val { x with unitId := m.unitId, info := helloInfo m.value } d
      listens s →
      (m.ntype = 0x01 ∧ carriesLocal (getPort s.dev p.val).st = true ∧ m.crc = linkCrc m) →
      (x.st ≠ .up ∨ m.unitId = x.unitId) →
        exec (.linkHello p m) s = .next (s.after ((if bit x.info 20 then wantRate p.val e else proceedUp p.val e)))) ∧
  (∀ (p : Fin 64) (m : LinkMsg) (s : State),
      let d := takeLink p.val m s.dev
      let x := getPort d p.val
      listens s →
      (m.ntype = 0x01 ∧ carriesLocal (getPort s.dev p.val).st = true ∧ m.crc = linkCrc m) →
      (x.st = .up ∧ m.unitId ≠ x.unitId) →
        exec (.linkHello p m) s = .next (s.after ((goDown p.val 7 d)))) ∧
  (∀ (p : Fin 64) (s : State),
      listens s →
      changing (getPort s.dev p.val).st = true →
        exec (.linkHelloTimer p) s = .next (s.now ((sendHello p.val s.dev)))) ∧
  (∀ (p : Fin 64) (m : LinkMsg) (s : State),
      let d := takeLink p.val m s.dev
      let x := getPort d p.val
      listens s →
      (m.ntype = 0x02 ∧ carriesLocal (getPort s.dev p.val).st = true ∧ m.crc = linkCrc m) →
      (changing x.st = true ∧ x.prog = none ∧ x.own = none) →
        exec (.changeReq p m) s = .next (s.after ((acceptChg p.val (msgChg m) false m.token d)))) ∧
  (∀ (p : Fin 64) (m : LinkMsg) (s : State),
      let d := takeLink p.val m s.dev
      let x := getPort d p.val
      listens s →
      (m.ntype = 0x02 ∧ carriesLocal (getPort s.dev p.val).st = true ∧ m.crc = linkCrc m) →
      (changing x.st = true ∧ x.prog.isSome = true) →
        exec (.changeReq p m) s = .next (s.after ((sendLink p.val { ntype := 0x05, token := m.token } d)))) ∧
  (∀ (p : Fin 64) (m : LinkMsg) (o : Chg) (s : State),
      let d := takeLink p.val m s.dev
      let x := getPort d p.val
      listens s →
      (m.ntype = 0x02 ∧ carriesLocal (getPort s.dev p.val).st = true ∧ m.crc = linkCrc m) →
      (changing x.st = true ∧ x.prog = none ∧ x.own = some o ∧ sameChg (msgChg m) o = true) →
        exec (.changeReq p m) s = .next (s.after ((acceptChg p.val o true m.token d)))) ∧
  (∀ (p : Fin 64) (m : LinkMsg) (o : Chg) (s : State),
      let d := takeLink p.val m s.dev
      let x := getPort d p.val
      listens s →
      (m.ntype = 0x02 ∧ carriesLocal (getPort s.dev p.val).st = true ∧ m.crc = linkCrc m) →
      (changing x.st = true ∧ x.prog = none ∧ x.own = some o ∧ sameChg (msgChg m) o = false) →
        exec (.changeReq p m) s = .next (s.after ((if m.unitId.toNat < s.dev.fuse.unitId.toNat then acceptChg p.val (msgChg m) false m.token (setPort p.val { x with own := none, plan := o :: x.plan } d) else d)))) ∧
  (∀ (p : Fin 64) (m : LinkMsg) (o : Chg) (s : State),
      let d := takeLink p.val m s.dev
      let x := getPort d p.val
      listens s →
      (m.ntype = 0x03 ∧ carriesLocal (getPort s.dev p.val).st = true ∧ m.crc = linkCrc m) →
      (x.own = some o ∧ o.token = m.token) →
        exec (.changeAck p m) s = .next (s.after ((trySwitch p.val (sendLink p.val (chgMsg 0x04 o) (setPort p.val { x with own := none, prog := some o, mine := true, merged := false, applied := false, peerSwitch := some m.switch } d)))))) ∧
  (∀ (p : Fin 64) (m : LinkMsg) (o : Chg) (s : State),
      let d := takeLink p.val m s.dev
      let x := getPort d p.val
      listens s →
      (m.ntype = 0x03 ∧ carriesLocal (getPort s.dev p.val).st = true ∧ m.crc = linkCrc m) →
      (x.own = none ∧ x.merged = true ∧ x.applied = false ∧ x.prog = some o ∧ o.token = m.token) →
        exec (.changeAck p m) s = .next (s.after ((trySwitch p.val (setPort p.val { x with peerSwitch := some m.switch } d))))) ∧
  (∀ (p : Fin 64) (m : LinkMsg) (o : Chg) (s : State),
      let d := takeLink p.val m s.dev
      let x := getPort d p.val
      listens s →
      (m.ntype = 0x04 ∧ carriesLocal (getPort s.dev p.val).st = true ∧ m.crc = linkCrc m) →
      (x.mine = false ∧ x.merged = false ∧ x.applied = false ∧ x.prog = some o ∧ o.token = m.token) →
        exec (.changeGo p m) s = .next (s.after ((trySwitch p.val (setPort p.val { x with peerSwitch := some m.switch } d))))) ∧
  (∀ (p : Fin 64) (m : LinkMsg) (o : Chg) (s : State),
      let d := takeLink p.val m s.dev
      let x := getPort d p.val
      listens s →
      (m.ntype = 0x05 ∧ carriesLocal (getPort s.dev p.val).st = true ∧ m.crc = linkCrc m) →
      (x.own = some o ∧ o.token = m.token) →
        exec (.changeBusy p m) s = .next (s.now ((setPort p.val { x with own := none, plan := o :: x.plan, busyWait := true, cmdStatus := if o.cmd then 2 else x.cmdStatus } d)))) ∧
  (∀ (p : Fin 64) (s : State),
      listens s →
      (getPort s.dev p.val).busyWait = true →
        exec (.changeBusyWaitEnd p) s = .next (s.after ((nextPlan p.val ((getPort s.dev p.val).plan.length + 1) (setPort p.val { getPort s.dev p.val with busyWait := false } s.dev))))) ∧
  (∀ (p : Fin 64) (m : LinkMsg) (o : Chg) (s : State),
      let d := takeLink p.val m s.dev
      let x := getPort d p.val
      listens s →
      (m.ntype = 0x06 ∧ carriesLocal (getPort s.dev p.val).st = true ∧ m.crc = linkCrc m) →
      (x.applied = true ∧ x.prog = some o ∧ (o.kind = 3 ∨ o.kind = 4)) →
        exec (.changeDone p m) s = .next (s.after ((afterDone p.val (setPort p.val { x with donePeer := true } d))))) ∧
  (∀ (p : Fin 64) (o : Chg) (s : State),
      listens s →
      ((getPort s.dev p.val).own = some o ∧ o.tries < 4) →
        exec (.changeReqTimeout p) s = .next (s.after ((sendLink p.val (chgMsg 0x02 o) (setPort p.val { getPort s.dev p.val with own := some { o with tries := o.tries + 1 } } s.dev))))) ∧
  (∀ (p : Fin 64) (o : Chg) (s : State),
      listens s →
      ((getPort s.dev p.val).own = some o ∧ 4 ≤ o.tries) →
        exec (.changeReqTimeout p) s = .next (s.after ((goDown p.val 4 s.dev)))) ∧
  (∀ (p : Fin 64) (m : LinkMsg) (s : State),
      let d := takeLink p.val m s.dev
      let x := getPort d p.val
      let e := updPort p.val (fun x => { x with annPeer := some (m.info.getLsbD 0) }) d
      listens s →
      (m.ntype = 0x07 ∧ carriesLocal (getPort s.dev p.val).st = true ∧ m.crc = linkCrc m) →
        exec (.linkMode p m) s = .next (s.after ((if m.info.getLsbD 0 then enterUp p.val e else if x.st = .up then leaveUp p.val 8 .nibOnly e else e))))

/-- ENABLE and DISABLE set the control bit and act; a command that fits is requested, one that does not is refused or busy; RESTART takes the port down to
train again; flits arrive and go, and the replay timer sends again what is unacknowledged. The whole next state is given: every register, queue,
buffer, counter and flag it does not set is as before, but for what follows a command at once (State.after), of which SettlingKeepsControlState says
what it leaves alone. The rules followed: R281, R283, R295, R296, R297, R298, R300, R304, R323, R337, R341. What is the model's choice in it: log
entries 69, 81, 82, 83, 85, 145, 146, 147, 149. -/
def Obligations.PortCommandsComplete : Prop :=
  (∀ (m : Master) (p : Fin 64) (s : State),
      atOnce m s →
      listens s →
      isFab m = true →
        exec (.portEnable m p) s = .next (s.after ((putPortCtl p.val (portCtl s.dev p.val ||| ins 63 1) s.dev)))) ∧
  (∀ (m : Master) (p : Fin 64) (s : State),
      atOnce m s →
      listens s →
      isFab m = true →
        exec (.portDisable m p) s = .next (s.after ((putPortCtl p.val (portCtl s.dev p.val &&& ~~~ ins 63 1) s.dev)))) ∧
  (∀ (m : Master) (p : Fin 64) (s : State),
      let x := getPort s.dev p.val
      atOnce m s →
      listens s →
      isFab m = true →
        exec (.narrowLane0 m p) s = .next (s.after ((if !changing x.st || !chgFits s.dev p.val { kind := 1, lane := 0 } then setCmdStatus p.val 3 s.dev else if x.own.isSome || x.prog.isSome || x.busyWait then setCmdStatus p.val 2 s.dev else requestChg p.val { kind := 1, lane := 0, cmd := true } (setCmdStatus p.val 1 s.dev))))) ∧
  (∀ (m : Master) (p : Fin 64) (s : State),
      let x := getPort s.dev p.val
      atOnce m s →
      listens s →
      isFab m = true →
        exec (.narrowLane1 m p) s = .next (s.after ((if !changing x.st || !chgFits s.dev p.val { kind := 1, lane := 1 } then setCmdStatus p.val 3 s.dev else if x.own.isSome || x.prog.isSome || x.busyWait then setCmdStatus p.val 2 s.dev else requestChg p.val { kind := 1, lane := 1, cmd := true } (setCmdStatus p.val 1 s.dev))))) ∧
  (∀ (m : Master) (p : Fin 64) (s : State),
      let x := getPort s.dev p.val
      atOnce m s →
      listens s →
      isFab m = true →
        exec (.widen m p) s = .next (s.after ((if !changing x.st || !chgFits s.dev p.val { kind := 2 } then setCmdStatus p.val 3 s.dev else if x.own.isSome || x.prog.isSome || x.busyWait then setCmdStatus p.val 2 s.dev else requestChg p.val { kind := 2, cmd := true } (setCmdStatus p.val 1 s.dev))))) ∧
  (∀ (m : Master) (p : Fin 64) (s : State),
      let x := getPort s.dev p.val
      atOnce m s →
      listens s →
      isFab m = true →
        exec (.retrainLane0 m p) s = .next (s.after ((if !changing x.st || !chgFits s.dev p.val { kind := 3, lane := 0 } then setCmdStatus p.val 3 s.dev else if x.own.isSome || x.prog.isSome || x.busyWait then setCmdStatus p.val 2 s.dev else requestChg p.val { kind := 3, lane := 0, cmd := true } (setCmdStatus p.val 1 s.dev))))) ∧
  (∀ (m : Master) (p : Fin 64) (s : State),
      let x := getPort s.dev p.val
      atOnce m s →
      listens s →
      isFab m = true →
        exec (.retrainLane1 m p) s = .next (s.after ((if !changing x.st || !chgFits s.dev p.val { kind := 3, lane := 1 } then setCmdStatus p.val 3 s.dev else if x.own.isSome || x.prog.isSome || x.busyWait then setCmdStatus p.val 2 s.dev else requestChg p.val { kind := 3, lane := 1, cmd := true } (setCmdStatus p.val 1 s.dev))))) ∧
  (∀ (m : Master) (p : Fin 64) (s : State),
      atOnce m s →
      listens s →
      isFab m = true →
        exec (.portRestart m p) s = .next (s.after ((if (getPort s.dev p.val).st = .disabled then setCmdStatus p.val 3 s.dev else setCmdStatus p.val 0 (updPort p.val (fun x => { x with restart := true }) (goDown p.val 6 s.dev)))))) ∧
  (∀ (p : Fin 64) (a : Arrival) (slots : Fin 3) (f : Flit) (s : State),
      listens s →
      (linkUp (getPort s.dev p.val) = true ∧ a = .flit f none) →
        exec (.flitReceive p a slots) s = .next (s.after ((rxSwitch p.val (tileSlots p.val slots.val (elasticIn p.val f s.dev)))))) ∧
  (∀ (p : Fin 64) (a : Arrival) (slots : Fin 3) (f : Flit) (t : Trailer) (s : State),
      listens s →
      (linkUp (getPort s.dev p.val) = true ∧ a = .flit f (some t)) →
        exec (.flitReceive p a slots) s = .next (s.after ((rxSwitch p.val (onTrailer p.val t (tileSlots p.val slots.val (elasticIn p.val f s.dev))))))) ∧
  (∀ (p : Fin 64) (a : Arrival) (slots : Fin 3) (l0 l1 : List Sym) (s : State),
      listens s →
      (linkUp (getPort s.dev p.val) = true ∧ a = .frame l0 l1) →
        exec (.flitReceive p a slots) s = .next (s.after ((rxSwitch p.val (frameArrives p.val l0 l1 slots.val s.dev))))) ∧
  (∀ (p : Fin 64) (s : State),
      listens s →
      carriesLocal (getPort s.dev p.val).st = true →
        exec (.replayTimeout p) s = .next (s.after ((startReplay p.val (oldest (getPort s.dev p.val)) true s.dev)))) ∧
  (∀ (p : Fin 64) (s : State),
      let d := purgeAged p.val s.dev
      listens s →
      carriesLocal (getPort s.dev p.val).st = true →
        exec (.flitSend p) s = .next (s.after ((tryOutage p.val (endFlit p.val (if 2047 ≤ (getPort s.dev p.val).sinceIdle then sendIdle p.val d else match sendReplay p.val d with | some e => e | none => (sendFresh p.val d).getD (sendIdle p.val d))))))) ∧
  (∀ (p : Fin 64) (s : State),
      listens s →
      (getPort s.dev p.val).st = .retraining →
        exec (.flitSend p) s = .next (s.after ((endFlit p.val (sendIdle p.val s.dev)))))

/-- A TIME_REQ on a port that carries link-local messages is answered with a TIME_RESP that holds its arrival; the TIME_RESP a device awaits on its parent
port sets delay and offset by R368's sums, ends what was missed and HOLDOVER, leaves a free rate estimate, and corrects the counter; one not awaited
does nothing; the timer counts a missed exchange, sets HOLDOVER at three and asks again; a PPS edge is noted and corrects the root; FT_SET corrects
the root; a refill adds a tick's rate to every shaper and policer up to its full and lets go what waits (here shown whole where nothing waits); a
gate's pending list takes over from its first cycle start, the entry whose turn it is comes into force; GCL_READ and GCL_WRITE store the address and
read or write the staged entry of a port below 64. The whole next state is given: every register, queue, buffer, counter and flag it does not set is
as before, but for what follows a command at once (State.after), of which SettlingKeepsControlState says what it leaves alone. The rules followed:
R331, R340, R342, R345, R368, R369, R370. What is the model's choice in it: log entries 29, 62, 80, 88, 140. -/
def Obligations.TimeAndTrafficControlComplete : Prop :=
  (∀ (p : Fin 64) (m : LinkMsg) (s : State),
      listens s →
      (m.ntype = 0x10 ∧ carriesLocal (getPort s.dev p.val).st = true ∧ m.crc = linkCrc m) →
        exec (.timeReq p m) s = .next (s.after ((sendLink p.val { ntype := 0x11, value := arrivedAt s.dev p.val m } (takeLink p.val m s.dev))))) ∧
  (∀ (p : Fin 64) (m : LinkMsg) (t1 : Word64) (s : State),
      let d := takeLink p.val m s.dev
      let r := timeOffset t1 m.value (arrivedAt s.dev p.val m) m.info.toNat
      let u : Ft :=
        { s.dev.ft with
          offset := r.2, delay := r.1.toNat % 65536, req := none, asked := false, missed := 0, holdover := false
          rate := ((Config.freeWord s.dev.free).setWidth 32).toInt, set := true }
      listens s →
      (m.ntype = 0x11 ∧ carriesLocal (getPort s.dev p.val).st = true ∧ m.crc = linkCrc m) →
      (s.dev.ft.req = some t1 ∧ ftEn s.dev = true ∧ ftRoot s.dev = false ∧ ftParent s.dev = p.val) →
        exec (.timeResp p m) s = .next (s.after ((correctTime r.2 { d with free := s.dev.free + 1, ft := relock r.2 u })))) ∧
  (∀ (p : Fin 64) (m : LinkMsg) (s : State),
      listens s →
      (m.ntype = 0x11 ∧ carriesLocal (getPort s.dev p.val).st = true ∧ m.crc = linkCrc m ∧ s.dev.ft.req = none) →
        exec (.timeResp p m) s = .next (s.after ((takeLink p.val m s.dev)))) ∧
  (∀ (s : State),
      let k := if s.dev.ft.asked then min 3 (s.dev.ft.missed + 1) else s.dev.ft.missed
      let d : Dev := { s.dev with ft := { s.dev.ft with missed := k, holdover := s.dev.ft.holdover || decide (3 ≤ k), asked := true } }
      listens s →
      (ftEn s.dev = true ∧ ftRoot s.dev = false) →
        exec .timeExchangeTimer s = .next (s.now ((if changing (getPort s.dev (ftParent s.dev)).st then sendLink (ftParent s.dev) { ntype := 0x10 } d else d)))) ∧
  (∀ (s : State),
      let d : Dev := { s.dev with ft := { s.dev.ft with ppsSeen := true, ppsAt := s.dev.clk.now } }
      listens s →
        exec .ppsInEdge s = .next (s.now ((if ftPps s.dev && ftRoot s.dev then correctTime (ppsError s.dev.clk.tsc.toNat) d else d)))) ∧
  (∀ (m : Master) (v : Wr) (k : Word64) (s : State),
      atOnce m s →
      listens s →
      (isFab m = true ∧ v = .full k ∧ ftRoot s.dev = true) →
        exec (.ftSet m v) s = .next (s.now ((correctTime ((k.toNat : Int) - s.dev.clk.tsc.toNat) { s.dev with ft := { s.dev.ft with set := true } })))) ∧
  (∀ (s : State),
      listens s →
        exec .shaperRefill s = .next (s.after ((((fnKeys s.dev).map fnOfKey).foldl (fun d f => refillFn f d) s.dev)))) ∧
  (∀ (f : FnId) (s : State),
      listens s →
      ((fnKeys s.dev).map fnOfKey = [f] ∧ (getFn s.dev f).admPt = []) →
        exec .shaperRefill s = .next (s.after ((updFn f (fun x => { x with
      shapers := x.shapers.map fun e => (e.1, refill e.2), polOut := x.polOut.map refill, polIn := x.polIn.map refill }) s.dev)))) ∧
  (∀ (p : Fin 64) (starts : Bool) (l : GateList) (s : State),
      let t := s.dev.clk.tsc.toNat
      listens s →
      ((getGate s.dev p.val).pend = some l ∧ l.start ≤ t) →
      starts = (entAt l.ents (phaseOf l t / 4) == 0) →
        exec (.gateEntryChange p starts) s = .next (s.now ((setGate p.val { run := some l, pend := none, entry := entAt l.ents (phaseOf l t / 4) } s.dev)))) ∧
  (∀ (p : Fin 64) (starts : Bool) (l : GateList) (s : State),
      let g := getGate s.dev p.val
      let t := s.dev.clk.tsc.toNat
      listens s →
      (∀ n, g.pend = some n → t < n.start) →
      (g.run = some l ∧ starts = (entAt l.ents (phaseOf l t / 4) == 0)) →
        exec (.gateEntryChange p starts) s = .next (s.now ((setGate p.val { g with entry := entAt l.ents (phaseOf l t / 4) } s.dev)))) ∧
  (∀ (m : Master) (v : Wr) (s : State),
      let a := mergeWr (regInForce s.dev 0x30010 0) 0x1FFFF v
      let d := putReg 0x30010 0 a s.dev
      let g := (tget s.dev.tc.gclStg (fld a 8 8 * 256 + fld a 0 8)).getD {}
      atOnce m s →
      listens s →
      (isFab m = true ∧ bit (wrBits v).2 0 = true ∧ bit (wrBits v).1 16 = false) →
      (fld a 8 8 < 64 ∧ bit a 16 = false) →
        exec (.gclRead m v) s = .next (s.now (({ d with regs := tput d.regs 0x30018 (ins 32 g.gates ||| ins 0 g.dur) })))) ∧
  (∀ (m : Master) (v : Wr) (s : State),
      let a := mergeWr (regInForce s.dev 0x30010 0) 0x1FFFF v
      atOnce m s →
      listens s →
      (isFab m = true ∧ bit (wrBits v).2 0 = true ∧ bit (wrBits v).1 16 = false) →
      64 ≤ fld a 8 8 →
        exec (.gclRead m v) s = .next (s.now ((putReg 0x30010 0 a s.dev)))) ∧
  (∀ (m : Master) (v : Wr) (s : State),
      let a := mergeWr (regInForce s.dev 0x30010 0) 0x1FFFF v
      let d := putReg 0x30010 0 a s.dev
      let g := regInForce s.dev 0x30018 0
      atOnce m s →
      listens s →
      (isFab m = true ∧ bit (wrBits v).2 0 = true ∧ bit (wrBits v).1 16 = true) →
      (fld a 8 8 < 64 ∧ bit a 16 = true) →
        exec (.gclWrite m v) s = .next (s.now (({ d with tc := { d.tc with gclStg := tput d.tc.gclStg (fld a 8 8 * 256 + fld a 0 8) { gates := fld g 32 8, dur := fld g 0 28 } } })))) ∧
  (∀ (m : Master) (v : Wr) (s : State),
      let a := mergeWr (regInForce s.dev 0x30010 0) 0x1FFFF v
      atOnce m s →
      listens s →
      (isFab m = true ∧ bit (wrBits v).2 0 = true ∧ bit (wrBits v).1 16 = true) →
      64 ≤ fld a 8 8 →
        exec (.gclWrite m v) s = .next (s.now ((putReg 0x30010 0 a s.dev))))

/-- The end of a hold-off of PACE_LOW, PACE_RESTORED or a stack's throttling events clears it, and posts that event and holds again where the state it
last told has changed; a governor evaluation with a request outstanding, in the hold after a fault, or with block 0 fenced is skipped, else it asks
AVSBus for govVolts where that differs; an answered request ends; a timeout or fault is recorded as a contained error with CLEAR_FAULTS sent and holds
requests, which the retry ends by asking again; a sample sets the readings and TJ_MAX, then every port's and stack's thermal rules run; a stack at 110
degrees or more is shut as fatal; THERMTRIP is recorded as fatal; a lost clock marks both lanes of its sixteen ports and takes those ports down. The
whole next state is given: every register, queue, buffer, counter and flag it does not set is as before, but for what follows a command at once
(State.after), of which SettlingKeepsControlState says what it leaves alone. The rules followed: R34, R37, R38, R39, R317, R318, R457, R508, R515,
R516. What is the model's choice in it: log entries 25, 26, 27, 84, 128, 135, 148. -/
def Obligations.PaceAndThermalComplete : Prop :=
  (∀ (k : Holdoff) (n : Fin 2) (s : State),
      listens s →
      k = .throttle n →
        exec (.paceEventHoldoffEnd k) s = .next (s.now ((postHbm n (setHbm n { getHbm s.dev n with holdT := false } s.dev))))) ∧
  (∀ (k : Holdoff) (n : Fin 2) (s : State),
      listens s →
      k = .throttleEnd n →
        exec (.paceEventHoldoffEnd k) s = .next (s.now ((postHbm n (setHbm n { getHbm s.dev n with holdE := false } s.dev))))) ∧
  (∀ (k : Holdoff) (s : State),
      listens s →
      k = .paceLow →
        exec (.paceEventHoldoffEnd k) s = .next (s.now ((postPace { s.dev with pace := { s.dev.pace with holdLow := false } })))) ∧
  (∀ (k : Holdoff) (s : State),
      listens s →
      k = .paceRestored →
        exec (.paceEventHoldoffEnd k) s = .next (s.now ((postPace { s.dev with pace := { s.dev.pace with holdRest := false } })))) ∧
  (∀ (s : State),
      listens s →
      (s.dev.pace.below = true ∧ s.dev.pace.lastBelow = false) →
        exec (.paceEventHoldoffEnd .paceLow) s = .next (s.now ((postSubscribed .paceLow 0 0 0 { s.dev with pace := { s.dev.pace with lastBelow := true, holdLow := true } })))) ∧
  (∀ (s : State),
      listens s →
      (s.dev.pace.below = false ∧ s.dev.pace.lastBelow = true) →
        exec (.paceEventHoldoffEnd .paceRestored) s = .next (s.now ((postSubscribed .paceRestored 0 0 0 { s.dev with pace := { s.dev.pace with lastBelow := false, holdRest := true } })))) ∧
  (∀ (s : State),
      listens s →
      s.dev.pace.below = s.dev.pace.lastBelow →
        exec (.paceEventHoldoffEnd .paceLow) s = .next (s.now (({ s.dev with pace := { s.dev.pace with holdLow := false } })))) ∧
  (∀ (n : Fin 2) (s : State),
      let x := getHbm s.dev n
      listens s →
      (x.throttled = true ∧ (x.lastOn = false ∨ x.cap ≠ x.lastCap)) →
        exec (.paceEventHoldoffEnd (.throttle n)) s = .next (s.now ((postSubscribed .hbmThrottle (BitVec.ofNat 32 n.val) (hbmInfo x.temp x.cap) 0
      (setHbm n { x with lastOn := true, lastCap := x.cap, holdT := true } s.dev))))) ∧
  (∀ (n : Fin 2) (s : State),
      let x := getHbm s.dev n
      listens s →
      (x.throttled = false ∧ x.lastOn = true) →
        exec (.paceEventHoldoffEnd (.throttleEnd n)) s = .next (s.now ((postSubscribed .hbmThrottleEnd (BitVec.ofNat 32 n.val) (hbmInfo x.temp 100) 0
      (setHbm n { x with lastOn := false, lastCap := 100, holdE := true } s.dev))))) ∧
  (∀ (s : State),
      listens s →
      (s.dev.pace.avsOut = true ∨ s.dev.pace.avsHold = true ∨ fencedBlk s.dev 0 = true) →
        exec .governorEvaluation s = .next (s.now ((s.dev)))) ∧
  (∀ (s : State),
      listens s →
      (s.dev.pace.avsOut = false ∧ s.dev.pace.avsHold = false ∧ fencedBlk s.dev 0 = false) →
        exec .governorEvaluation s = .next (s.now ((if govVolts s.dev = s.dev.pace.vdd then s.dev else askVolts (govVolts s.dev) s.dev)))) ∧
  (∀ (s : State),
      listens s →
        exec .avsRequestComplete s = .next (s.now (({ s.dev with pace := { s.dev.pace with avsOut := false } })))) ∧
  (∀ (status : Word16) (s : State),
      listens s →
      s.dev.pace.avsOut = true →
        exec (.avsTimeout status) s = .next (s.now ((report srcAvsbus .contained caAvsbus (status.setWidth 8) 0 1 (emit (.pmbus true) { s.dev with pace := { s.dev.pace with avsOut := false, avsHold := true } }))))) ∧
  (∀ (status : Word16) (s : State),
      listens s →
        exec (.avsFault status) s = .next (s.now ((report srcAvsbus .contained caAvsbus (status.setWidth 8) 0 1 (emit (.pmbus true) { s.dev with pace := { s.dev.pace with avsOut := false, avsHold := true } }))))) ∧
  (∀ (s : State),
      let d : Dev := { s.dev with pace := { s.dev.pace with avsHold := false } }
      listens s →
      s.dev.pace.avsHold = true →
        exec .avsRetry s = .next (s.now ((if s.dev.pace.vdd = 0 then d else askVolts s.dev.pace.vdd d)))) ∧
  (∀ (raw : List Int) (a c : Int) (s : State),
      listens s →
        exec (.thermalSample raw a c) s = .next (s.after ((hbmSample 1 c (hbmSample 0 a (allPorts.foldl (fun d p => portThermal p d) { s.dev with therm := { s.dev.therm with raw := raw, tjMax := tjOf s.dev raw } })))))) ∧
  (∀ (raw : List Int) (a c : Int) (s : State),
      let d := allPorts.foldl (fun d p => portThermal p d) { s.dev with therm := { s.dev.therm with raw := raw, tjMax := tjOf s.dev raw } }
      listens s →
      ((getHbm d 0).shut = false ∧ 220 ≤ a) →
        exec (.thermalSample raw a c) s = .next (s.after ((hbmSample 1 c (report (srcHbm 0) .fatal caThermal 0 0 1
      (setHbm 0 { getHbm d 0 with temp := a, fast := true, shut := true, failed := true } d)))))) ∧
  (∀ (s : State),
      listens s →
        exec .thermtrip s = .next (s.after ((report srcThermtrip .fatal caThermal 0 0 1 (govern { s.dev with therm := { s.dev.therm with trip := true } }))))) ∧
  (∀ (q : Fin 4) (s : State),
      let lose : LaneSt → LaneSt := fun l => { l with lol := true, locked := false, soak := false }
      listens s →
        exec (.refclkFabLoss q) s = .next (s.after (((List.range 16).foldl (fun d i => goDown (16 * q.val + i) 1 (updPort (16 * q.val + i) (fun x => { x with l0 := lose x.l0, l1 := lose x.l1 }) d)) s.dev))))

/-- A LINK_ACK that arrives whole applies ACK and FREED and no more. Any other frame in sequence is acknowledged and stored, and then: HELLO stores the
partner, drops an upstream that has none itself, and tries a speed; SPEED sets the speed to switch to; HEARTBEAT notes its time, joins the tree and
passes it on; DISCOVER, DISCOVER_REPLY, RESPONSE, NOTIFY and COMMAND are routed as R356 says: one going UP joins the frames held at the active
manager, is counted where 64 are held, and elsewhere goes on by the upstream with COORD one less; one whose PATH ends here is this device's: a
DISCOVER of the held TERM or later is answered, a COMMAND joins those in hand and is begun, the others have no use; one whose PATH goes on is sent by
its next port where that is up. The whole next state is given: every register, queue, buffer, counter and flag it does not set is as before, but for
what follows a command at once (State.after), of which SettlingKeepsControlState says what it leaves alone. The rules followed: R350, R354, R355,
R358, R359, R361, R362, R364, R365, R366. What is the model's choice in it: log entries 44, 89, 90, 91, 92, 93, 94, 95, 124, 150, 151. -/
def Obligations.ServiceFramesComplete : Prop :=
  (∀ (n : Fin 4) (f : Frame) (s : State),
      listens s →
      ((getSvc s.dev n.val).link = 2 ∧ f.ftype = 0 ∧ frameGood f = true) →
        exec (.svcLinkAck n f) s = .next (s.now ((svcRun (takeFrameAck n.val f s.dev))))) ∧
  (∀ (n : Fin 4) (f : Frame) (s : State),
      let d := frameStored n.val f s.dev
      let w : Word64 := BitVec.ofNat 64 (payNat f 8 8)
      let y :=
        updSvc n.val (fun x => { x with
          partner := BitVec.ofNat 64 (payNat f 0 8), peerMax := min 2 (fld w 2 2), peerUp := bit w 4, peerHas := bit w 5, heard := true }) d
      let z := if y.svc.upstream = some n.val && !bit w 5 then { y with svc := { y.svc with upstream := none } } else y
      frameReaches 1 n f s →
        exec (.svcHello n f) s = .next (s.now ((svcRun (trySpeed n.val (svcHellos d z)))))) ∧
  (∀ (n : Fin 4) (f : Frame) (v : Fin 3) (s : State),
      let d := frameStored n.val f s.dev
      frameReaches 2 n f s →
        exec (.speed n f v) s = .next (s.now ((svcRun (updSvc n.val (fun x => { x with target := some v.val }) d))))) ∧
  (∀ (n : Fin 4) (f : Frame) (s : State),
      let d := frameStored n.val f s.dev
      let term := payNat f 0 4
      let y : Dev :=
        { d with svc := { d.svc with
          hbAt := some d.clk.now, heardHb := d.svc.heardHb || (d.svc.listening && decide (d.svc.term ≤ term)) } }
      let z := joinTree n.val term (payNat f 4 2) (BitVec.ofNat 64 (payNat f 8 8)) y
      frameReaches 7 n f s →
        exec (.heartbeat n f) s = .next (s.now ((svcRun (sendNotify (passHeartbeat n.val term (payNat f 0x18 4) (decide (d.svc.role = 2 ∧ z.svc.role ≠ 2)) f z)))))) ∧
  (∀ (n : Fin 4) (f : Frame) (s : State),
      let t := frameBuf n.val s.dev
      let d := frameStored n.val f s.dev
      frameReaches 3 n f s →
        exec (.discover n f) s = .next (s.now ((svcRun (routeFrame f (some (n.val, t)) mgrTake discoverIn d))))) ∧
  (∀ (n : Fin 4) (f : Frame) (s : State),
      let t := frameBuf n.val s.dev
      let d := frameStored n.val f s.dev
      frameReaches 4 n f s →
        exec (.discoverReply n f) s = .next (s.now ((svcRun (routeFrame f (some (n.val, t)) mgrTake (fun _ d => d) d))))) ∧
  (∀ (n : Fin 4) (f : Frame) (s : State),
      let t := frameBuf n.val s.dev
      let d := frameStored n.val f s.dev
      frameReaches 6 n f s →
        exec (.response n f) s = .next (s.now ((svcRun (routeFrame f (some (n.val, t)) mgrTake (fun _ d => d) d))))) ∧
  (∀ (n : Fin 4) (f : Frame) (s : State),
      let t := frameBuf n.val s.dev
      let d := frameStored n.val f s.dev
      frameReaches 8 n f s →
        exec (.notify n f) s = .next (s.now ((svcRun (routeFrame f (some (n.val, t)) mgrTake (fun _ d => d) d))))) ∧
  (∀ (n : Fin 4) (f : Frame) (s : State),
      let t := frameBuf n.val s.dev
      let d := frameStored n.val f s.dev
      frameReaches 5 n f s →
        exec (.command n f) s = .next (s.after ((pumpCmds s.mir (svcRun (routeFrame f (some (n.val, t)) mgrTake (cmdIn (some n.val)) d)))))) ∧
  (∀ (n : Fin 4) (f : Frame) (s : State),
      let d := frameStored n.val f s.dev
      frameReaches 3 n f s →
      (f.up = true ∧ d.svc.role = 2 ∧ d.svc.rx.length < 64) →
        exec (.discover n f) s = .next (s.now ((svcRun ({ d with svc := { d.svc with rx := d.svc.rx ++ [f] } }))))) ∧
  (∀ (n : Fin 4) (f : Frame) (s : State),
      let d := frameStored n.val f s.dev
      frameReaches 3 n f s →
      (f.up = true ∧ d.svc.role = 2 ∧ 64 ≤ d.svc.rx.length) →
        exec (.discover n f) s = .next (s.now ((svcRun ({ d with svc := { d.svc with rxDrops := d.svc.rxDrops.add 1 } }))))) ∧
  (∀ (n : Fin 4) (f : Frame) (u : Nat) (s : State),
      let t := frameBuf n.val s.dev
      let d := frameStored n.val f s.dev
      frameReaches 3 n f s →
      (f.up = true ∧ d.svc.role ≠ 2 ∧ f.coord ≠ 0 ∧ d.svc.upstream = some u) →
      (getSvc d u).link = 2 →
        exec (.discover n f) s = .next (s.now ((svcRun (svcQueue u { f with coord := f.coord - 1 } (some (n.val, t)) d))))) ∧
  (∀ (n : Fin 4) (f : Frame) (s : State),
      let d := frameStored n.val f s.dev
      frameReaches 3 n f s →
      (f.up = false ∧ f.flood = false ∧ f.via = false ∧ f.pathLen = 0) →
        exec (.discover n f) s = .next (s.now ((svcRun (discoverIn f d))))) ∧
  (∀ (n : Fin 4) (f : Frame) (s : State),
      let t := frameBuf n.val s.dev
      let d := frameStored n.val f s.dev
      frameReaches 3 n f s →
      (f.up = false ∧ f.flood = false ∧ f.via = false ∧ f.pathLen ≠ 0) →
      (getSvc d (f.path.toNat % 4)).link = 2 →
        exec (.discover n f) s = .next (s.now ((svcRun (svcQueue (f.path.toNat % 4) { f with path := f.path >>> 2, pathLen := f.pathLen - 1 } (some (n.val, t)) d))))) ∧
  (∀ (n : Fin 4) (f : Frame) (s : State),
      let d := frameStored n.val f s.dev
      frameReaches 4 n f s →
      (f.up = true ∧ d.svc.role = 2 ∧ d.svc.rx.length < 64) →
        exec (.discoverReply n f) s = .next (s.now ((svcRun ({ d with svc := { d.svc with rx := d.svc.rx ++ [f] } }))))) ∧
  (∀ (n : Fin 4) (f : Frame) (s : State),
      let d := frameStored n.val f s.dev
      frameReaches 4 n f s →
      (f.up = true ∧ d.svc.role = 2 ∧ 64 ≤ d.svc.rx.length) →
        exec (.discoverReply n f) s = .next (s.now ((svcRun ({ d with svc := { d.svc with rxDrops := d.svc.rxDrops.add 1 } }))))) ∧
  (∀ (n : Fin 4) (f : Frame) (u : Nat) (s : State),
      let t := frameBuf n.val s.dev
      let d := frameStored n.val f s.dev
      frameReaches 4 n f s →
      (f.up = true ∧ d.svc.role ≠ 2 ∧ f.coord ≠ 0 ∧ d.svc.upstream = some u) →
      (getSvc d u).link = 2 →
        exec (.discoverReply n f) s = .next (s.now ((svcRun (svcQueue u { f with coord := f.coord - 1 } (some (n.val, t)) d))))) ∧
  (∀ (n : Fin 4) (f : Frame) (s : State),
      let d := frameStored n.val f s.dev
      frameReaches 4 n f s →
      (f.up = false ∧ f.flood = false ∧ f.via = false ∧ f.pathLen = 0) →
        exec (.discoverReply n f) s = .next (s.now ((svcRun (d))))) ∧
  (∀ (n : Fin 4) (f : Frame) (s : State),
      let t := frameBuf n.val s.dev
      let d := frameStored n.val f s.dev
      frameReaches 4 n f s →
      (f.up = false ∧ f.flood = false ∧ f.via = false ∧ f.pathLen ≠ 0) →
      (getSvc d (f.path.toNat % 4)).link = 2 →
        exec (.discoverReply n f) s = .next (s.now ((svcRun (svcQueue (f.path.toNat % 4) { f with path := f.path >>> 2, pathLen := f.pathLen - 1 } (some (n.val, t)) d))))) ∧
  (∀ (n : Fin 4) (f : Frame) (s : State),
      let d := frameStored n.val f s.dev
      frameReaches 6 n f s →
      (f.up = true ∧ d.svc.role = 2 ∧ d.svc.rx.length < 64) →
        exec (.response n f) s = .next (s.now ((svcRun ({ d with svc := { d.svc with rx := d.svc.rx ++ [f] } }))))) ∧
  (∀ (n : Fin 4) (f : Frame) (s : State),
      let d := frameStored n.val f s.dev
      frameReaches 6 n f s →
      (f.up = true ∧ d.svc.role = 2 ∧ 64 ≤ d.svc.rx.length) →
        exec (.response n f) s = .next (s.now ((svcRun ({ d with svc := { d.svc with rxDrops := d.svc.rxDrops.add 1 } }))))) ∧
  (∀ (n : Fin 4) (f : Frame) (u : Nat) (s : State),
      let t := frameBuf n.val s.dev
      let d := frameStored n.val f s.dev
      frameReaches 6 n f s →
      (f.up = true ∧ d.svc.role ≠ 2 ∧ f.coord ≠ 0 ∧ d.svc.upstream = some u) →
      (getSvc d u).link = 2 →
        exec (.response n f) s = .next (s.now ((svcRun (svcQueue u { f with coord := f.coord - 1 } (some (n.val, t)) d))))) ∧
  (∀ (n : Fin 4) (f : Frame) (s : State),
      let d := frameStored n.val f s.dev
      frameReaches 6 n f s →
      (f.up = false ∧ f.flood = false ∧ f.via = false ∧ f.pathLen = 0) →
        exec (.response n f) s = .next (s.now ((svcRun (d))))) ∧
  (∀ (n : Fin 4) (f : Frame) (s : State),
      let t := frameBuf n.val s.dev
      let d := frameStored n.val f s.dev
      frameReaches 6 n f s →
      (f.up = false ∧ f.flood = false ∧ f.via = false ∧ f.pathLen ≠ 0) →
      (getSvc d (f.path.toNat % 4)).link = 2 →
        exec (.response n f) s = .next (s.now ((svcRun (svcQueue (f.path.toNat % 4) { f with path := f.path >>> 2, pathLen := f.pathLen - 1 } (some (n.val, t)) d))))) ∧
  (∀ (n : Fin 4) (f : Frame) (s : State),
      let d := frameStored n.val f s.dev
      frameReaches 8 n f s →
      (f.up = true ∧ d.svc.role = 2 ∧ d.svc.rx.length < 64) →
        exec (.notify n f) s = .next (s.now ((svcRun ({ d with svc := { d.svc with rx := d.svc.rx ++ [f] } }))))) ∧
  (∀ (n : Fin 4) (f : Frame) (s : State),
      let d := frameStored n.val f s.dev
      frameReaches 8 n f s →
      (f.up = true ∧ d.svc.role = 2 ∧ 64 ≤ d.svc.rx.length) →
        exec (.notify n f) s = .next (s.now ((svcRun ({ d with svc := { d.svc with rxDrops := d.svc.rxDrops.add 1 } }))))) ∧
  (∀ (n : Fin 4) (f : Frame) (u : Nat) (s : State),
      let t := frameBuf n.val s.dev
      let d := frameStored n.val f s.dev
      frameReaches 8 n f s →
      (f.up = true ∧ d.svc.role ≠ 2 ∧ f.coord ≠ 0 ∧ d.svc.upstream = some u) →
      (getSvc d u).link = 2 →
        exec (.notify n f) s = .next (s.now ((svcRun (svcQueue u { f with coord := f.coord - 1 } (some (n.val, t)) d))))) ∧
  (∀ (n : Fin 4) (f : Frame) (s : State),
      let d := frameStored n.val f s.dev
      frameReaches 8 n f s →
      (f.up = false ∧ f.flood = false ∧ f.via = false ∧ f.pathLen = 0) →
        exec (.notify n f) s = .next (s.now ((svcRun (d))))) ∧
  (∀ (n : Fin 4) (f : Frame) (s : State),
      let t := frameBuf n.val s.dev
      let d := frameStored n.val f s.dev
      frameReaches 8 n f s →
      (f.up = false ∧ f.flood = false ∧ f.via = false ∧ f.pathLen ≠ 0) →
      (getSvc d (f.path.toNat % 4)).link = 2 →
        exec (.notify n f) s = .next (s.now ((svcRun (svcQueue (f.path.toNat % 4) { f with path := f.path >>> 2, pathLen := f.pathLen - 1 } (some (n.val, t)) d))))) ∧
  (∀ (n : Fin 4) (f : Frame) (s : State),
      let d := frameStored n.val f s.dev
      frameReaches 5 n f s →
      (f.up = false ∧ f.flood = false ∧ f.via = false ∧ f.pathLen = 0 ∧ d.boot.phase = .running) →
        exec (.command n f) s = .next (s.after ((pumpCmds s.mir (svcRun ({ d with svc := { d.svc with cmds := d.svc.cmds ++ [{ frame := f, port := some n.val, reply := cmdReplies d f }] } }))))))

/-- Lock gained brings the link up with HELLO, lock lost takes it down; speeds switch or fall back; unacknowledged frames are resent or the link goes;
RESTART, the route table, upstream loss, heartbeat, listen end, takeover and lease act. The whole next state is given: every register, queue, buffer,
counter and flag it does not set is as before, but for what follows a command at once (State.after), of which SettlingKeepsControlState says what it
leaves alone. The rules followed: R349, R350, R354, R355, R358, R365, R367, R371, R376, R377, R379, R450, R458. What is the model's choice in it: log
entries 80, 92, 93, 94, 96, 97, 98, 150, 151. -/
def Obligations.ServiceLinksComplete : Prop :=
  (∀ (n : Fin 4) (s : State),
      listens s →
        exec (.svcHelloTimer n) s = .next (s.now ((svcHello n.val s.dev)))) ∧
  (∀ (n : Fin 4) (s : State),
      let x := getSvc s.dev n.val
      listens s →
      (svcEnable s.dev n.val = true ∧ x.link ≠ 2) →
        exec (.svcLockGained n) s = .next (s.now ((svcRun (trySpeed n.val (svcHello n.val (setSvc n.val { x with link := 2, switching := false, target := if x.switching then none else x.target } s.dev))))))) ∧
  (∀ (n : Fin 4) (errs : List Nat) (s : State),
      listens s →
      ((getSvc s.dev n.val).link = 2 ∧ lockErrors errs = true) →
        exec (.svcLockLost { n := n, errs := errs }) s = .next (s.now ((svcDown n.val (updSvc n.val (fun x => { x with codeErr := x.codeErr.add errs.length }) s.dev))))) ∧
  (∀ (n : Fin 4) (errs : List Nat) (s : State),
      listens s →
      ((getSvc s.dev n.val).link = 2 ∧ lockErrors errs = false) →
        exec (.svcLockLost { n := n, errs := errs }) s = .next (s.now ((updSvc n.val (fun x => { x with codeErr := x.codeErr.add errs.length }) s.dev)))) ∧
  (∀ (n : Fin 4) (s : State),
      let x := getSvc s.dev n.val
      listens s →
      (x.link = 2 ∧ x.unacked ≠ [] ∧ svcRetryLimit s.dev n.val ≤ x.rounds) →
        exec (.svcAckTimeout n) s = .next (s.now ((svcDown n.val s.dev)))) ∧
  (∀ (n : Fin 4) (s : State),
      let x := getSvc s.dev n.val
      let again := x.unacked.map fun f => sealFrame { f with ack := BitVec.ofNat 4 x.expect, freed := BitVec.ofNat 4 x.freed }
      listens s →
      (x.link = 2 ∧ x.unacked ≠ [] ∧ x.rounds < svcRetryLimit s.dev n.val) →
        exec (.svcAckTimeout n) s = .next (s.now ((again.foldl (fun d f => putFrame n.val f d) (setSvc n.val { x with rounds := x.rounds + 1, resends := x.resends.add 1, unacked := again, ackDue := false } s.dev))))) ∧
  (∀ (n : Fin 4) (s : State),
      let x := getSvc s.dev n.val
      listens s →
      (x.link = 2 ∧ x.ackDue = true) →
        exec (.svcLinkAckTimer n) s = .next (s.now ((putFrame n.val (sealFrame { ack := BitVec.ofNat 4 x.expect, freed := BitVec.ofNat 4 x.freed }) (setSvc n.val { x with ackDue := false } s.dev))))) ∧
  (∀ (n : Fin 4) (v : Nat) (s : State),
      let x := getSvc s.dev n.val
      listens s →
      (x.target = some v ∧ x.link = 2) →
      (x.unacked.any (fun f => f.ftype = 0x2) = false ∧ x.waitQ.any (fun w => w.1.ftype = 0x2) = false) →
        exec (.speedSwitch n) s = .next (s.now ((emit (.svcSpeed n.val v) (setSvc n.val { x with speed := v, switching := true, link := 1 } s.dev))))) ∧
  (∀ (n : Fin 4) (v : Nat) (s : State),
      let x := getSvc s.dev n.val
      listens s →
      (x.target = some v ∧ x.switching = true) →
        exec (.speedLockTimeout n) s = .next (s.now ((emit (.svcSpeed n.val 0) (setSvc n.val { x with speed := 0, target := none, failedSpeeds := x.failedSpeeds ++ [v] } s.dev))))) ∧
  (∀ (m : Master) (n : Fin 4) (v : Wr) (s : State),
      atOnce m s →
      listens s →
      (isFab m = true ∧ bit (wrBits v).1 59 = true ∧ bit (wrBits v).2 59 = true) →
        exec (.svcRestart m n v) s = .next (s.now ((halfwise (svcCtlWrite n.val) v s.dev)))) ∧
  (∀ (m : Master) (v : Wr) (s : State),
      atOnce m s →
      listens s →
      (isFab m = true ∧ bit (wrBits v).2 0 = true ∧ bit (mergeWr (regInForce s.dev 0x60128 0) 0x4000000000000FFF v) 62 = false) →
        exec (.svcRtRead m v) s = .next (s.now ((svcRtAddrWrite v s.dev)))) ∧
  (∀ (m : Master) (v : Wr) (s : State),
      atOnce m s →
      listens s →
      (isFab m = true ∧ bit (wrBits v).2 0 = true ∧ bit (mergeWr (regInForce s.dev 0x60128 0) 0x4000000000000FFF v) 62 = true) →
        exec (.svcRtWrite m v) s = .next (s.now ((svcRtAddrWrite v s.dev)))) ∧
  (∀ (s : State),
      listens s →
        exec .upstreamTimeout s = .next (s.now ((svcHellos s.dev { s.dev with svc := { s.dev.svc with upstream := none } })))) ∧
  (∀ (s : State),
      listens s →
      s.dev.svc.role = 2 →
        exec .heartbeatTimer s = .next (s.now ((sendHeartbeat s.dev)))) ∧
  (∀ (s : State),
      listens s →
      s.dev.svc.listening = true →
        exec .managerListenEnd s = .next (s.now ((if s.dev.svc.heardHb then { s.dev with svc := { s.dev.svc with role := 1, listening := false } } else becomeActive s.dev)))) ∧
  (∀ (s : State),
      listens s →
      s.dev.svc.role = 1 →
        exec .takeover s = .next (s.now ((sendHeartbeat (reportCorrected srcMgr 1 (becomeActive s.dev)))))) ∧
  (∀ (s : State),
      listens s →
        exec .leaseTimeout s = .next (s.now (({ s.dev with svc := { s.dev.svc with lease := false } })))) ∧
  (∀ (m : Master) (v : Wr) (s : State),
      atOnce m s →
      listens s →
      (isFab m = true ∧ bit ((wrBits v).1 &&& (wrBits v).2) 3 = true) →
        exec (.modeCtlReq m v) s = .next (s.now ((modeCtlWrite v s.dev).2))) ∧
  (∀ (m : Master) (v : Wr) (s : State),
      atOnce m s →
      listens s →
      (isFab m = true ∧ bit ((wrBits v).1 &&& (wrBits v).2) 8 = true) →
        exec (.modeCtlDeviceReset m v) s = .next (s.now (({ (modeCtlWrite v s.dev).2 with modeSt := { s.dev.modeSt with resetReq := true } }))))

/-- A tap delivers or falls silent; a millisecond is sampled; a minute closes its block or extends it; the oldest block is signed, stored or held; the
seal counts its changes; power and oscillator events act; then a hold or release is told. The whole next state is given: every register, queue,
buffer, counter and flag it does not set is as before, but for what follows a command at once (State.after), of which SettlingKeepsControlState says
what it leaves alone. The rules followed: R382, R385, R388, R391, R392, R393, R397, R402, R405, R414, R507, R508. What is the model's choice in it:
log entries 16, 28, 99, 100, 101, 104, 105. -/
def Obligations.MeterEventsComplete : Prop :=
  (∀ (tap : Fin 8) (s : State),
      (s.dev.fuse.meter = true ∧ s.dev.isl.powered = true) →
        exec (.tallyTapDelivery tap) s = .next (s.now ((meterNotify (deliver tap.val s.dev))))) ∧
  (∀ (tap : Fin 8) (s : State),
      let d := updIsl (fun i => audit 11 (BitVec.ofNat 64 tap.val) 0 { i with silent := i.silent ++ [tap.val], opened := i.opened.map fun b => { b with gapTaps := b.gapTaps ++ [tap.val] } }) s.dev
      (s.dev.fuse.meter = true ∧ s.dev.isl.powered = true) →
      s.dev.isl.silent.contains tap.val = false →
      asleep d = false →
        exec (.tapSilence tap) s = .next (s.now ((meterNotify (reportError (srcTap tap.val) .contained caTapStall 0 0 1 d))))) ∧
  (∀ (s : State),
      let i := s.dev.isl
      let k := max (i.time / 1000) (i.ms + 1)
      let t := max i.time (k * 1000)
      let moved := (t - i.time) * 100000000000
      let slew : Int := if 0 ≤ i.slew then max 0 (i.slew - (moved / 1001 : Nat)) else min 0 (i.slew + (moved / 999 : Nat))
      (s.dev.fuse.meter = true ∧ s.dev.isl.powered = true) →
      s.dev.isl.timeUnset = false →
        exec .meterSample s = .next (s.now ((meterNotify (updIsl (fun i => { i with time := t, frac := if t = i.time then i.frac else 0, ms := k, slew := slew, opened := i.opened.map fun b => { b with recs := (i.beats.flatMap (·.2)).foldl sampleBeat b.recs } }) s.dev))))) ∧
  (∀ (s : State),
      (s.dev.fuse.meter = true ∧ s.dev.isl.powered = true) →
      s.dev.isl.timeUnset = false →
        exec .minuteBoundary s = .next (s.now ((meterNotify (minuteBoundary s.dev))))) ∧
  (∀ (b : MBlock) (s : State),
      let e : MBlock := { b with signed := true, signature := Config.rsaSign 1 (blockMsg s.dev.fuse.unitId b) }
      (s.dev.fuse.meter = true ∧ s.dev.isl.powered = true) →
      (s.dev.isl.blocks.find? (fun b => !b.signed) = some b) →
        exec .blockSigned s = .next (s.now ((meterNotify (updIsl (fun i => { i with blocks := i.blocks.map fun x => if x.seq = b.seq then e else x }) s.dev))))) ∧
  (∀ (ok : Bool) (b : MBlock) (s : State),
      (s.dev.fuse.meter = true ∧ s.dev.isl.powered = true) →
      (s.dev.isl.blocks.find? (fun b => b.signed && !b.inFlash) = some b ∧ ok = true) →
        exec (.flashWriteDone ok) s = .next (s.now ((meterNotify (updIsl (fun i => { i with flashHeld := false, flashEnd := max i.flashEnd b.fin, blocks := i.blocks.map fun x => if x.seq = b.seq then { x with inFlash := true } else x }) s.dev))))) ∧
  (∀ (ok : Bool) (b : MBlock) (s : State),
      (s.dev.fuse.meter = true ∧ s.dev.isl.powered = true) →
      (s.dev.isl.blocks.find? (fun b => b.signed && !b.inFlash) = some b ∧ ok = false) →
        exec (.flashWriteDone ok) s = .next (s.now ((meterNotify (updIsl (fun i => audit 13 0 0 { i with flashHeld := true }) s.dev))))) ∧
  (∀ (opened : Bool) (s : State),
      let n := min 0xFFFFFFFF (s.dev.isl.sealCount + 1)
      let mark := fun (i : Isl) => i.opened.map fun b => { b with sealOpen := b.sealOpen || opened }
      (s.dev.fuse.meter = true ∧ s.dev.isl.powered = true) →
      s.dev.isl.sealOpen ≠ opened →
        exec (.sealSample opened) s = .next (s.now ((meterNotify (updIsl (fun i => audit (if opened then 1 else 2) (BitVec.ofNat 64 n) 0 (if !opened && i.fwStatus == 1 then { i with sealOpen := opened, sealCount := n, opened := mark i, fwStage := [], fwStatus := 0 } else { i with sealOpen := opened, sealCount := n, opened := mark i })) s.dev))))) ∧
  (∀ (v : Bool) (s : State),
      (s.dev.fuse.meter = true ∧ s.dev.isl.powered = false) →
        exec (.islandPowerUp v) s = .next (s.now ((meterNotify (islandUp v s.dev))))) ∧
  (∀ (s : State),
      s.dev.fuse.meter = true →
        exec .vddMtrLoss s = .next (s.now ((meterNotify (updIsl (fun i => { i with powered := false, timeUnset := true, opened := none, blocks := i.blocks.filter (·.inFlash), lastEnd := i.flashEnd, beats := [], silent := [], full := false, flashHeld := false, wrIgnored := {}, rd0 := {}, rd1 := {}, slew := 0, adjs := [], adjResult := 0, fwOffset := 0, fwStatus := 0, fwStage := [], fwNew := none, fwChanged := false }) s.dev))))) ∧
  (∀ (s : State),
      let d := updIsl (fun i => { i with timeUnset := true }) s.dev
      (s.dev.fuse.meter = true ∧ s.dev.isl.powered = true) →
        exec .meterXoLoss s = .next (s.now ((meterNotify ((match d.isl.opened with | some b => if blockFits d b then storeBlock b d else d | none => d)))))) ∧
  (∀ (g : List Byte) (v : Word32) (s : State),
      (s.dev.fuse.meter = true ∧ s.dev.isl.powered = true) →
      s.dev.isl.fwStatus = 2 →
        exec (.mtrFwVerifyDone g v) s = .next (s.now ((meterNotify (if Config.rsaVerify s.dev.isl.fwKey (stageBytes s.dev.isl) g && decide (s.dev.fuse.mtrSvn ≤ v.toNat) then updIsl (fun i => { i with fwStatus := 3, fwNew := some v.toNat }) s.dev else updIsl (fun i => audit 10 (v.setWidth 64) 0 { i with fwStatus := 4 }) s.dev)))))

/-- A permitted write while the island has power sets or adjusts time, releases blocks, selects a page, and with the seal open sets trim, operator and
firmware; a window read answers the word and marks it read, 0 on a device without metering, and a free value where nothing is ready. The whole next
state is given: every register, queue, buffer, counter and flag it does not set is as before, but for what follows a command at once (State.after), of
which SettlingKeepsControlState says what it leaves alone. The rules followed: R385, R386, R387, R395, R396, R404, R405. What is the model's choice in
it: log entries 3, 5, 101, 102, 103, 160. -/
def Obligations.MeterWritesComplete : Prop :=
  (∀ (m : Master) (v : Wr) (s : State),
      atOnce m s →
      (s.dev.fuse.meter = true ∧ s.dev.isl.powered = true) →
      mayWrite s.dev m = true →
        exec (.mtrTimeSet m v) s = .next (s.now ((meterNotify (updIsl (timeSet v) s.dev))))) ∧
  (∀ (m : Master) (v : Wr) (s : State),
      atOnce m s →
      (s.dev.fuse.meter = true ∧ s.dev.isl.powered = true) →
      mayWrite s.dev m = true →
        exec (.mtrTimeAdj m v) s = .next (s.now ((meterNotify (updIsl (timeAdj v) s.dev))))) ∧
  (∀ (m : Master) (v : Wr) (s : State),
      atOnce m s →
      (s.dev.fuse.meter = true ∧ s.dev.isl.powered = true) →
      mayWrite s.dev m = true →
        exec (.mtrAck m v) s = .next (s.now ((meterNotify (updIsl (ackWrite s.dev.fuse.unitId v) s.dev))))) ∧
  (∀ (k : Fin 2) (m : Master) (v : Wr) (s : State),
      atOnce m s →
      (s.dev.fuse.meter = true ∧ s.dev.isl.powered = true) →
      mayWrite s.dev m = true →
        exec (.mtrRdSel k m v) s = .next (s.now ((meterNotify (updIsl (rdSelWrite k v) s.dev))))) ∧
  (∀ (m : Master) (v : Wr) (s : State),
      atOnce m s →
      (s.dev.fuse.meter = true ∧ s.dev.isl.powered = true) →
      (mayWrite s.dev m = true ∧ s.dev.isl.sealOpen = true) →
        exec (.trimSet m v) s = .next (s.now ((meterNotify (updIsl (trimWrite v) s.dev))))) ∧
  (∀ (m : Master) (v : Wr) (s : State),
      atOnce m s →
      (s.dev.fuse.meter = true ∧ s.dev.isl.powered = true) →
      (mayWrite s.dev m = true ∧ s.dev.isl.sealOpen = true) →
        exec (.operatorSet m v) s = .next (s.now ((meterNotify (updIsl (operatorWrite v) s.dev))))) ∧
  (∀ (m : Master) (v : Wr) (s : State),
      atOnce m s →
      (s.dev.fuse.meter = true ∧ s.dev.isl.powered = true) →
      (mayWrite s.dev m = true ∧ s.dev.isl.sealOpen = true) →
        exec (.mtrFwData m v) s = .next (s.now ((meterNotify (updIsl (fwDataWrite v) s.dev))))) ∧
  (∀ (m : Master) (v : Wr) (s : State),
      atOnce m s →
      (s.dev.fuse.meter = true ∧ s.dev.isl.powered = true) →
      (mayWrite s.dev m = true ∧ s.dev.isl.sealOpen = true) →
      (bit (wrBits v).2 60 = true ∧ fld (wrBits v).1 60 4 = 1) →
        exec (.mtrFwBegin m v) s = .next (s.now ((meterNotify (updIsl (fwCtlWrite v) s.dev))))) ∧
  (∀ (m : Master) (v : Wr) (s : State),
      atOnce m s →
      (s.dev.fuse.meter = true ∧ s.dev.isl.powered = true) →
      (mayWrite s.dev m = true ∧ s.dev.isl.sealOpen = true) →
      (bit (wrBits v).2 60 = true ∧ fld (wrBits v).1 60 4 = 2) →
        exec (.mtrFwActivate m v) s = .next (s.now ((meterNotify (updIsl (fwCtlWrite v) s.dev))))) ∧
  (∀ (k : Fin 2) (m : Master) (n : Fin 512) (lo hi : Bool) (s : State),
      atOnce m s →
      listens s →
      (mayWrite s.dev m = true ∧ s.dev.fuse.meter = false) →
        exec (.mtrWindowRead k m n lo hi) s = .next (s.now ((emit (.readData 0) s.dev)))) ∧
  (∀ (k : Fin 2) (m : Master) (n : Fin 512) (lo hi : Bool) (s : State),
      atOnce m s →
      listens s →
      (mayWrite s.dev m = true ∧ s.dev.fuse.meter = true ∧ (s.dev.isl.powered = false ∨ (getReader s.dev.isl k).ready = false)) →
        exec (.mtrWindowRead k m n lo hi) s = .next (s.now ((emit (.readData (takeFree s.dev).1) (takeFree s.dev).2)))) ∧
  (∀ (k : Fin 2) (m : Master) (n : Fin 512) (lo hi : Bool) (s : State),
      let v := windowWord s.dev k n.val
      atOnce m s →
      listens s →
      (mayWrite s.dev m = true ∧ s.dev.fuse.meter = true ∧ s.dev.isl.powered = true ∧ (getReader s.dev.isl k).ready = true) →
        exec (.mtrWindowRead k m n lo hi) s = .next (s.now ((emit (.readData ((if lo then v &&& 0xFFFFFFFF else 0) ||| (if hi then v &&& 0xFFFFFFFF00000000 else 0))) (updIsl (markRead k n.val (b2n lo + b2n hi * 2)) s.dev)))))

/-- A reset leaves what its rule keeps, with the mirrors at their reset values; a held reset is released; a verified slot starts or the next is tried; the
firmware starts; an image is stored; ACTIVATE begins in a permitted mode and ends with its code; COMMIT raises the anti-rollback count. The whole next
state is given: every register, queue, buffer, counter and flag it does not set is as before, but for what follows a command at once (State.after), of
which SettlingKeepsControlState says what it leaves alone. The rules followed: R374, R414, R436, R438, R443, R444, R452, R507, R508. What is the
model's choice in it: log entries 7, 10, 11, 16, 20, 23, 36, 93, 98, 106, 114, 115, 116, 161, 162. -/
def Obligations.ResetAndFirmwareComplete : Prop :=
  (∀ (role bs : BitVec 2) (rec_ : Bool) (s : State),
        exec (.powerOnReset role bs rec_) s = .next { s with dev := powerOn role bs rec_ s.dev, mir := powerOn role bs rec_ s.dev }) ∧
  (∀ (r : Bool) (s : State),
      listens s →
        exec (.deviceReset r) s = .next { s with dev := deviceReset r s.dev, mir := deviceReset r s.dev }) ∧
  (∀ (s : State),
        exec .supplyBrownout s = .next { s with dev := holdReset s.dev, mir := holdReset s.dev }) ∧
  (∀ (s : State),
        exec .mgmtXoLoss s = .next { s with dev := holdReset s.dev, mir := holdReset s.dev }) ∧
  (∀ (role bs : BitVec 2) (rec_ : Bool) (s : State),
      asleep s.dev = true →
        exec (.internalResetRelease role bs rec_) s = .next { s with dev := powerOn role bs rec_ s.dev, mir := powerOn role bs rec_ s.dev }) ∧
  (∀ (slot : Bool) (more : List Bool) (s : State),
      let d := bootRecord (slotPref s.dev) (bootFails s.dev + 1) s.dev
      listens s →
      s.dev.boot.phase = .verify slot more →
      (verifyImage s.dev (slotBytes s.dev slot) = 0 ∨ more ≠ []) →
        exec .slotVerifyDone s = .next (s.now ((if verifyImage s.dev (slotBytes s.dev slot) = 0 then startFirmware (slotBytes s.dev slot) { d with boot := { d.boot with slotRun := slot } }
          else { s.dev with boot := { s.dev.boot with phase := .verify (more.headD false) more.tail } })))) ∧
  (∀ (slot : Bool) (s : State),
      let d := ownReset (bootRecord (slotPref s.dev) (bootFails s.dev + 1) s.dev)
      s.dev.boot.phase = .verify slot [] →
      verifyImage s.dev (slotBytes s.dev slot) ≠ 0 →
        exec .slotVerifyDone s = .next { s with dev := d, mir := d }) ∧
  (∀ (s : State),
      let d := loadBoard s.dev
      let e := if d.boot.service then d else bootRecord (slotPref d) 0 d
      let k := allPorts.foldl (fun d p => startTraining p d) { e with mode := if e.mode = .quarantine then .quarantine else .configure, boot := { e.boot with phase := .running } }
      listens s →
      s.dev.boot.phase = .starting →
        exec .bootComplete s = .next (s.after ((if roleManager k && k.mode = .configure then changeMode .manager 0 k else k)))) ∧
  (∀ (s : State),
      s.dev.boot.phase = .starting →
        exec .quillWatchdog s = .next { s with dev := ownReset s.dev, mir := ownReset s.dev }) ∧
  (∀ (s : State),
      listens s →
      s.dev.boot.phase ≠ .starting →
      (getRec s.dev srcQuill).masked = false →
        exec .quillWatchdog s = .next (s.after ((report srcQuill .fatal caWatchdog 0 0 1 (emit .quillRestart s.dev))))) ∧
  (∀ (n : Fin 4) (f : Frame) (s : State),
      frameReaches 9 n f s →
        exec (.image n f) s = .next (s.now ((svcRun (routeFrame f (some (n.val, frameBuf n.val s.dev)) mgrTake (fun f d => imageIn n.val f d) (frameStored n.val f s.dev)))))) ∧
  (∀ (m : Master) (v : Wr) (s : State),
      let d := putReg 0x40 1 (mergeWr (fwCtl s.dev) 0x0000FFFF00000001 v) s.dev
      atOnce m s →
      listens s →
      (isFab m = true ∧ bit (wrBits v).2 60 = true ∧ fld (wrBits v).1 60 4 = 1) →
        exec (.fwActivate m v) s = .next (s.now ((if d.mode = .configure || d.mode = .transit || (d.mode = .drain && allDrained d) then setAct 1 { d with boot := { d.boot with actBusy := true } } else setAct 7 d)))) ∧
  (∀ (m : Master) (v : Wr) (s : State),
      let d := putReg 0x40 1 (mergeWr (fwCtl s.dev) 0x0000FFFF00000001 v) s.dev
      atOnce m s →
      listens s →
      (isFab m = true ∧ bit (wrBits v).2 60 = true ∧ fld (wrBits v).1 60 4 = 2) →
        exec (.fwCommit m v) s = .next (s.now ((setAct 9 { d with fuse := { d.fuse with svn := max d.fuse.svn (imgField d.boot.image 12 1) } })))) ∧
  (∀ (s : State),
      let img := slotBytes s.dev (idleSlot s.dev)
      let d : Dev := { s.dev with boot := { s.dev.boot with actBusy := false } }
      let e := setAct 2 (bootRecord (idleSlot s.dev) (bootFails s.dev) d)
      listens s →
      s.dev.boot.actBusy = true →
        exec .fwActivateDone s = .next (s.now ((if verifyImage s.dev img ≠ 0 then setAct (verifyImage s.dev img) d else if !generationOk s.dev img then setAct 6 d
          else if bit (fwCtl s.dev) 0 then { e with modeSt := { e.modeSt with resetReq := true } } else e))))

/-- Each SPDM request on a port whose link is up is answered; a test instruction is taken, with the level of SYS_RST_N it finds; an SMBus read answers
from the last sample with its PEC (PRESUMED, log entry 163) and a write is refused; the tick closes and becomes the sample. The whole next state is
given: every register, queue, buffer, counter and flag it does not set is as before, but for what follows a command at once (State.after), of which
SettlingKeepsControlState says what it leaves alone. The rules followed: R30, R34, R40, R455, R487, R511, R512. What is the model's choice in it: log
entries 3, 6, 16, 24, 79, 87, 90, 111, 117, 118, 122, 123, 128, 156, 163, 164. -/
def Obligations.SpdmAndPinInterfacesComplete : Prop :=
  (∀ (p : Fin 4) (s : State),
      listens s →
      (getHp s.dev p).linkUp = true →
        exec (.getVersion p) s = .next (s.now (({ emit (.spdm p .getVersion ([0x10, 0x04, 0, 0, 0, 1] ++ leBytes 2 0x1200)) s.dev with free := s.dev.free + 4 })))) ∧
  (∀ (p : Fin 4) (s : State),
      listens s →
      (getHp s.dev p).linkUp = true →
        exec (.getCapabilities p) s = .next (s.now (({ emit (.spdm p .getCapabilities (spdmHead 0x61 0 0 ++ [0] ++ spdmFree 1 s.dev ++ leBytes 2 0 ++ leBytes 4 0x16 ++ leBytes 8 (Config.freeWord (s.dev.free + 1)).toNat)) s.dev with free := s.dev.free + 4 })))) ∧
  (∀ (p : Fin 4) (s : State),
      listens s →
      (getHp s.dev p).linkUp = true →
        exec (.negotiateAlgorithms p) s = .next (s.now (({ emit (.spdm p .negotiateAlgorithms (spdmHead 0x63 0 0 ++ leBytes 2 36 ++ [1, 0] ++ leBytes 4 0x8 ++ leBytes 4 0x40 ++ leBytes 4 0x4 ++ leBytes 16 0)) s.dev with free := s.dev.free + 4 })))) ∧
  (∀ (p : Fin 4) (s : State),
      listens s →
      (getHp s.dev p).linkUp = true →
        exec (.getDigests p) s = .next (s.now (({ emit (.spdm p .getDigests (spdmHead 0x01 0 1 ++ Config.sha512 s.dev.boot.certChain)) s.dev with free := s.dev.free + 4 })))) ∧
  (∀ (p : Fin 4) (slot : Fin 8) (off len : Word16) (s : State),
      let tail := s.dev.boot.certChain.drop off.toNat
      let part := tail.take len.toNat
      listens s →
      (getHp s.dev p).linkUp = true →
        exec (.getCertificate p slot off len) s = .next (s.now (({ emit (.spdm p .getCertificate (if slot ≠ 0 || tail.isEmpty then spdmInvalid else spdmHead 0x02 0 0 ++ leBytes 2 part.length ++ leBytes 2 (tail.length - part.length) ++ part)) s.dev with free := s.dev.free + 4 })))) ∧
  (∀ (p : Fin 4) (req : List Byte) (s : State),
      let all := imgField req 3 1
      let sum := if all = 0xFF then Config.sha512 (s.dev.boot.meas.flatMap measBlock) else if all = 1 then Config.sha512 (Config.freeBytes (s.dev.free + 1)) else []
      listens s →
      (getHp s.dev p).linkUp = true →
      imgField req 2 1 = 0 →
        exec (.challenge p req) s = .next (s.now (({ emit (.spdm p .challenge (spdmSigned s.dev req (spdmHead 0x03 0 1 ++ Config.sha512 s.dev.boot.certChain ++ spdmNonce s.dev ++ sum ++ leBytes 2 0))) s.dev with free := s.dev.free + 4 })))) ∧
  (∀ (p : Fin 4) (req : List Byte) (s : State),
      let op := imgField req 3 1
      let ms := s.dev.boot.meas.filter fun m => op = 0xFF || m.1 = op
      let blocks := ms.flatMap measBlock
      let body := spdmHead 0x60 (if op = 0 then s.dev.boot.meas.length else 0) 0 ++ [BitVec.ofNat 8 ms.length] ++ leBytes 3 blocks.length ++ blocks ++ spdmNonce s.dev ++ leBytes 2 0
      listens s →
      (getHp s.dev p).linkUp = true →
      (op = 0 ∨ ms ≠ []) →
        exec (.getMeasurements p req) s = .next (s.now (({ emit (.spdm p .getMeasurements (if (imgField req 2 1).testBit 0 then spdmSigned s.dev req body else body)) s.dev with free := s.dev.free + 4 })))) ∧
  (∀ (p : Fin 4) (s : State),
      listens s →
      (getHp s.dev p).linkUp = true →
        exec (.spdmUnsupportedRequest p) s = .next (s.now (({ emit (.spdm p .unsupported ([0x12, 0x7F, 0x07] ++ spdmFree 1 s.dev)) s.dev with free := s.dev.free + 4 })))) ∧
  (∀ (s : State),
        exec .bypass s = .next { s with dev := { s.dev with jtag := { s.dev.jtag with ir := .bypass } } }) ∧
  (∀ (s : State),
        exec .samplePreload s = .next { s with dev := { s.dev with jtag := { s.dev.jtag with ir := .samplePreload } } }) ∧
  (∀ (s : State),
        exec .idcode s = .next { s with dev := emit (.jtagId 0x26404A6B) { s.dev with jtag := { s.dev.jtag with ir := .idcode } } }) ∧
  (∀ (r : Bool) (s : State),
        exec (.extest r) s = .next { s with dev := { s.dev with jtag := { ir := .extest, rstLow := r } } }) ∧
  (∀ (r : Bool) (s : State),
        exec (.extestPulse r) s = .next { s with dev := { s.dev with jtag := { ir := .extestPulse, rstLow := r } } }) ∧
  (∀ (r : Bool) (s : State),
        exec (.extestTrain r) s = .next { s with dev := { s.dev with jtag := { ir := .extestTrain, rstLow := r } } }) ∧
  (∀ (r : Bool) (s : State),
        exec (.clamp r) s = .next { s with dev := { s.dev with jtag := { ir := .clamp, rstLow := r } } }) ∧
  (∀ (r : Bool) (s : State),
        exec (.highz r) s = .next { s with dev := { s.dev with jtag := { ir := .highz, rstLow := r } } }) ∧
  (∀ (s : State),
      let v := smbSigned s.mir.therm.tjMax
      listens s →
        exec .smbReadTjMax s = .next (s.now ((emit (.smbus v (smbPec 0x01 v)) s.dev)))) ∧
  (∀ (s : State),
      let v := smbSigned s.mir.therm.hbm0.temp
      listens s →
        exec .smbReadHbm0Temp s = .next (s.now ((emit (.smbus v (smbPec 0x02 v)) s.dev)))) ∧
  (∀ (s : State),
      let v := smbSigned s.mir.therm.hbm1.temp
      listens s →
        exec .smbReadHbm1Temp s = .next (s.now ((emit (.smbus v (smbPec 0x03 v)) s.dev)))) ∧
  (∀ (s : State),
      let v := leBytes 2 (smbStatus s.mir)
      listens s →
        exec .smbReadStatus s = .next (s.now ((emit (.smbus v (smbPec 0x04 v)) s.dev)))) ∧
  (∀ (s : State),
      let v := leBytes 2 s.mir.pace.vdd
      listens s →
        exec .smbReadVddReq s = .next (s.now ((emit (.smbus v (smbPec 0x05 v)) s.dev)))) ∧
  (∀ (s : State),
      let v := leBytes 2 s.mir.pace.now
      listens s →
        exec .smbReadPace s = .next (s.now ((emit (.smbus v (smbPec 0x06 v)) s.dev)))) ∧
  (∀ (s : State),
      let v := 8 :: leBytes 8 s.mir.fuse.unitId.toNat
      listens s →
        exec .smbReadUnitId s = .next (s.now ((emit (.smbus v (smbPec 0x10 v)) s.dev)))) ∧
  (∀ (s : State),
      listens s →
        exec .smbWrite s = .next (s.now ((emit .smbusNack s.dev)))) ∧
  (∀ (counts : List Nat) (slots : List Int) (s : State),
      listens s →
        exec (.paceMeasurement counts slots) s = .next { s with dev := rest (closeTick counts slots s.dev), mir := rest (closeTick counts slots s.dev) })

/-- A selection write stages the new selection; CLEAR asks for the counters to be cleared; a window end latches the byte counts; the dump is enabled and,
at its boundary while running, writes a block or counts one missed. The whole next state is given: every register, queue, buffer, counter and flag it
does not set is as before, but for what follows a command at once (State.after), of which SettlingKeepsControlState says what it leaves alone. The
rules followed: R461, R465, R467, R469. What is the model's choice in it: log entries 118, 121, 165. -/
def Obligations.MonitorCommandsComplete : Prop :=
  (∀ (m : Master) (k : Fin 1024) (v : Wr) (s : State),
      let d := putReg (0x42000 + 8 * k.val) 0 (mergeWr (regInForce s.dev (0x42000 + 8 * k.val) 0) 0x80000000000F80FF v) s.dev
      atOnce m s →
      listens s →
      mayWrite s.dev m = true →
        exec (.pmuSelWrite m k v) s = .next (s.now (({ d with pmu := { d.pmu with selNew := d.pmu.selNew ++ [k.val] } })))) ∧
  (∀ (m : Master) (v : Wr) (s : State),
      let d := putReg 0x40000 0 (mergeWr (regInForce s.dev 0x40000 0) 0x2 v) s.dev
      atOnce m s →
      listens s →
      (mayWrite s.dev m = true ∧ bit (wrBits v).1 0 = true ∧ bit (wrBits v).2 0 = true) →
        exec (.pmuClear m v) s = .next (s.now (({ d with pmu := { d.pmu with clear := true } })))) ∧
  (∀ (s : State),
      let latch := !s.dev.pmu.bwSkip && counted s.dev 1 != 0
      listens s →
        exec .bwWindowEnd s = .next (s.now (({ s.dev with pmu := { s.dev.pmu with bwSkip := false }, ports := s.dev.ports.map fun p => (p.1, { p.2 with bwTx := if latch then p.2.bwTxNow else p.2.bwTx, bwRx := if latch then p.2.bwRxNow else p.2.bwRx, bwTxNow := 0, bwRxNow := 0 }) })))) ∧
  (∀ (m : Master) (v : Wr) (s : State),
      atOnce m s →
      listens s →
      (mayWrite s.dev m = true ∧ bit (wrBits v).2 63 = true) →
        exec (.dumpEnable m v) s = .next (s.now ((dumpCtlWrite v s.dev)))) ∧
  (∀ (s : State),
      let r := s.dev.pmu.dump
      let d : Dev := { s.dev with pmu := { s.dev.pmu with dumpSeq := s.dev.pmu.dumpSeq + 1 } }
      listens s →
      s.dev.pmu.dump.running = true →
        exec .dumpBoundary s = .next (s.now ((if fencedBlk s.dev 7 || decide (2 ^ r.log2 ≤ (r.written - (regInForce s.dev 0x40020 0).setWidth 32).toNat) then { d with pmu := { d.pmu with dump := { r with missed := r.missed + 1 } } } else writeDump s.mir d))))

/-- Each CMD of INK_CTL is carried out unless block 8 is fenced; a checkpoint, a full segment, recording that lags, the end of the post-trigger count, of
a transfer and of a replay move the recording on. The whole next state is given: every register, queue, buffer, counter and flag it does not set is as
before, but for what follows a command at once (State.after), of which SettlingKeepsControlState says what it leaves alone. The rules followed: R475,
R476, R477, R478, R479. What is the model's choice in it: log entries 3, 112, 119, 120. -/
def Obligations.InkwellCommandsComplete : Prop :=
  (∀ (m : Master) (v : Wr) (s : State),
      let d := putReg 0x50000 0x0400010000000000 (mergeWr (inkCtl s.dev) 0x0CFF7F0000000000 v) s.dev
      atOnce m s →
      listens s →
      (mayWrite s.dev m = true ∧ bit (wrBits v).2 60 = true ∧ fld (wrBits v).1 60 4 = 1) →
      fencedBlk d 8 = false →
        exec (.inkStart m v) s = .next (s.now ((inkStart d)))) ∧
  (∀ (m : Master) (v : Wr) (s : State),
      let d := putReg 0x50000 0x0400010000000000 (mergeWr (inkCtl s.dev) 0x0CFF7F0000000000 v) s.dev
      atOnce m s →
      listens s →
      (mayWrite s.dev m = true ∧ bit (wrBits v).2 60 = true ∧ fld (wrBits v).1 60 4 = 2) →
      fencedBlk d 8 = false →
        exec (.inkStop m v) s = .next (s.now ((inkHalt d)))) ∧
  (∀ (m : Master) (v : Wr) (s : State),
      let d := putReg 0x50000 0x0400010000000000 (mergeWr (inkCtl s.dev) 0x0CFF7F0000000000 v) s.dev
      atOnce m s →
      listens s →
      (mayWrite s.dev m = true ∧ bit (wrBits v).2 60 = true ∧ fld (wrBits v).1 60 4 = 3) →
      fencedBlk d 8 = false →
        exec (.inkDiscard m v) s = .next (s.now ((inkDiscard d)))) ∧
  (∀ (m : Master) (v : Wr) (s : State),
      let d := putReg 0x50000 0x0400010000000000 (mergeWr (inkCtl s.dev) 0x0CFF7F0000000000 v) s.dev
      atOnce m s →
      listens s →
      (mayWrite s.dev m = true ∧ bit (wrBits v).2 60 = true ∧ fld (wrBits v).1 60 4 = 4) →
      fencedBlk d 8 = false →
        exec (.inkTransfer m v) s = .next (s.now ((inkTransfer d)))) ∧
  (∀ (m : Master) (v : Wr) (s : State),
      let d := putReg 0x50000 0x0400010000000000 (mergeWr (inkCtl s.dev) 0x0CFF7F0000000000 v) s.dev
      atOnce m s →
      listens s →
      (mayWrite s.dev m = true ∧ bit (wrBits v).2 60 = true ∧ fld (wrBits v).1 60 4 = 5) →
      fencedBlk d 8 = false →
        exec (.inkReplay m v) s = .next (s.now ((inkReplay d)))) ∧
  (∀ (s : State),
      let d0 := inkRetire (fun _ => true) s.dev
      let d : Dev := if isEngine d0.ink.unit then { d0 with xpt := { d0.xpt with onDie := d0.xpt.onDie.filter fun n => servedSlot d0 d0.ink.unit != some (connSlot n) } } else d0
      listens s →
      s.dev.ink.st = 1 →
        exec .inkCheckpointDone s = .next (s.now (({ d with ink := { d.ink with st := 2, ckpt := false, segs := tput d.ink.segs d.ink.current { head := segHead d, used := true } } })))) ∧
  (∀ (s : State),
      let d0 := inkRetire (fun _ => true) s.dev
      let d : Dev := if isEngine d0.ink.unit then { d0 with xpt := { d0.xpt with onDie := d0.xpt.onDie.filter fun n => servedSlot d0 d0.ink.unit != some (connSlot n) } } else d0
      let n := (d.ink.current + 1) % 8
      let e : Dev := { d with ink := { d.ink with current := n, segNo := d.ink.segNo + 1, oldest := if thas d.ink.segs n then (n + 1) % 8 else d.ink.oldest } }
      listens s →
      (s.dev.ink.st = 2 ∧ s.dev.ink.ckpt = true) →
        exec .inkCheckpointDone s = .next (s.now (({ e with ink := { e.ink with ckpt := false, segs := tput e.ink.segs n { head := segHead e, used := true } } })))) ∧
  (∀ (s : State),
      listens s →
      ((s.dev.ink.st = 2 ∧ s.dev.ink.ckpt = false) ∨ (s.dev.ink.st = 3 ∧ s.dev.ink.stop = 2 ∧ s.dev.ink.stopAt = s.dev.clk.ticks)) →
      (s.dev.ink.wrap = false ∧ s.dev.ink.current = 7) →
        exec (.inkSegmentFull { lag := false }) s = .next (s.now ((inkStop 3 (segFull s.dev))))) ∧
  (∀ (s : State),
      let d := segFull s.dev
      listens s →
      (s.dev.ink.st = 2 ∧ s.dev.ink.ckpt = false) →
      (s.dev.ink.wrap = true ∨ s.dev.ink.current ≠ 7) →
        exec (.inkSegmentFull { lag := false }) s = .next (s.now (({ d with ink := { d.ink with ckpt := true } })))) ∧
  (∀ (s : State),
      listens s →
      (s.dev.ink.st = 2 ∧ s.dev.ink.ckpt = false) →
      s.dev.ink.pressure = false →
        exec (.inkSegmentFull { lag := true }) s = .next (s.now ((inkStop 6 { s.dev with ink := { s.dev.ink with segs := tmod s.dev.ink.segs s.dev.ink.current fun g => { g with damaged := true } } })))) ∧
  (∀ (s : State),
      listens s →
      (s.dev.ink.st = 2 ∧ s.dev.ink.ckpt = false) →
      s.dev.ink.pressure = true →
        exec (.inkSegmentFull { lag := true }) s = .next s) ∧
  (∀ (s : State),
      listens s →
      (s.dev.ink.st = 2 ∧ s.dev.ink.trig = true) →
        exec .inkPostTriggerEnd s = .next (s.now ((inkStop 2 s.dev)))) ∧
  (∀ (heads : List (List Byte)) (s : State),
      listens s →
      (s.dev.ink.st = 4 ∧ s.dev.ink.imp = false) →
        exec (.inkTransferDone heads) s = .next (s.now (({ s.dev with ink := { s.dev.ink with st := 3 } })))) ∧
  (∀ (heads : List (List Byte)) (s : State),
      let g := importSegs heads
      listens s →
      (s.dev.ink.st = 4 ∧ s.dev.ink.imp = true) →
        exec (.inkTransferDone heads) s = .next (s.now (({ s.dev with ink := { s.dev.ink with st := 3, imp := false, segs := g, unit := (match g.head? with | some x => imgField x.2.head 4 4 | none => s.dev.ink.unit), oldest := pickSeg (fun a b => decide (a < b)) g, current := pickSeg (fun a b => decide (b < a)) g } })))) ∧
  (∀ (r : InkEnd) (b : Bool) (s : State),
      listens s →
      (s.dev.ink.st = 5 ∧ replayRecs s.dev = ([], b)) →
        exec (.inkReplayDone r) s = .next (s.now (({ s.dev with ink := { s.dev.ink with st := 3, result := if b then 4 else 2 } })))) ∧
  (∀ (r : InkEnd) (b : Bool) (q : Nat) (x : InkRec) (rest : List (Nat × InkRec)) (s : State),
      let d : Dev := { s.dev with ink := { s.dev.ink with cmpOps := s.dev.ink.cmpOps + 1 } }
      listens s →
      (s.dev.ink.st = 5 ∧ replayRecs s.dev = ((q, x) :: rest, b)) →
      (x.kind = 4 ∧ r.made.head?.getD (word x.data 8) = word x.data 8) →
        exec (.inkReplayDone r) s = .next (s.now ((replayRun b rest r.made.tail d)))) ∧
  (∀ (r : InkEnd) (a : Word64) (b : Bool) (q : Nat) (x : InkRec) (rest : List (Nat × InkRec)) (s : State),
      let k : Ink := { s.dev.ink with cmpOps := s.dev.ink.cmpOps + 1 }
      listens s →
      (s.dev.ink.st = 5 ∧ replayRecs s.dev = ((q, x) :: rest, b)) →
      (x.kind = 4 ∧ r.made.head? = some a ∧ a ≠ word x.data 8) →
        exec (.inkReplayDone r) s = .next (s.now (({ s.dev with ink := { k with st := 3, result := 3, divIndex := (word x.data 0).toNat, divField := word x.data 8, divReplay := a, divPos := q } })))) ∧
  (∀ (r : InkEnd) (a : Word64) (b : Bool) (q : Nat) (x : InkRec) (rest : List (Nat × InkRec)) (s : State),
      let i := takeFree s.dev
      let v := takeFree i.2
      listens s →
      (s.dev.ink.st = 5 ∧ replayRecs s.dev = ((q, x) :: rest, b)) →
      (x.kind = 2 ∧ r.made.head? = some a ∧ a ≠ word x.data 0) →
        exec (.inkReplayDone r) s = .next (s.now (({ v.2 with ink := { v.2.ink with st := 3, result := 3, divIndex := i.1.toNat % 2 ^ 48, divField := 0, divReplay := v.1, divPos := q } })))) ∧
  (∀ (r : InkEnd) (b : Bool) (q : Nat) (x : InkRec) (rest : List (Nat × InkRec)) (s : State),
      listens s →
      (s.dev.ink.st = 5 ∧ replayRecs s.dev = ((q, x) :: rest, b)) →
      (x.kind ≠ 2 ∧ x.kind ≠ 4) →
        exec (.inkReplayDone r) s = .next (s.now ((replayRun b rest r.made s.dev))))

/-- A permitted, aligned register write acts on the register its offset names; a write of a doorbell or of the interrupt table reaches its queue or entry;
a read answers from the sample and clears what a read clears, 0 where no register or only a doorbell is, the table's words in BAR4; an access that is
misaligned or of another width ends as an Unsupported Request and no more. CFG_COMMIT that names blocks while none is pending stages them with the
values of that moment; the evaluation puts them in force, or gives the block and code that refuse and changes no set. A sweep no write abandoned
updates the checksum, takes it as the reference where that was asked, and compares; CAPTURE asks for that; LOCK locks. A mismatch of an in-force copy
marks the register, fences its block and is recorded, one of a function's fences the function; one of a staged copy is recorded and blocks the commit.
The whole next state is given: every register, queue, buffer, counter and flag it does not set is as before, but for what follows a command at once
(State.after), of which SettlingKeepsControlState says what it leaves alone. The rules followed: R13, R15, R53, R54, R488, R489, R490, R492, R494,
R496, R498. What is the model's choice in it: log entries 5, 12, 13, 21, 34, 43, 44, 80, 88, 96, 107, 110, 111, 112, 113, 127, 160. -/
def Obligations.ConfigurationCommandsComplete : Prop :=
  (∀ (m : Master) (off : Fin 0x200000) (v : Wr) (k : Nat) (s : State),
      atOnce m s →
      listens s →
      (badAccess s.dev m off.val false = false ∧ off.val % 8 = 0) →
      (baseOf off.val = some k ∧ k ≠ 0x1020 ∧ k ≠ 0x1028 ∧ mayWriteReg s.dev m k = true) →
      (match m with | .fn f => f.num.val = 0 ∨ off.val < 0x4000 | .fabricManager => True) →
        exec (.registerWrite m .bar0 off (some v)) s = .next (s.after ((writeReg (windowOf s.dev m) k v s.dev)))) ∧
  (∀ (m : Master) (k : Bar) (off : Fin 0x200000) (v : Option Wr) (s : State),
      atOnce m s →
      listens s →
      badAccess s.dev m off.val v.isNone = true →
        exec (.registerWrite m k off v) s = .next (s.now ((emit (.unsupported (portOf s.dev m)) s.dev)))) ∧
  (∀ (f : FnId) (off : Fin 0x200000) (v : Wr) (s : State),
      atOnce (.fn f) s →
      (badAccess s.dev (.fn f) off.val false = false ∧ 0 ≤ off.val / 8 ∧ off.val / 8 < 0x10000) →
        exec (.registerWrite (.fn f) .bar2 off (some v)) s = exec (.sqDoorbell f (Fin.ofNat 65536 (off.val / 8)) v) s) ∧
  (∀ (f : FnId) (off : Fin 0x200000) (v : Wr) (s : State),
      atOnce (.fn f) s →
      (badAccess s.dev (.fn f) off.val false = false ∧ 0x10000 ≤ off.val / 8 ∧ off.val / 8 < 0x20000) →
        exec (.registerWrite (.fn f) .bar2 off (some v)) s = exec (.cqDoorbell f (Fin.ofNat 65536 (off.val / 8 - 0x10000)) v) s) ∧
  (∀ (f : FnId) (off : Fin 0x200000) (v : Wr) (s : State),
      atOnce (.fn f) s →
      (badAccess s.dev (.fn f) off.val false = false ∧ 0x20000 ≤ off.val / 8 ∧ off.val / 8 < 0x21000) →
        exec (.registerWrite (.fn f) .bar2 off (some v)) s = exec (.eqDoorbell f (Fin.ofNat 4096 (off.val / 8 - 0x20000)) v) s) ∧
  (∀ (f : FnId) (off : Fin 0x200000) (v : Wr) (s : State),
      atOnce (.fn f) s →
      listens s →
      (badAccess s.dev (.fn f) off.val false = false ∧ off.val / 8 < 4096 ∧ fnExists s.dev f = true) →
        exec (.registerWrite (.fn f) .bar4 off (some v)) s = .next (s.after ((firePending f (updFn f (fun x => { x with msix := tput x.msix (off.val / 8) (mergeWr (msixWord x (off.val / 8)) 0xFFFFFFFFFFFFFFFF v) }) s.dev))))) ∧
  (∀ (m : Master) (off : Fin 0x200000) (a : Part) (k : Nat) (s : State),
      let r := readAccess s.mir (windowOf s.dev m) k (partLo a) (partHi a) s.dev
      atOnce m s →
      listens s →
      (badAccess s.dev m off.val false = false ∧ baseOf off.val = some k ∧ mayReach s.dev m k = true) →
      (match m with | .fn f => f.num.val = 0 ∨ off.val < 0x4000 | .fabricManager => True) →
        exec (.clearOnRead m .bar0 off (some a)) s = .next (s.now ((emit (.readData r.1) r.2)))) ∧
  (∀ (m : Master) (off : Fin 0x200000) (a : Part) (s : State),
      atOnce m s →
      listens s →
      (badAccess s.dev m off.val false = false ∧ baseOf off.val = none) →
        exec (.clearOnRead m .bar0 off (some a)) s = .next (s.now ((emit (.readData 0) s.dev)))) ∧
  (∀ (f : FnId) (off : Fin 0x200000) (a : Part) (s : State),
      atOnce (.fn f) s →
      listens s →
      badAccess s.dev (.fn f) off.val false = false →
        exec (.clearOnRead (.fn f) .bar2 off (some a)) s = .next (s.now ((emit (.readData 0) s.dev)))) ∧
  (∀ (f : FnId) (off : Fin 0x200000) (a : Part) (s : State),
      atOnce (.fn f) s →
      listens s →
      badAccess s.dev (.fn f) off.val false = false →
        exec (.clearOnRead (.fn f) .bar4 off (some a)) s = .next (s.now ((emit (.readData (partOf a (msixRead s.dev f off.val))) s.dev)))) ∧
  (∀ (m : Master) (k : Bar) (off : Fin 0x200000) (a : Option Part) (s : State),
      atOnce m s →
      listens s →
      badAccess s.dev m off.val a.isNone = true →
        exec (.clearOnRead m k off a) s = .next (s.now ((emit (.unsupported (portOf s.dev m)) s.dev)))) ∧
  (∀ (m : Master) (v : Wr) (s : State),
      let n := fld ((wrBits v).1 &&& (wrBits v).2) 0 11
      atOnce m s →
      listens s →
      (mayWrite s.dev m = true ∧ n ≠ 0 ∧ s.dev.cfg.busy = false) →
        exec (.cfgCommit m v) s = .next (s.now (({ s.dev with cfg := { s.dev.cfg with commit := some n, busy := true, snap := s.dev.stg, snapGcl := s.dev.tc.gclStg } })))) ∧
  (∀ (m : Master) (v : Wr) (s : State),
      atOnce m s →
      listens s →
      (mayWrite s.dev m = true ∧ (fld ((wrBits v).1 &&& (wrBits v).2) 0 11 = 0 ∨ s.dev.cfg.busy = true)) →
        exec (.cfgCommit m v) s = .next (s.now ((s.dev)))) ∧
  (∀ (n : Nat) (s : State),
      let d := commitAll n s.dev
      listens s →
      (s.dev.cfg.commit = some n ∧ commitFails s.dev n = none) →
        exec .commitEvaluation s = .next (s.after (({ d with cfg := { d.cfg with commit := none, busy := false, snap := [], snapGcl := [], err := none } })))) ∧
  (∀ (n : Nat) (e : Nat × Nat) (s : State),
      listens s →
      (s.dev.cfg.commit = some n ∧ commitFails s.dev n = some e) →
        exec .commitEvaluation s = .next (s.after (({ s.dev with cfg := { s.dev.cfg with commit := none, busy := false, snap := [], snapGcl := [], err := some e } })))) ∧
  (∀ (s : State),
      let d : Dev := { s.dev with cfg := { s.dev.cfg with crcNow := cfgCrc s.dev, crcValid := true } }
      listens s →
      s.dev.cfg.dirty = false →
        exec .crcSweepComplete s = .next (s.after ((crcCompare (if s.dev.cfg.capture then { d with regs := tput d.regs 0x70018 ((cfgCrc s.dev).setWidth 64), cfg := { d.cfg with capture := false } } else d))))) ∧
  (∀ (m : Master) (v : Wr) (s : State),
      let d := if s.dev.cfg.lock then s.dev else storeReg 0x70008 v s.dev
      atOnce m s →
      listens s →
      (mayWrite s.dev m = true ∧ bit ((wrBits v).1 &&& (wrBits v).2) 62 = true) →
        exec (.crcCapture m v) s = .next (s.now (({ d with cfg := { d.cfg with capture := true } })))) ∧
  (∀ (m : Master) (v : Wr) (s : State),
      atOnce m s →
      listens s →
      (mayWrite s.dev m = true ∧ bit ((wrBits v).1 &&& (wrBits v).2) 0 = true) →
        exec (.cfgLock m v) s = .next (s.now (({ s.dev with cfg := { s.dev.cfg with lock := true } })))) ∧
  (∀ (f : FnId) (off : Fin 0x80000) (s : State),
      let b := blockOf off.val
      listens s →
      (blockOf off.val ≠ 1 ∧ hasParity s.dev off.val = true) →
        exec (.regParityMismatch f off) s = .next (s.after ((parityRecord off.val (fenceEffect s.dev off.val { s.dev with cfg := { s.dev.cfg with
      bad := s.dev.cfg.bad ++ [(b, off.val)], hit := s.dev.cfg.hit ++ [(b, off.val)], fenced := Nat.lor s.dev.cfg.fenced (2 ^ b) } }))))) ∧
  (∀ (f : FnId) (off : Fin 0x80000) (s : State),
      let place := if off.val < 0x2000 then (off.val - 0x1000) / 8 else 8 + (off.val - 0x2000) / 8
      listens s →
      (blockOf off.val = 1 ∧ fnHasParity off.val = true ∧ fnExists s.dev f = true) →
        exec (.regParityMismatch f off) s = .next (s.after ((report (srcRegParity 1) .contained caRegParity (BitVec.ofNat 8 place) (fnObject f) 1
      (updFn f (fun x => { x with fenced := true }) { s.dev with cfg := { s.dev.cfg with fenced := Nat.lor s.dev.cfg.fenced 2 } }))))) ∧
  (∀ (off : Fin 0x80000) (a r : Word64) (e : Nat) (s : State),
      listens s →
      (regT off.val = some (a, r, e) ∧ r ≠ 0) →
        exec (.stagedParityMismatch off) s = .next (s.after ((parityRecord off.val { s.dev with cfg := { s.dev.cfg with stagedBad := s.dev.cfg.stagedBad ++ [(blockOf off.val, off.val)] } }))))

/-- MTR_TIME_SET is taken only whole, while TIME_UNSET is 1 and not before the end of the last block: then the time is the value, its second part 0,
TIME_UNSET 0, a block is open, kind 4 logged with the new and the old time; any other write is counted as ignored. MTR_TIME_ADJ is refused with result
3 while the time is unset, 4 beyond 1 s, 2 beyond 1 s of adjustment in a day, each counted as ignored and logged as kind 6; else result 1, what is to
be absorbed grows by it, kind 5 is logged and the adjustment remembered. A write of the trim or the operator word stores it and logs kind 7 or 8 with
the new and the old value. MTR_FW_DATA stores a word at OFFSET and adds 8 to it while status is 1, and is ignored else; MTR_FW_CTL stores OFFSET,
BEGIN empties the stage with status 1, ACTIVATE gives status 2 and forgets an image verified before. A write of a reader's select stores it, READY 0,
and leaves the other reader. A minute boundary with the time unset closes and opens nothing; with room it stores the open block, whose pages nothing
read loses, and opens the next one; without, the block stays open, one minute longer, with FULL 1. The register writes log while fewer than 32,512
entries stand; each keeps every other field of the island, and a minute every other part of the device. -/
def Obligations.MeterWritesDoWhatTheirRulesSay : Prop :=
  let logged := fun (kind : Nat) (a b : Word64) (i t : Isl) =>
    t.audit = if i.audit.length < 32512 then i.audit ++ [{ seq := i.audit.length + 1, time := t.time, kind := kind, a := a, b := b, sealNo := i.sealCount, prev := auditDigest i }] else i.audit
  (∀ (w : Wr) (i : Isl), (∀ v, w ≠ .full v) → timeSet w i = { i with wrIgnored := i.wrIgnored.add 1 }) ∧
  (∀ (v : Word64) (i : Isl), i.timeUnset = false ∨ v.toNat < i.lastEnd → timeSet (.full v) i = { i with wrIgnored := i.wrIgnored.add 1 }) ∧
  (∀ (v : Word64) (i : Isl), i.timeUnset = true → i.lastEnd ≤ v.toNat → ∃ t, timeSet (.full v) i = t ∧
    t.opened.isSome = true ∧ logged 4 v (BitVec.ofNat 64 i.time) i t ∧
    t = { i with time := v.toNat, frac := 0, timeUnset := false, ms := v.toNat / 1000, min := v.toNat / 60000000
                 audit := t.audit, opened := t.opened, fwChanged := false }) ∧
  (∀ (w : Wr) (i : Isl), bit (wrBits w).2 0 = true →
    let x : Int := ((wrBits w).1.setWidth 32).toInt
    let t := timeAdj w i
    (if i.timeUnset ∨ 1000000 < x.natAbs ∨ 1000000 < adjUsed i + x.natAbs then
      t.adjResult = (if i.timeUnset then 3 else if 1000000 < x.natAbs then 4 else 2) ∧ t.slew = i.slew ∧ t.adjs = i.adjs ∧
        t.wrIgnored = i.wrIgnored.add 1 ∧ logged 6 (BitVec.ofInt 64 x) 0 i t
    else
      t.adjResult = 1 ∧ t.slew = i.slew + x * 100000000000 ∧ (i.time, x.natAbs) ∈ t.adjs ∧ adjUsed t = adjUsed i + x.natAbs ∧
        t.wrIgnored = i.wrIgnored ∧ logged 5 (BitVec.ofInt 64 x) 0 i t) ∧
    t = { i with adjResult := t.adjResult, slew := t.slew, adjs := t.adjs, wrIgnored := t.wrIgnored, audit := t.audit }) ∧
  (∀ (w : Wr) (i : Isl), bit (wrBits w).2 0 = true → ∃ t, trimWrite w i = t ∧
    t.trimUsr = (wrBits w).1.setWidth 16 ∧ logged 7 (t.trimUsr.signExtend 64) (i.trimUsr.signExtend 64) i t ∧
    t = { i with trimUsr := t.trimUsr, audit := t.audit }) ∧
  (∀ (w : Wr) (i : Isl), ∃ t, operatorWrite w i = t ∧ t.operator = (i.operator &&& ~~~(wrBits w).2) ||| ((wrBits w).1 &&& (wrBits w).2) ∧
    logged 8 t.operator i.operator i t ∧ t = { i with operator := t.operator, audit := t.audit }) ∧
  (∀ (w : Wr) (i : Isl), (i.fwStatus ≠ 1 → fwDataWrite w i = { i with wrIgnored := i.wrIgnored.add 1 }) ∧
    (i.fwStatus = 1 → ∃ t, fwDataWrite w i = t ∧ t.fwOffset = (i.fwOffset + 8) % 2 ^ 32 ∧ (∀ k, k ≠ i.fwOffset → tget t.fwStage k = tget i.fwStage k) ∧
      tget t.fwStage i.fwOffset = some (((tget i.fwStage i.fwOffset).getD 0 &&& ~~~(wrBits w).2) ||| ((wrBits w).1 &&& (wrBits w).2)) ∧
      t = { i with fwOffset := t.fwOffset, fwStage := t.fwStage })) ∧
  (∀ (v : Word64) (i : Isl), let t := fwCtlWrite (.full v) i
    t.fwOffset / 8 = v.toNat % 2 ^ 32 / 8 ∧
    (fld v 60 4 = 1 → t = { i with fwOffset := t.fwOffset, fwStage := [], fwStatus := 1, fwNew := none }) ∧
    (fld v 60 4 = 2 → t = { i with fwOffset := t.fwOffset, fwStatus := 2, fwNew := none }) ∧
    (fld v 60 4 ≠ 1 → fld v 60 4 ≠ 2 → t = { i with fwOffset := t.fwOffset })) ∧
  (∀ (k : Fin 2) (v : Word64) (i : Isl), let t := rdSelWrite k (.full v) i
    (getReader t k).sel &&& 0x033FFFFFFFFFFFFF = v &&& 0x033FFFFFFFFFFFFF ∧ (getReader t k).ready = false ∧
    (∀ j, j ≠ k → getReader t j = getReader i j) ∧ t = { i with rd0 := t.rd0, rd1 := t.rd1 }) ∧
  ∀ d : Dev, ∃ t, minuteBoundary d = t ∧ t = { d with isl := t.isl } ∧ t.isl.trimEff = trimSum d ∧ d.isl.min < t.isl.min ∧
    d.isl.time ≤ t.isl.time ∧ t.isl.min * 60000000 ≤ t.isl.time ∧
    (d.isl.timeUnset = true → t.isl.opened = d.isl.opened ∧ t.isl.blocks = d.isl.blocks ∧ t.isl.full = d.isl.full ∧ t.isl.seqNext = d.isl.seqNext) ∧
    (∀ b, d.isl.timeUnset = false → d.isl.opened = some b →
      (blockFits d b = true → ∃ c n, c.seq = b.seq ∧ c.fin = t.isl.time ∧ c.span = b.span + 1 ∧ c.recs = closeRecs b ∧ t.isl.blocks = trimRing d.isl.acked (d.isl.blocks ++ [c]).length (d.isl.blocks ++ [c]) ∧
        t.isl.opened = some n ∧ t.isl.full = false ∧ t.isl.seqNext = d.isl.seqNext + 1 ∧ t.isl.lastEnd = t.isl.time) ∧
      (blockFits d b = false → t.isl.opened = some { b with span := b.span + 1 } ∧ t.isl.full = true ∧ t.isl.blocks = d.isl.blocks ∧ t.isl.seqNext = d.isl.seqNext))

/-- START is refused with CMD_ERR 1 unless STATE is 0 or 3, 2 in a mode that does not record, 3 where the memory lacks SIZE_GIB or it is not 1 to 64, 4
where UNIT is not an engine or unit that works; else the recording held is gone and STATE is 1 with the SIZE_GIB, UNIT, WRAP and PRESSURE of the
register. TRANSFER is refused with 1 while a recording, a transfer or a replay runs, for an export without a recording, and without an owner function;
with 2 in Quarantine and for an import outside Configure and Replay; with 3 as START; else STATE is 4, an import's region replaces the recording, and
the copy asked for names the owner's port, the first page, the host address and the length in bytes. REPLAY is refused with 1 without a recording that
has a good segment, 2 outside Replay mode, 4 where the unit does not work or is of the other kind, 5 where a segment kept is not this device's; else
STATE is 5 and the results of the last replay are cleared. Every other part of the device is as before. -/
def Obligations.InkwellControlChecksInOrder : Prop :=
  ∀ d : Dev,
  let refused := fun (k : Nat) (t : Dev) => t = { d with ink := { d.ink with err := k } }
  let c := inkCtl d
  let x := xferCtl d
  let u := fld (regInForce d 0x50028 0) 48 8
  let room := (1 ≤ fld c 40 7 ∧ fld c 40 7 ≤ 64) ∧ poolBase d + fld c 40 7 * gib ≤ poolOf (hbmPart d)
  let works := fun n => (n < 34 ∧ d.eng.failed.testBit n = false) ∨ (0x40 ≤ n ∧ n < 0x48 ∧ d.tre.failed.testBit (n - 0x40) = false)
  let idle := d.ink.st = 0 ∨ d.ink.st = 3
  let records := d.mode = .worker ∨ d.mode = .manager ∨ d.mode = .transit ∨ d.mode = .drain
  (¬ idle → refused 1 (inkStart d)) ∧ (idle → ¬ records → refused 2 (inkStart d)) ∧ (idle → records → ¬ room → refused 3 (inkStart d)) ∧
  (idle → records → room → ¬ works (fld c 48 8) → refused 4 (inkStart d)) ∧
  (idle → records → room → works (fld c 48 8) → inkStart d =
    { d with ink := { st := 1, gib := fld c 40 7, unit := fld c 48 8, wrap := bit c 59, pressure := bit c 58 } }) ∧
  (let busy := d.ink.st = 1 ∨ d.ink.st = 2 ∨ d.ink.st = 4 ∨ d.ink.st = 5 ∨ (bit x 63 = false ∧ d.ink.st ≠ 3) ∨ hasOwner d = false
   let barred := d.mode = .quarantine ∨ (bit x 63 = true ∧ d.mode ≠ .configure ∧ d.mode ≠ .replay)
   (busy → refused 1 (inkTransfer d)) ∧ (¬ busy → barred → refused 2 (inkTransfer d)) ∧
   (¬ busy → ¬ barred → bit x 63 = true → ¬ room → refused 3 (inkTransfer d)) ∧
   (¬ busy → ¬ barred → bit x 63 = true → room → inkTransfer d =
     emit (.inkCopy (ownerPort d) true (fld x 0 24) (regInForce d 0x50018 0).toNat (fld x 32 24 * 4096) []) { d with ink := { gib := fld c 40 7, st := 4, imp := true } }) ∧
   (¬ busy → ¬ barred → bit x 63 = false → ∃ bytes, inkTransfer d =
     emit (.inkCopy (ownerPort d) false (fld x 0 24) (regInForce d 0x50018 0).toNat (fld x 32 24 * 4096) bytes)
       { d with ink := { d.ink with st := 4, err := 0, imp := false } })) ∧
  (let held := d.ink.st = 3 ∧ ∃ k, (tget d.ink.segs k).any (fun s => s.used && !s.damaged) = true ∧ k < 8
   let kind := works u ∧ (u < 34 ↔ d.ink.unit < 34)
   let mine := ∀ s ∈ d.ink.segs, s.2.used = true → (s.2.head.drop 0x20).take 16 = segStamp d u
   (¬ held → refused 1 (inkReplay d)) ∧ (held → d.mode ≠ .replay → refused 2 (inkReplay d)) ∧ (held → d.mode = .replay → ¬ kind → refused 4 (inkReplay d)) ∧
   (held → d.mode = .replay → kind → ¬ mine → refused 5 (inkReplay d)) ∧
   (held → d.mode = .replay → kind → mine → inkReplay d = { d with ink := { d.ink with
     st := 5, err := 0, result := 1, cmpOps := 0, divIndex := 0, divField := 0, divReplay := 0, divPos := 0 } }))
end

