-- ==== Sys2Proof/Laws/Admin.lean ====
section
/-!
SUPPORT. When an access waits its turn; what an admin command that passes the checks before its own comes to: its own step's completion, or its wait;
and what a work descriptor that may start comes to.
-/
namespace Sys2Proof.Machine

open Sys2Proof

/-- An access that waits for nobody is carried out at once. -/
theorem fabRow_atOnce {m : Master} {i : Instr} {s : State} {out : Host.Outcome State Fault Refusal} (h : atOnce m s) :
    fabRow m i s out = out := by
  unfold fabRow; rw [if_neg]
  rintro ⟨a, -, b⟩
  rw [h a] at b; cases b

/-- An access of the fabric manager while a COMMAND holds the sequencer is put behind what waits. -/
theorem fabRow_waits {i : Instr} {s : State} {out : Host.Outcome State Fault Refusal} (hl : listens s) (h : seqHeld s.dev = true) :
    fabRow .fabricManager i s out = .next (s.now (queueRow i s.dev)) := by
  have hl' : asleep s.dev = false := hl
  unfold fabRow; rw [if_pos ⟨rfl, by simp [hl'], h⟩]; rfl

/-- An access of a master is a row that waits its turn where the sequencer is held and the master is the fabric manager. -/
theorem exec_master {c : Instr} {m : Master} (s : State) (h : masterOf c = some m) : ∃ out, exec c s = fabRow m c s out := by
  cases c with
  | ownerCtlWrite => cases h; exact ⟨_, rfl⟩
  | portEnable => cases h; exact ⟨_, rfl⟩
  | portDisable => cases h; exact ⟨_, rfl⟩
  | narrowLane0 => cases h; exact ⟨_, rfl⟩
  | narrowLane1 => cases h; exact ⟨_, rfl⟩
  | widen => cases h; exact ⟨_, rfl⟩
  | retrainLane0 => cases h; exact ⟨_, rfl⟩
  | retrainLane1 => cases h; exact ⟨_, rfl⟩
  | portRestart => cases h; exact ⟨_, rfl⟩
  | armA => cases h; exact ⟨_, rfl⟩
  | armB => cases h; exact ⟨_, rfl⟩
  | retireA => cases h; exact ⟨_, rfl⟩
  | retireB => cases h; exact ⟨_, rfl⟩
  | stampWrite => cases h; exact ⟨_, rfl⟩
  | tableRead => cases h; exact ⟨_, rfl⟩
  | tableWrite => cases h; exact ⟨_, rfl⟩
  | forcedWrite => cases h; exact ⟨_, rfl⟩
  | rtCoordWrite => cases h; exact ⟨_, rfl⟩
  | rtHpDrainWrite => cases h; exact ⟨_, rfl⟩
  | gclRead => cases h; exact ⟨_, rfl⟩
  | gclWrite => cases h; exact ⟨_, rfl⟩
  | ftSet => cases h; exact ⟨_, rfl⟩
  | svcRestart => cases h; exact ⟨_, rfl⟩
  | svcRtRead => cases h; exact ⟨_, rfl⟩
  | svcRtWrite => cases h; exact ⟨_, rfl⟩
  | mtrTimeSet => cases h; exact ⟨_, rfl⟩
  | mtrTimeAdj => cases h; exact ⟨_, rfl⟩
  | trimSet => cases h; exact ⟨_, rfl⟩
  | operatorSet => cases h; exact ⟨_, rfl⟩
  | mtrFwBegin => cases h; exact ⟨_, rfl⟩
  | mtrFwActivate => cases h; exact ⟨_, rfl⟩
  | mtrFwData => cases h; exact ⟨_, rfl⟩
  | mtrRdSel => cases h; exact ⟨_, rfl⟩
  | mtrWindowRead => cases h; exact ⟨_, rfl⟩
  | mtrAck => cases h; exact ⟨_, rfl⟩
  | pmuSelWrite => cases h; exact ⟨_, rfl⟩
  | pmuClear => cases h; exact ⟨_, rfl⟩
  | dumpEnable => cases h; exact ⟨_, rfl⟩
  | faultRecordClear => cases h; exact ⟨_, rfl⟩
  | corrClr => cases h; exact ⟨_, rfl⟩
  | fltForce => cases h; exact ⟨_, rfl⟩
  | fltBreak => cases h; exact ⟨_, rfl⟩
  | inkStart => cases h; exact ⟨_, rfl⟩
  | inkStop => cases h; exact ⟨_, rfl⟩
  | inkDiscard => cases h; exact ⟨_, rfl⟩
  | inkTransfer => cases h; exact ⟨_, rfl⟩
  | inkReplay => cases h; exact ⟨_, rfl⟩
  | modeCtlReq => cases h; exact ⟨_, rfl⟩
  | modeCtlDeviceReset => cases h; exact ⟨_, rfl⟩
  | fwActivate => cases h; exact ⟨_, rfl⟩
  | fwCommit => cases h; exact ⟨_, rfl⟩
  | registerWrite => cases h; exact ⟨_, rfl⟩
  | clearOnRead => cases h; exact ⟨_, rfl⟩
  | cfgCommit => cases h; exact ⟨_, rfl⟩
  | crcCapture => cases h; exact ⟨_, rfl⟩
  | cfgLock => cases h; exact ⟨_, rfl⟩
  | _ => exact nomatch h

/-- What an admin command of R61's table comes to: the checks of R521, then a step of its own. -/
theorem exec_admin {c : Instr} {op : Nat} {p : Perm} {f : FnId} {e : Desc} (s : State) (h : adminOf c = some (op, p, f, e)) :
    ∃ body, exec c s = lift (runAdmin c op p f e body) s := by
  cases c with
  | createSq => cases h; exact ⟨_, rfl⟩
  | destroySq => cases h; exact ⟨_, rfl⟩
  | createCq => cases h; exact ⟨_, rfl⟩
  | destroyCq => cases h; exact ⟨_, rfl⟩
  | createEq => cases h; exact ⟨_, rfl⟩
  | destroyEq => cases h; exact ⟨_, rfl⟩
  | subscribeEvents => cases h; exact ⟨_, rfl⟩
  | queryQueue => cases h; exact ⟨_, rfl⟩
  | createConn => cases h; exact ⟨_, rfl⟩
  | destroyConn => cases h; exact ⟨_, rfl⟩
  | modifyConn => cases h; exact ⟨_, rfl⟩
  | createMatchCtx => cases h; exact ⟨_, rfl⟩
  | destroyMatchCtx => cases h; exact ⟨_, rfl⟩
  | registerRegion => cases h; exact ⟨_, rfl⟩
  | deregisterRegion => cases h; exact ⟨_, rfl⟩
  | setTranslationRoot => cases h; exact ⟨_, rfl⟩
  | invalidate => cases h; refine ⟨?b, ?_⟩; rotate_left; (· simp only [exec, execInvalidate, decide_eq_true_eq]; rfl)
  | resumeMark => cases h; exact ⟨_, rfl⟩
  | joinTree => cases h; exact ⟨_, rfl⟩
  | leaveTree => cases h; exact ⟨_, rfl⟩
  | setShaper => cases h; exact ⟨_, rfl⟩
  | setPolicer => cases h; exact ⟨_, rfl⟩
  | parkFunction => cases h; exact ⟨_, rfl⟩
  | unparkFunction => cases h; exact ⟨_, rfl⟩
  | setFuncDomain => cases h; exact ⟨_, rfl⟩
  | setFuncQuota => cases h; exact ⟨_, rfl⟩
  | queryFunc => cases h; exact ⟨_, rfl⟩
  | setMode => simp only [adminOf] at h; split at h <;> cases h; rename_i q; simp only [exec, execSetMode, q]; exact ⟨_, by rfl⟩
  | setModeDeviceReset => simp only [adminOf] at h; split at h <;> cases h; rename_i q; simp only [exec, execSetModeDeviceReset, q]; exact ⟨_, by rfl⟩
  | fabricMgmtRecv => simp only [adminOf] at h; split at h <;> cases h; rename_i q; simp only [exec, execFabricMgmtRecv, q]; exact ⟨_, by rfl⟩
  | faultClear => cases h; exact ⟨_, rfl⟩
  | identify => cases h; exact ⟨_, rfl⟩
  | _ => exact nomatch h

theorem admStep_admitted {op : Nat} {p : Perm} {f : FnId} {e : Desc} {body : FnId → Dev → AdmRes} {s : State}
    (h : admitted op p f e s) :
    admStep f e p body (entryTaken f s.dev) = body (targetOf f e) (entryTaken f s.dev) := by
  obtain ⟨-, -, -, hp, hx, ha, hf, hk⟩ := h
  rcases hk with hk | hk <;> simp [admStep, hp, hx, ha, hf, hk]

theorem runAdmin_admitted {i : Instr} {op : Nat} {p : Perm} {f : FnId} {e : Desc} {body : FnId → Dev → AdmRes} {s : State}
    (h : admitted op p f e s) :
    runAdmin i op p f e body s.dev = match body (targetOf f e) (entryTaken f s.dev) with
      | .done st r r2 d2 => postAcq f (admCqe e st r r2) d2
      | .later ids d2 => waiting op f e ids d2 := by
  rw [← admStep_admitted (body := body) h]
  obtain ⟨-, ho, hr, -⟩ := h
  simp only [admReady, Bool.and_eq_true, Bool.not_eq_true'] at hr
  unfold runAdmin
  rw [if_neg (by simp [ho, hr.1]), if_neg (by simp [hr.2])]
  rfl

/-- An admitted command whose step completes posts that completion over what the step left. -/
theorem admin_done {i : Instr} {op : Nat} {p : Perm} {f : FnId} {e : Desc} {body : FnId → Dev → AdmRes} {s : State}
    {st : Status} {r r2 : Word64} {d2 : Dev} (h : admitted op p f e s)
    (hb : body (targetOf f e) (entryTaken f s.dev) = .done st r r2 d2) :
    admin i op p f e body s = .next (s.after (postAcq f (admCqe e st r r2) d2)) := by
  simp only [admin, lift, State.after, runAdmin_admitted h, hb, if_neg (Bool.eq_false_iff.1 h.1)]

/-- An admitted command whose effect takes time waits for its later completion. -/
theorem admin_later {i : Instr} {op : Nat} {p : Perm} {f : FnId} {e : Desc} {body : FnId → Dev → AdmRes} {s : State}
    {ids : List Nat} {d2 : Dev} (h : admitted op p f e s)
    (hb : body (targetOf f e) (entryTaken f s.dev) = .later ids d2) :
    admin i op p f e body s = .next (s.after (waiting op f e ids d2)) := by
  simp only [admin, lift, State.after, runAdmin_admitted h, hb, if_neg (Bool.eq_false_iff.1 h.1)]

/-- The wait of an admin command ends: its completion is posted over what its end left. -/
theorem admDone_ends {op : Nat} {f : FnId} {ready : AdmWait → Dev → Bool} {fin : AdmWait → Dev → Status × Dev} {w : AdmWait}
    {s : State} (h : awaited op f w s) (hr : ready w s.dev = true) :
    lift (admDone op f ready fin) s =
      .next (s.after (postAcq f (admCqe w.arg (fin w (waitEnded f s.dev)).1 0 0) (fin w (waitEnded f s.dev)).2)) := by
  obtain ⟨hl, hw, ho⟩ := h
  simp [lift, admDone, State.after, waitEnded, hl, hw, ho, hr]

/-- A descriptor that may start is taken from its queue and carried out. -/
theorem startWork_starts {op : Nat} {f : FnId} {sq : Fin 65536} {e : Desc} {q : Sq} {x : Fetched} {s : State}
    (go : Start → Dev → Dev) (h : starts op f sq e q x s) :
    lift (startWork op f sq e go) s =
      .next (s.after (go (startOf f sq e q x s.dev) (descTaken op f sq e q x s.dev))) := by
  obtain ⟨hl, ho, hm⟩ := h
  simp [lift, startWork, State.after, startOf, descTaken, hl, ho, hm]

end Sys2Proof.Machine
end

