-- ==== Sys2Proof/Laws/Tables.lean ====
section
/-!
SUPPORT. Laws of the sparse tables.
-/
namespace Sys2Proof.Machine

open Sys2Proof

theorem tput_mem {α : Type} {k i : Nat} {v x : α} :
    ∀ {t : Tbl α}, (k, v) ∈ tput t i x → (k = i) ∨ (k, v) ∈ t
  | [], h => by simp only [tput, List.mem_singleton, Prod.mk.injEq] at h; exact .inl h.1
  | (a, b) :: t, h => by
    unfold tput at h
    split at h
    · simp only [List.mem_cons, Prod.mk.injEq] at h ⊢; grind
    · split at h
      · simp only [List.mem_cons, Prod.mk.injEq] at h ⊢; grind
      · simp only [List.mem_cons, Prod.mk.injEq] at h ⊢
        rcases h with h | h
        · exact .inr (.inl h)
        · rcases tput_mem h with q | q
          · exact .inl q
          · exact .inr (.inr q)

/-- Setting an entry keeps the table's form. -/
theorem tput_rising {α : Type} : ∀ (t : Tbl α) (i : Nat) (x : α), rising t → rising (tput t i x)
  | [], i, x, _ => by simp [tput, rising]
  | (a, b) :: t, i, x, h => by
    have h' := List.pairwise_cons.1 h
    unfold tput
    split
    · rename_i q
      refine List.pairwise_cons.2 ⟨?_, h⟩
      intro y hy
      rcases List.mem_cons.1 hy with rfl | hy
      · exact q
      · exact Nat.lt_trans q (h'.1 y hy)
    · split
      · rename_i q; subst q
        exact List.pairwise_cons.2 ⟨h'.1, h'.2⟩
      · refine List.pairwise_cons.2 ⟨?_, tput_rising t i x h'.2⟩
        rintro ⟨k, v⟩ hy
        rcases tput_mem hy with q | q
        · show a < k; omega
        · exact h'.1 _ q

theorem tdel_sublist {α : Type} : ∀ (t : Tbl α) (i : Nat), (tdel t i).Sublist t
  | [], _ => by simp [tdel]
  | (a, b) :: t, i => by
    unfold tdel
    split
    · exact List.sublist_cons_self _ _
    · exact (tdel_sublist t i).cons_cons _

/-- Taking an entry out keeps the table's form. -/
theorem tdel_rising {α : Type} (t : Tbl α) (i : Nat) (h : rising t) : rising (tdel t i) := h.sublist (tdel_sublist t i)

theorem tput_super {α : Type} (t : Tbl α) (i : Nat) (x : α) : (t.map (·.1)).Sublist ((tput t i x).map (·.1)) := by
  induction t with
  | nil => exact List.nil_sublist _
  | cons e t ih =>
    obtain ⟨a, b⟩ := e
    unfold tput
    split
    · exact List.sublist_cons_self _ _
    · split
      · rename_i q; subst q; exact List.Sublist.refl _
      · exact ih.cons_cons _

/-- A table is in its one form exactly where its keys rise. -/
theorem rising_keys {α : Type} (t : Tbl α) : rising t ↔ (t.map (·.1)).Pairwise (· < ·) := List.pairwise_map.symm

/-- Setting an entry neither mends nor breaks the form. -/
@[simp] theorem tput_rising_iff {α : Type} (t : Tbl α) (i : Nat) (x : α) : rising (tput t i x) ↔ rising t :=
  ⟨fun h => (rising_keys t).2 (((rising_keys _).1 h).sublist (tput_super t i x)), tput_rising t i x⟩

@[simp] theorem tmod_rising_iff {α : Type} (t : Tbl α) (i : Nat) (g : α → α) : rising (tmod t i g) ↔ rising t := by
  unfold tmod; split <;> simp

/-- Nor does changing entries in their places. -/
theorem map_rising_iff {α : Type} (t : Tbl α) (g : Nat × α → Nat × α) (h : ∀ e, (g e).1 = e.1) :
    rising (t.map g) ↔ rising t := by
  rw [rising_keys, rising_keys, List.map_map, show (fun e => e.1) ∘ g = fun e : Nat × α => e.1 from funext h]

/-- An entry set reads as it was set. -/
@[simp] theorem tget_tput_same {α : Type} : ∀ (t : Tbl α) (i : Nat) (x : α), tget (tput t i x) i = some x
  | [], i, x => by simp [tput, tget]
  | (a, b) :: t, i, x => by
    unfold tput
    split
    · simp [tget]
    · split
      · simp [tget]
      · rename_i q; simp [tget, q, tget_tput_same t i x]

/-- Setting an entry leaves every other entry alone. -/
theorem tget_tput_other {α : Type} : ∀ (t : Tbl α) (i j : Nat) (x : α), j ≠ i → tget (tput t i x) j = tget t j
  | [], i, j, x, h => by simp [tput, tget, h]
  | (a, b) :: t, i, j, x, h => by
    unfold tput
    split
    · simp [tget, h]
    · split
      · rename_i q; subst q; simp [tget, h]
      · simp only [tget]
        split
        · rfl
        · exact tget_tput_other t i j x h

end Sys2Proof.Machine
end

