-- ==== Sys2Proof/Laws/Arrive.lean ====
section
/-!
SUPPORT. What a packet, a transport message or a read's answer that passes the checks before its own effect comes to.
-/
namespace Sys2Proof.Machine

open Sys2Proof

theorem addRec_same (kind : Nat) (data : List Byte) (d : Dev) : ∃ v, addRec kind data d = { d with ink := v } := by
  unfold addRec; split
  · exact ⟨_, rfl⟩
  · exact ⟨d.ink, rfl⟩

theorem addToken_same (d : Dev) : ∃ v n, addToken d = { d with ink := v, free := n } := by
  unfold addToken takeFree; dsimp only; split
  · exact ⟨_, _, rfl⟩
  · obtain ⟨v, h⟩ := addRec_same 3 (d.ink.toks ++ [(Config.freeWord d.free).setWidth 8]) { d with free := d.free + 1, ink := { d.ink with toks := [] } }
    exact ⟨v, _, h⟩

/-- Recording an input changes the recording and takes a free value, and nothing else. -/
theorem inkInput_same (kind : Nat) (key : InkKey) (data : List Byte) (d : Dev) :
    ∃ v n, inkInput kind key data d = { d with ink := v, free := n } := by
  unfold inkInput; split
  · obtain ⟨v, h⟩ := addRec_same kind data d
    obtain ⟨w, n, k⟩ := addToken_same (addRec kind data d)
    dsimp only
    rw [k, h]; exact ⟨_, _, rfl⟩
  · exact ⟨d.ink, d.free, rfl⟩

/-- A record leaves the state of the recording as it is. -/
@[simp] theorem addRec_st (kind : Nat) (data : List Byte) (d : Dev) : (addRec kind data d).ink.st = d.ink.st := by
  unfold addRec; split <;> rfl

/-- Operations that retire leave the state of the recording as it is. -/
@[simp] theorem inkRetire_st (p : Nat × InkKey → Bool) (d : Dev) : (inkRetire p d).ink.st = d.ink.st := by
  suffices h : ∀ (l : List (Nat × InkKey)) (e : Dev), (l.foldl (fun d o =>
      addRec 4 (leBytes 8 o.1 ++ leBytes 8 (crc64 (Config.freeBytes d.free)).toNat) { d with free := d.free + 1 }) e).ink.st = e.ink.st from
    h _ _
  intro l
  induction l with
  | nil => intro e; rfl
  | cons o l ih => intro e; rw [List.foldl_cons, ih, addRec_st]

/-- Taking something in changes the list of what is delivered here, the recording and the count of free values alone. -/
theorem arrived_same (it : Item) (mine : Bool) (key : InkKey) (bytes : List Byte) (d : Dev) :
    ∃ v n, arrived it mine key bytes d = { d with rt := { d.rt with localQ := d.rt.localQ.erase it }, ink := v, free := n } := by
  unfold arrived; split
  · obtain ⟨v, n, h⟩ := inkInput_same 1 key bytes (takeLocal it d)
    exact ⟨v, n, h⟩
  · exact ⟨d.ink, d.free, rfl⟩

/-- What arrives and is not held by a checkpoint is taken in. -/
theorem inkArrive_arrived {it : Item} {mine : Bool} {key : InkKey} {bytes : List Byte} {go : Dev → Dev} {d : Dev}
    (h : (mine && inkHolds d) = false) : inkArrive it mine key bytes go d = go (arrived it mine key bytes d) := by
  unfold inkArrive arrived; rw [if_neg (by simp [h])]

@[simp] theorem getConn_arrived (it : Item) (mine : Bool) (key : InkKey) (bs : List Byte) (d : Dev) (n : Nat) :
    getConn (arrived it mine key bs d) n = getConn d n := by
  obtain ⟨_, _, h⟩ := arrived_same it mine key bs d; rw [h]; rfl
@[simp] theorem getFn_arrived (it : Item) (mine : Bool) (key : InkKey) (bs : List Byte) (d : Dev) (f : FnId) :
    getFn (arrived it mine key bs d) f = getFn d f := by
  obtain ⟨_, _, h⟩ := arrived_same it mine key bs d; rw [h]; rfl
@[simp] theorem fnExists_arrived (it : Item) (mine : Bool) (key : InkKey) (bs : List Byte) (d : Dev) (f : FnId) :
    fnExists (arrived it mine key bs d) f = fnExists d f := by
  obtain ⟨_, _, h⟩ := arrived_same it mine key bs d; rw [h]; rfl
@[simp] theorem portDrained_arrived (it : Item) (mine : Bool) (key : InkKey) (bs : List Byte) (d : Dev) (p : Fin 4) :
    portDrained (arrived it mine key bs d) p = portDrained d p := by
  obtain ⟨_, _, h⟩ := arrived_same it mine key bs d; rw [h]; rfl
@[simp] theorem isOnDie_arrived (it : Item) (mine : Bool) (key : InkKey) (bs : List Byte) (d : Dev) (n : Nat) :
    isOnDie (arrived it mine key bs d) n = isOnDie d n := by
  obtain ⟨_, _, h⟩ := arrived_same it mine key bs d; rw [h]; rfl
@[simp] theorem slotGrafting_arrived (it : Item) (mine : Bool) (key : InkKey) (bs : List Byte) (d : Dev) (n : Nat) :
    slotGrafting (arrived it mine key bs d) n = slotGrafting d n := by
  obtain ⟨_, _, h⟩ := arrived_same it mine key bs d; rw [h]; rfl
@[simp] theorem inWriting_arrived (it : Item) (mine : Bool) (key : InkKey) (bs : List Byte) (d : Dev) (n : Nat) :
    inWriting (arrived it mine key bs d) n = inWriting d n := by
  obtain ⟨_, _, h⟩ := arrived_same it mine key bs d; rw [h]; rfl
@[simp] theorem ctxReady_arrived (it : Item) (mine : Bool) (key : InkKey) (bs : List Byte) (d : Dev) (n : Nat) :
    ctxReady (arrived it mine key bs d) n = ctxReady d n := by
  obtain ⟨_, _, h⟩ := arrived_same it mine key bs d; rw [h]; rfl
@[simp] theorem getNode_arrived (it : Item) (mine : Bool) (key : InkKey) (bs : List Byte) (d : Dev) (n : Nat) :
    getNode (arrived it mine key bs d) n = getNode d n := by
  obtain ⟨_, _, h⟩ := arrived_same it mine key bs d; rw [h]; rfl
@[simp] theorem entryFor_arrived (it : Item) (mine : Bool) (key : InkKey) (bs : List Byte) (d : Dev) (n : Nat) (b : Bool) :
    entryFor (arrived it mine key bs d) n b = entryFor d n b := by
  obtain ⟨_, _, h⟩ := arrived_same it mine key bs d; rw [h]; rfl
@[simp] theorem connRecord_arrived (it : Item) (mine : Bool) (key : InkKey) (bs : List Byte) (d : Dev) (f : FnId) (n : Nat) :
    connRecord (arrived it mine key bs d) f n = connRecord d f n := by
  obtain ⟨_, _, h⟩ := arrived_same it mine key bs d; rw [h]; rfl
@[simp] theorem arrived_mode (it : Item) (mine : Bool) (key : InkKey) (bs : List Byte) (d : Dev) :
    (arrived it mine key bs d).mode = d.mode := by
  obtain ⟨_, _, h⟩ := arrived_same it mine key bs d; rw [h]
@[simp] theorem arrived_xpt (it : Item) (mine : Bool) (key : InkKey) (bs : List Byte) (d : Dev) :
    (arrived it mine key bs d).xpt = d.xpt := by
  obtain ⟨_, _, h⟩ := arrived_same it mine key bs d; rw [h]
@[simp] theorem arrived_tre (it : Item) (mine : Bool) (key : InkKey) (bs : List Byte) (d : Dev) :
    (arrived it mine key bs d).tre = d.tre := by
  obtain ⟨_, _, h⟩ := arrived_same it mine key bs d; rw [h]
@[simp] theorem arrived_mtc (it : Item) (mine : Bool) (key : InkKey) (bs : List Byte) (d : Dev) :
    (arrived it mine key bs d).mtc = d.mtc := by
  obtain ⟨_, _, h⟩ := arrived_same it mine key bs d; rw [h]

/-- A connection set reads as it was set. -/
@[simp] theorem getConn_setConn (n : Nat) (c : Conn) (d : Dev) : getConn (setConn n c d) n = some c := tget_tput_same _ _ _

/-- Setting a connection leaves every other one alone. -/
theorem getConn_setConn_other (n m : Nat) (c : Conn) (d : Dev) (h : m ≠ n) : getConn (setConn n c d) m = getConn d m :=
  tget_tput_other _ _ _ _ h

/-- The arrival of a packet that reaches its connection. -/
theorem arriveConn_fits {p : Packet} {c : Conn} {s : State} (h : packetFits p c s) :
    arriveConn p (pktArrived p s.dev) =
      if p.ptype = ptGetResp then recvGetResp p.conn.toNat c p (packetTaken p s.dev)
      else recvData p.conn.toNat c p (packetTaken p s.dev) := by
  obtain ⟨-, -, -, hcrc, hx, hd, hdr, hc, hf, hp, hst, hin, hpk, hg, hw, ho⟩ := h
  rw [hf] at hin hpk
  have hk : connRecord s.dev (epFn p.rh.dest) p.conn.toNat = some (c.peer, c.peerConn, none) := by simp [connRecord, hc, hf]
  simp [arriveConn, hk, pktArrived, deliverConn, packetTaken, hcrc, hx, ← hd, hdr, hc, hf, hp, hst, hin, hpk, hg, hw, ho]

/-- A marked packet is executed, but for a flagged packet above BASE, which is held. -/
theorem recvData_accepted {p : Packet} {c : Conn} {s : State} (h : packetAccepted p c s) :
    recvData p.conn.toNat c p (packetTaken p s.dev) =
      if p.ptype = ptPutFlag ∧ psnDist c p.psn ≠ 0 then
        updConn p.conn.toNat (fun c => { c with held := c.held ++ [p.psn] }) (packetMarked p c s.dev)
      else afterExec p.conn.toNat false (execPkt p.conn.toNat (markPkt c p) p (packetMarked p c s.dev)) := by
  obtain ⟨-, hk, hb, hdet, hr⟩ := h
  have h1 : ¬ (2 ^ 23 ≤ psnDist c p.psn ∨ psnDist c p.psn < 1024 ∧ c.bitmap.getLsbD (psnDist c p.psn) = true) := by
    simp [hb]; omega
  have h2 : ¬ 1024 ≤ psnDist c p.psn := by omega
  have h3 : ¬ (p.rh.det = true ∧ psnDist c p.psn ≠ 0) := by rcases hdet with q | q <;> simp [q]
  have h4 : getConn (packetMarked p c s.dev) p.conn.toNat = some (markPkt c p) := getConn_setConn _ _ _
  unfold recvData
  simp only [if_neg h1, if_neg h2, if_neg h3, hr]
  change (if _ then _ else match getConn (packetMarked p c s.dev) p.conn.toNat with | none => _ | some c1 => _) = _
  rw [h4]
  simp [packetMarked]

/-- A packet accepted by a row that takes its type is executed, or held where it is flagged and above BASE. -/
theorem arrive_accepted {ok : Packet → Bool} {p : Packet} {c : Conn} {s : State} (h : packetAccepted p c s) (ho : ok p = true)
    (hg : p.ptype ≠ ptGetResp) :
    arrive ok arriveConn p s = .next (s.after (
      if p.ptype = ptPutFlag ∧ psnDist c p.psn ≠ 0 then
        updConn p.conn.toNat (fun c => { c with held := c.held ++ [p.psn] }) (packetMarked p c s.dev)
      else afterExec p.conn.toNat false (execPkt p.conn.toNat (markPkt c p) p (packetMarked p c s.dev)))) := by
  rw [← recvData_accepted h]
  have hf := arriveConn_fits h.1
  rw [if_neg hg] at hf
  have hl : asleep s.dev = false := h.1.1
  have hm := h.1.2.1
  simp [arrive, lift, State.after, hl, ho, hm, inkArrive_arrived h.1.2.2.1, ← pktArrived.eq_def, hf]

/-- A GET_RESP that reaches its connection. -/
theorem arrive_resp {p : Packet} {c : Conn} {s : State} (h : packetFits p c s) (hg : p.ptype = ptGetResp) :
    arrive (fun p => p.ptype = ptGetResp) arriveConn p s =
      .next (s.after (recvGetResp p.conn.toNat c p (packetTaken p s.dev))) := by
  have hf := arriveConn_fits h
  rw [if_pos hg] at hf
  have hl : asleep s.dev = false := h.1
  have hm := h.2.1
  simp only [arrive, lift, State.after, hl, hg, inkArrive_arrived h.2.2.1, ← hf]
  simp [pktArrived, hg, hm]

/-- A transport message that reaches its connection. -/
theorem arriveNib_reaches {nt : Byte} {m : Nib} {c : Conn} {s : State} (go : Nat → Conn → Dev → Dev)
    (h : nibReaches nt m c s) :
    arriveNib nt m go s = .next (s.after (go m.conn.toNat c (nibTaken m s.dev))) := by
  obtain ⟨hl, ht, hi, hcrc, hx, hd, hc, hf, hst, hg, hr⟩ := h
  simp_all [arriveNib, lift, State.after, inkArrive_arrived hi, nibTaken, nibArrived]

/-- The awaited answer to a host read. -/
theorem readAnswer_answers {ok : Cont → Bool} {id : Nat} {data : List Byte} {a : Access} {r : ReadReq} {d1 : Dev} {s : State}
    (h : answers id data a r d1 s) (ho : ok a.cont = true) :
    readAnswer ok id data s = .next (s.after (readDone a data d1)) := by
  obtain ⟨hl, ht, hw, hn⟩ := h
  simp [readAnswer, lift, State.after, hl, ht, hw, hn, ho]

/-- A tree packet that reaches its node. -/
theorem onTree_reaches {pt : Byte} {port : Fin 64} {p : TreePkt} {t : TreeWords} {s : State} (act : TreeWords → Dev → Dev)
    (h : treeReaches pt port p t s) :
    onTree pt port p act s = .next (s.after (act t (treeArrived p s.dev))) := by
  obtain ⟨hl, ht, hm, hi, hcrc, he, hd, hk⟩ := h
  have E : onTree pt port p act s = .next (s.after (treeArrive port.val p act (treeArrived p s.dev))) := by
    have hi' : (((entryFor s.dev p.tree.toNat p.rh.epoch).any fun t => tuRecorded s.dev t.tu) && inkHolds s.dev) = false := hi
    simp only [onTree, lift, State.after, hl, ht, inkArrive_arrived hi']
    simp [treeArrived, treeRecorded, hm]
  rw [E]
  unfold treeArrived
  rcases hk with rfl | ⟨hu, hf, ho⟩
  · simp [treeArrive, ht, hcrc, he, hd]
  · by_cases hup : upward p
    · rw [if_pos hup] at hu
      simp [treeArrive, ht, hcrc, he, hd, hup, hu, hf, ho]
    · rw [if_neg hup] at hu
      simp [treeArrive, ht, hcrc, he, hd, hup, hu, hf, ho]

/-- A frame that arrives in sequence is stored and handled. -/
theorem svcArrive_stored {code : BitVec 4} {n : Fin 4} {f : Frame} {s : State} (handle : Nat → Dev → Dev)
    (h : frameReaches code n f s) (h0 : code ≠ 0) (h9 : code.toNat ≤ 9) :
    svcArrive code n.val f handle s.dev = svcRun (handle (frameBuf n.val s.dev) (frameStored n.val f s.dev)) := by
  obtain ⟨-, hk, ht, hg, hs, hb⟩ := h
  have hb' : ¬ 8 ≤ (getSvc s.dev n.val).rxBuf.length := by omega
  have h9' : ¬ 9 < code.toNat := by omega
  have h0' : ¬ code = 0#4 := h0
  simp only [svcArrive, hk, ht, hg, hs, hb', h9']
  simp [frameStored, frameBuf, h0']

/-- The same of a command that handles a frame of a code. -/
theorem svcArrive_reaches {code : BitVec 4} {n : Fin 4} {f : Frame} {s : State} (handle : Nat → Dev → Dev)
    (h : frameReaches code n f s) (h0 : code ≠ 0) (h9 : code.toNat ≤ 9) :
    lift0 (svcArrive code n.val f handle) s = .next (s.now (svcRun (handle (frameBuf n.val s.dev) (frameStored n.val f s.dev)))) := by
  have hl : asleep s.dev = false := h.1
  simp [lift0, State.now, hl, svcArrive_stored handle h h0 h9]

/-- The same of a frame that is routed. -/
theorem svcFrame_reaches {code : BitVec 4} {n : Fin 4} {f : Frame} {s : State} (consume : Frame → Dev → Dev)
    (h : frameReaches code n f s) (h0 : code ≠ 0) (h9 : code.toNat ≤ 9) :
    lift0 (svcFrame code n.val f consume) s =
      .next (s.now (svcRun (routeFrame f (some (n.val, frameBuf n.val s.dev)) mgrTake consume (frameStored n.val f s.dev)))) := by
  have hl : asleep s.dev = false := h.1
  simp [lift0, State.now, hl, svcFrame, svcArrive_stored _ h h0 h9]

end Sys2Proof.Machine
end

