-- ==== Sys2Proof/Laws/Island.lean ====
section
/-!
SUPPORT. The last block acknowledged, MTR_SEQ_ACKED: what the island does leaves it alone, and a write of MTR_ACK can only raise
it.
-/
namespace Sys2Proof.Machine

open Sys2Proof

@[simp] theorem ignoreWr_acked (i : Isl) : (ignoreWr i).acked = i.acked := rfl
@[simp] theorem audit_acked (kind : Nat) (a b : Word64) (i : Isl) : (audit kind a b i).acked = i.acked := by
  unfold audit; split <;> rfl
@[simp] theorem openBlock_acked (powerUp : Bool) (i : Isl) : (openBlock powerUp i).acked = i.acked := rfl
@[simp] theorem timeTo_acked (t : Nat) (i : Isl) : (timeTo t i).acked = i.acked := rfl
@[simp] theorem activateFw_acked (i : Isl) : (activateFw i).acked = i.acked := by
  unfold activateFw; (repeat' split) <;> simp
@[simp] theorem xoCycle_acked (i : Isl) : (xoCycle i).acked = i.acked := by
  unfold xoCycle; dsimp only
@[simp] theorem timeSet_acked (w : Wr) (i : Isl) : (timeSet w i).acked = i.acked := by
  unfold timeSet; (repeat' split) <;> simp
@[simp] theorem timeAdj_acked (w : Wr) (i : Isl) : (timeAdj w i).acked = i.acked := by
  unfold timeAdj; dsimp only; (repeat' split) <;> (try simp) <;> (repeat' split) <;> simp
theorem sealed_acked {g : Isl → Isl} (h : ∀ i, (g i).acked = i.acked) (i : Isl) : (sealed g i).acked = i.acked := by
  unfold sealed; split <;> simp [h]
@[simp] theorem trimWrite_acked (w : Wr) (i : Isl) : (trimWrite w i).acked = i.acked := by
  unfold trimWrite; (repeat' split) <;> simp
@[simp] theorem operatorWrite_acked (w : Wr) (i : Isl) : (operatorWrite w i).acked = i.acked := by
  unfold operatorWrite; (repeat' split) <;> simp
@[simp] theorem fwCtlWrite_acked (w : Wr) (i : Isl) : (fwCtlWrite w i).acked = i.acked := by
  unfold fwCtlWrite; dsimp only; (repeat' split) <;> (try simp) <;> (repeat' split) <;> simp
@[simp] theorem fwDataWrite_acked (w : Wr) (i : Isl) : (fwDataWrite w i).acked = i.acked := by
  unfold fwDataWrite; (repeat' split) <;> simp
@[simp] theorem setReader_acked (k : Fin 2) (r : Reader) (i : Isl) : (setReader k r i).acked = i.acked := by
  unfold setReader; split <;> rfl
@[simp] theorem rdSelWrite_acked (k : Fin 2) (w : Wr) (i : Isl) : (rdSelWrite k w i).acked = i.acked := by
  unfold rdSelWrite; (repeat' split) <;> simp
@[simp] theorem markRead_acked (k : Fin 2) (n mask : Nat) (i : Isl) : (markRead k n mask i).acked = i.acked := by
  unfold markRead; (repeat' split) <;> simp

/-- A write of MTR_ACK never lowers MTR_SEQ_ACKED (R396). -/
theorem ackWrite_acked (unit : Word64) (w : Wr) (i : Isl) : i.acked ≤ (ackWrite unit w i).acked := by
  unfold ackWrite
  split
  · dsimp only
    split
    · exact Nat.le_refl _
    · rename_i h
      simp only [Bool.or_eq_true, decide_eq_true_eq, not_or] at h
      simp only; omega
  · exact Nat.le_refl _

end Sys2Proof.Machine
end

