-- ==== Sys2Proof/Laws/Kept.lean ====
section
/-!
SUPPORT. What a settling device never changes: `kept` names it, and every operation that a command's aftermath may run keeps it.
-/
namespace Sys2Proof.Machine

open Sys2Proof

/-- What settling never changes: the fields it leaves alone, the last block acknowledged, and whether the tables of functions,
ports and connections are in their one form. -/
def kept (d : Dev) : Fuse × Strap × (Tbl HostPort) × Eng × Tc × Boot × Cfg × Pace × Therm × Jtag × (Tbl Word64) × (Tbl Word64) × (Fin 4) × Nat × Prop :=
  (d.fuse, d.strap, d.hp, d.eng, d.tc, d.boot, d.cfg, d.pace, d.therm, d.jtag, d.regs, d.stg, d.ownerPort, d.isl.acked, ordered d)

theorem kept_eq {d e : Dev} (h : (e.fuse, e.strap, e.hp, e.eng, e.tc, e.boot, e.cfg, e.pace, e.therm, e.jtag, e.regs, e.stg, e.ownerPort)
      = (d.fuse, d.strap, d.hp, d.eng, d.tc, d.boot, d.cfg, d.pace, d.therm, d.jtag, d.regs, d.stg, d.ownerPort))
    (ha : e.isl.acked = d.isl.acked) (hf : rising e.fns ↔ rising d.fns) (hp : rising e.ports ↔ rising d.ports)
    (hc : rising e.xpt.conns ↔ rising d.xpt.conns) : kept e = kept d := by
  simp only [Prod.mk.injEq] at h
  simp only [kept, ordered, h, ha, hf, hp, hc]

@[simp] theorem kept_mk (d : Dev) (vclk : Clk) (vxl : Xl) (vxpt : Xpt) (vmtc : Mtc) (vtre : Tre) (vrt : Rt) (vsvc : Svc) (vft : Ft) (vflt : Flt) (vmode : Mode) (vmodeSt : ModeSt) (vpmu : Pmu) (vink : Ink) (vout : List Out) (vfree : Nat) (h : vxpt.conns = d.xpt.conns) :
    kept (Dev.mk vclk d.fuse d.strap d.hp d.fns vxl vxpt vmtc d.eng vtre vrt d.ports d.tc vsvc vft d.isl vflt d.boot vmode vmodeSt vpmu vink d.cfg d.pace d.therm d.jtag d.regs d.stg vout vfree d.ownerPort) = kept d :=
  kept_eq rfl rfl Iff.rfl Iff.rfl (by rw [h])

@[simp] theorem kept_ite (c : Prop) [Decidable c] (a b : Dev) :
    kept (if c then a else b) = if c then kept a else kept b := apply_ite _ _ _ _

theorem foldl_kept {α : Type} (g : Dev → α → Dev) (h : ∀ d x, kept (g d x) = kept d) (l : List α) (d : Dev) :
    kept (l.foldl g d) = kept d := by
  induction l generalizing d with
  | nil => rfl
  | cons x l ih => simp only [List.foldl_cons, ih, h]

@[simp] theorem setFn_kept (f : FnId) (x : Fn) (d : Dev) : kept (setFn f x d) = kept d :=
  kept_eq rfl rfl (tput_rising_iff ..) Iff.rfl Iff.rfl

@[simp] theorem updFn_kept (f : FnId) (g : Fn → Fn) (d : Dev) : kept (updFn f g d) = kept d := by
  unfold updFn; simp

@[simp] theorem emit_kept (o : Out) (d : Dev) : kept (emit o d) = kept d := by
  unfold emit; simp

@[simp] theorem hostWrite_kept (f : FnId) (half : Bool) (addr : Nat) (bs : List Byte) (relaxed : Bool) (d : Dev) :
    kept (hostWrite f half addr bs relaxed d) = kept d := by
  unfold hostWrite; simp

@[simp] theorem fire_kept (f : FnId) (vec : Nat) (d : Dev) : kept (fire f vec d) = kept d := by
  unfold fire; simp

@[simp] theorem occur_kept (o : Occ) (d : Dev) : kept (occur o d) = kept d := by
  unfold occur; simp

@[simp] theorem tally_kept (f : FnId) (what n : Nat) (d : Dev) : kept (tally f what n d) = kept d :=
  kept_eq rfl rfl Iff.rfl Iff.rfl Iff.rfl

@[simp] theorem takeFree_kept (d : Dev) : kept (takeFree d).2 = kept d := by
  unfold takeFree; simp

@[simp] theorem mergeEvent_kept (f : FnId) (c : Nat) (d : Dev) : kept (mergeEvent f c d) = kept d := by
  unfold mergeEvent; simp

@[simp] theorem writeEqe_kept (f : FnId) (q : Nat) (e : Eqe) (d : Dev) : kept (writeEqe f q e d) = kept d := by
  unfold writeEqe; simp; (repeat' split) <;> simp

@[simp] theorem postEvent_kept (f : FnId) (code : EvCode) (object : Word32) (a b : Word64) (d : Dev) :
    kept (postEvent f code object a b d) = kept d := by
  unfold postEvent; simp; (repeat' split) <;> simp

@[simp] theorem postSubscribed_kept (code : EvCode) (object : Word32) (a b : Word64) (d : Dev) :
    kept (postSubscribed code object a b d) = kept d := by
  unfold postSubscribed; simp [foldl_kept]

@[simp] theorem writeCqe_kept (f : FnId) (n : Nat) (e : Cqe) (d : Dev) : kept (writeCqe f n e d) = kept d := by
  unfold writeCqe; simp; (repeat' split) <;> simp

@[simp] theorem cqRelease_kept (f : FnId) (n : Nat) (d : Dev) : kept (cqRelease f n d) = kept d := by
  unfold cqRelease; simp

@[simp] theorem cqReserve_kept (f : FnId) (n : Nat) (d : Dev) : kept (cqReserve f n d) = kept d := by
  unfold cqReserve; simp

@[simp] theorem postCqe_kept (f : FnId) (n : Nat) (op : Bool) (e : Cqe) (d : Dev) :
    kept (postCqe f n op e d) = kept d := by
  unfold postCqe; (repeat' split) <;> simp

@[simp] theorem writeAcq_kept (f : FnId) (e : Cqe) (d : Dev) : kept (writeAcq f e d) = kept d := by
  unfold writeAcq; simp

@[simp] theorem postAcq_kept (f : FnId) (e : Cqe) (d : Dev) : kept (postAcq f e d) = kept d := by
  unfold postAcq; simp

@[simp] theorem setPort_kept (p : Nat) (x : Port) (d : Dev) : kept (setPort p x d) = kept d :=
  kept_eq rfl rfl Iff.rfl (tput_rising_iff ..) Iff.rfl

@[simp] theorem updPort_kept (p : Nat) (g : Port → Port) (d : Dev) : kept (updPort p g d) = kept d := by
  unfold updPort; simp

@[simp] theorem sendLink_kept (p : Nat) (m : LinkMsg) (d : Dev) : kept (sendLink p m d) = kept d := by
  unfold sendLink; simp

@[simp] theorem notifyPort_kept (p : Nat) (d : Dev) : kept (notifyPort p d) = kept d := by
  unfold notifyPort; simp

@[simp] theorem postPortUp_kept (p : Nat) (d : Dev) : kept (postPortUp p d) = kept d := by
  unfold postPortUp; simp

@[simp] theorem enterUp_kept (p : Nat) (d : Dev) : kept (enterUp p d) = kept d := by
  unfold enterUp; simp

@[simp] theorem sendMode_kept (p : Nat) (d : Dev) : kept (sendMode p d) = kept d := by
  unfold sendMode; simp

@[simp] theorem setSvc_kept (n : Nat) (x : SvcPort) (d : Dev) : kept (setSvc n x d) = kept d := by
  unfold setSvc; simp

@[simp] theorem putFrame_kept (n : Nat) (f : Frame) (d : Dev) : kept (putFrame n f d) = kept d := by
  unfold putFrame; simp

@[simp] theorem svcPump_kept (n : Nat) :
    ∀ (a0 : Nat) (a1 : Dev), kept (svcPump n a0 a1) = kept a1 := by
  intro a0
  induction a0 with
  | _ =>
    intros
    unfold svcPump
    (repeat' split)
    all_goals (try simp_all)
    all_goals (repeat' split)
    all_goals (try simp_all)
    all_goals (repeat' split)
    all_goals (try simp_all)

@[simp] theorem svcQueue_kept (n : Nat) (f : Frame) (hold : Option (Nat × Nat)) (d : Dev) :
    kept (svcQueue n f hold d) = kept d := by
  unfold svcQueue; simp

@[simp] theorem svcSend_kept (n : Nat) (f : Frame) (d : Dev) : kept (svcSend n f d) = kept d := by
  unfold svcSend; simp

@[simp] theorem sendUpFrame_kept (ftype : BitVec 4) (payload : List Byte) (d : Dev) :
    kept (sendUpFrame ftype payload d).2 = kept d := by
  unfold sendUpFrame; (repeat' split) <;> simp

@[simp] theorem sendNotify_kept (d : Dev) : kept (sendNotify d) = kept d := by
  unfold sendNotify
  (repeat' split)
  all_goals (try simp [foldl_kept])
  all_goals (repeat' split)
  all_goals (try simp [foldl_kept])
  all_goals (repeat' split)
  all_goals (try simp)
  all_goals (try (rename_i h; have h2 := congrArg (fun r => kept r.2) h; simpa using h2.symm))
  all_goals (try (refine foldl_kept _ (fun d x => ?_) _ _; dsimp only; (repeat' split) <;> simp))

@[simp] theorem setRec_kept (src : Nat) (r : FltRec) (d : Dev) : kept (setRec src r d) = kept d := by
  unfold setRec; simp

@[simp] theorem reportCorrected_kept (src n : Nat) (d : Dev) : kept (reportCorrected src n d) = kept d := by
  unfold reportCorrected; simp

@[simp] theorem reportError_kept (src : Nat) (cls : FClass) (cause : Nat) (detail : Byte) (object : BitVec 24) (n : Nat) (d : Dev) :
    kept (reportError src cls cause detail object n d) = kept d := by
  unfold reportError; simp

@[simp] theorem report_kept (src : Nat) (cls : FClass) (cause : Nat) (detail : Byte) (object : BitVec 24) (n : Nat) (d : Dev) :
    kept (report src cls cause detail object n d) = kept d := by
  unfold report; (repeat' split) <;> simp

@[simp] theorem addRec_kept (kind : Nat) (data : List Byte) (d : Dev) : kept (addRec kind data d) = kept d := by
  unfold addRec; simp

@[simp] theorem inkRead_kept (addr : Nat) (data : List Byte) (d : Dev) : kept (inkRead addr data d) = kept d := by
  unfold inkRead; simp

@[simp] theorem inkRetire_kept (p : Nat × InkKey → Bool) (d : Dev) : kept (inkRetire p d) = kept d := by
  unfold inkRetire; simp [foldl_kept]

@[simp] theorem inkEnded_kept (f : FnId) (sq : Nat) (cnt : Word32) (d : Dev) :
    kept (inkEnded f sq cnt d) = kept d := by
  unfold inkEnded; simp

@[simp] theorem inkRest_kept (d : Dev) : kept (inkRest d) = kept d := by
  unfold inkRest; simp

@[simp] theorem insertLeaf_kept (l : Leaf) (d : Dev) : kept (insertLeaf l d) = kept d := by
  unfold insertLeaf; simp; (repeat' split) <;> simp

@[simp] theorem suppressRead_kept (a : Access) (addr : Nat) (hit : Nat × Nat) (level : Nat) (d : Dev) :
    kept (suppressRead a addr hit level d) = kept d := by
  unfold suppressRead; simp

@[simp] theorem issueWalk_kept (w : Walk) (d : Dev) : kept (issueWalk w d).2 = kept d := by
  unfold issueWalk; (repeat' split) <;> simp

@[simp] theorem startWalk_kept (a : Access) (d : Dev) : kept (startWalk a d).2 = kept d := by
  unfold startWalk; simp; (repeat' split) <;> simp

@[simp] theorem turn_kept (a : Access) (d : Dev) : kept (turn a d).2 = kept d := by
  unfold turn; simp; (repeat' split) <;> simp

@[simp] theorem takeSlot_kept (a : Access) (waiters : List Access) (level page : Nat) (dirty : Bool) (slot : Nat) (d : Dev) :
    kept (takeSlot a waiters level page dirty slot d) = kept d := by
  unfold takeSlot; simp

@[simp] theorem trapAccess_kept (a : Access) (level page : Nat) (dirty : Bool) (d : Dev) :
    kept (trapAccess a level page dirty d) = kept d := by
  unfold trapAccess; simp; (repeat' split) <;> simp

@[simp] theorem announceTrap_kept (a : Access) (level page : Nat) (dirty : Bool) (d : Dev) :
    kept (announceTrap a level page dirty d) = kept d := by
  unfold announceTrap; simp; (repeat' split) <;> simp

@[simp] theorem askAccess_kept (a : Access) (d : Dev) : kept (askAccess a d) = kept d := by
  unfold askAccess; simp

@[simp] theorem askChecked_kept (a : Access) (r : Region) (d : Dev) : kept (askChecked a r d) = kept d := by
  unfold askChecked; simp

@[simp] theorem occSent_kept (f : FnId) (p : Packet) (d : Dev) : kept (occSent f p d) = kept d := by
  unfold occSent; simp

@[simp] theorem tagStage_kept (f : FnId) (sq : Nat) (cnt : Word32) (stage : Nat) (first : Bool) (d : Dev) :
    kept (tagStage f sq cnt stage first d) = kept d := by
  unfold tagStage; simp

@[simp] theorem tagEnd_kept (f : FnId) (sq : Nat) (x : Fetched) (st : Status) (conn : Nat) (d : Dev) :
    kept (tagEnd f sq x st conn d) = kept d := by
  unfold tagEnd; (repeat' split) <;> simp

@[simp] theorem setConn_kept (n : Nat) (c : Conn) (d : Dev) : kept (setConn n c d) = kept d :=
  kept_eq rfl rfl Iff.rfl Iff.rfl (tput_rising_iff ..)

@[simp] theorem updConn_kept (n : Nat) (g : Conn → Conn) (d : Dev) : kept (updConn n g d) = kept d :=
  kept_eq rfl rfl Iff.rfl Iff.rfl (tmod_rising_iff ..)

@[simp] theorem winHold_kept (src : Ep) (dest n : Nat) (d : Dev) : kept (winHold src dest n d) = kept d := by
  unfold winHold; (repeat' split) <;> simp

@[simp] theorem winCharge_kept (src : Ep) (dest n : Nat) (live : Bool) (d : Dev) :
    kept (winCharge src dest n live d) = kept d := by
  unfold winCharge; (repeat' split) <;> simp

@[simp] theorem winRelease_kept (src : Ep) (dest n : Nat) (d : Dev) : kept (winRelease src dest n d) = kept d := by
  unfold winRelease; simp

@[simp] theorem queueRoute_kept (it : Item) (d : Dev) : kept (queueRoute it d) = kept d := by
  unfold queueRoute; simp

@[simp] theorem sendNib_kept (f : FnId) (dest : Ep) (conn : Psn) (ntype : Byte) (psn : Psn) (value : Word64) (reason : Byte) (info : Word32) (d : Dev) :
    kept (sendNib f dest conn ntype psn value reason info d) = kept d := by
  unfold sendNib; simp

@[simp] theorem noteEnd_kept (f : FnId) (sq : Nat) (x : Fetched) (e : Cqe) (d : Dev) :
    kept (noteEnd f sq x e d) = kept d := by
  unfold noteEnd; simp

@[simp] theorem endWork_kept (f : FnId) (sq : Nat) (cnt : Word32) (cq : Nat) (signal : Bool) (e : Cqe) (d : Dev) :
    kept (endWork f sq cnt cq signal e d) = kept d := by
  unfold endWork; simp

@[simp] theorem releaseNote_kept (it : TxItem) (sq : Nat) (cnt : Word32) (e : Desc) (d : Dev) :
    kept (releaseNote it sq cnt e d) = kept d := by
  unfold releaseNote; simp

@[simp] theorem tagHanded_kept (it : TxItem) (d : Dev) : kept (tagHanded it d) = kept d := by
  unfold tagHanded; (repeat' split) <;> simp

@[simp] theorem chargeItem_kept (it : TxItem) (d : Dev) : kept (chargeItem it d) = kept d := by
  unfold chargeItem; (repeat' split) <;> simp

@[simp] theorem releaseItem_kept (it : TxItem) (d : Dev) : kept (releaseItem it d) = kept d := by
  unfold releaseItem; simp; (repeat' split) <;> simp

@[simp] theorem submit_kept (cls : Nat) (it : TxItem) (d : Dev) : kept (submit cls it d) = kept d := by
  unfold submit; simp; (repeat' split) <;> simp

@[simp] theorem touchCtx_kept (n : Nat) (d : Dev) : kept (touchCtx n d) = kept d := by
  unfold touchCtx; simp

@[simp] theorem loadCtx_kept (n : Nat) (d : Dev) : kept (loadCtx n d) = kept d := by
  unfold loadCtx; (repeat' split) <;> simp

@[simp] theorem useCtx_kept (n : Nat) (d : Dev) : kept (useCtx n d) = kept d := by
  unfold useCtx; simp

@[simp] theorem writeOp_kept (n : Nat) (c : Conn) (o : Op) (s : Status) (d : Dev) :
    kept (writeOp n c o s d) = kept d := by
  unfold writeOp; (repeat' split) <;> simp

@[simp] theorem writeFinished_kept (n : Nat) (c : Conn) :
    ∀ (a0 : List Op) (a1 : Dev), kept (writeFinished n c a0 a1).2 = kept a1 := by
  intro a0
  induction a0 with
  | _ =>
    intros
    unfold writeFinished
    (repeat' split) <;> simp_all

@[simp] theorem tagAnswered_kept (c : Conn) (d : Dev) : kept (tagAnswered c d) = kept d := by
  unfold tagAnswered; simp [foldl_kept]

@[simp] theorem retire_kept (n : Nat) (d : Dev) : kept (retire n d) = kept d := by
  unfold retire; (repeat' split) <;> simp

@[simp] theorem sendNow_kept (n : Nat) (c : Conn) (o : Op) (q : Psn) (retx : Bool) (pay : List Byte) (d : Dev) :
    kept (sendNow n c o q retx pay d) = kept d := by
  unfold sendNow; simp

@[simp] theorem askPayload_kept (n : Nat) (c : Conn) (o : Op) (q : Psn) (retx : Bool) (d : Dev) :
    kept (askPayload n c o q retx d).2 = kept d := by
  unfold askPayload; simp; (repeat' split) <;> simp

@[simp] theorem holdWin_kept (n : Nat) (c : Conn) (d : Dev) : kept (holdWin n c d) = kept d := by
  unfold holdWin; simp

@[simp] theorem pump_kept :
    ∀ (a0 : Nat) (a1 : Nat) (a2 : Dev), kept (pump a0 a1 a2) = kept a2 := by
  intro a0
  induction a0 with
  | _ =>
    intros
    unfold pump
    (repeat' split) <;> simp_all

@[simp] theorem startOp_kept (n : Nat) (o : Op) (d : Dev) : kept (startOp n o d) = kept d := by
  unfold startOp; (repeat' split) <;> simp

@[simp] theorem payloadFailed_kept (n : Nat) (q : Psn) (s : Status) (d : Dev) :
    kept (payloadFailed n q s d) = kept d := by
  unfold payloadFailed; (repeat' split) <;> simp

@[simp] theorem setMctx_kept (m : Nat) (x : Mctx) (d : Dev) : kept (setMctx m x d) = kept d := by
  unfold setMctx; simp

@[simp] theorem updMsg_kept (id : Nat) (g : MsgRec → MsgRec) (d : Dev) : kept (updMsg id g d) = kept d := by
  unfold updMsg; simp

@[simp] theorem dropMsg_kept (id : Nat) (d : Dev) : kept (dropMsg id d) = kept d := by
  unfold dropMsg; simp

@[simp] theorem noteSearch_kept (f : FnId) (n : Nat) (d : Dev) : kept (noteSearch f n d) = kept d := by
  unfold noteSearch; simp

@[simp] theorem completeRecv_kept (r : MsgRec) (p : Posted) (s : Status) (placed : Nat) (d : Dev) :
    kept (completeRecv r p s placed d) = kept d := by
  unfold completeRecv; simp

@[simp] theorem settleMsg_kept (id : Nat) (d : Dev) : kept (settleMsg id d) = kept d := by
  unfold settleMsg; (repeat' split) <;> simp

@[simp] theorem askPlace_kept (r : MsgRec) (p : Posted) (off : Nat) (data : List Byte) (cont : List Byte → Cont) (conn : Nat) (d : Dev) :
    kept (askPlace r p off data cont conn d).2 = kept d := by
  unfold askPlace; simp; (repeat' split) <;> simp

@[simp] theorem copyStaged_kept (r : MsgRec) (p : Posted) :
    ∀ (a0 : List (Nat × List Byte × Bool)) (a1 : Dev), kept (copyStaged r p a0 a1) = kept a1 := by
  intro a0
  induction a0 with
  | _ =>
    intros
    unfold copyStaged
    (repeat' split) <;> simp_all

@[simp] theorem joinMsg_kept (id : Nat) (p : Posted) (d : Dev) : kept (joinMsg id p d) = kept d := by
  unfold joinMsg; (repeat' split) <;> simp

@[simp] theorem matchMsg_kept (id : Nat) (d : Dev) : kept (matchMsg id d) = kept d := by
  unfold matchMsg; (repeat' split) <;> simp

@[simp] theorem pullEnded_kept (id : Nat) (s : Status) (d : Dev) : kept (pullEnded id s d) = kept d := by
  unfold pullEnded; simp; (repeat' split) <;> simp

@[simp] theorem breakMsgs_kept (n : Nat) (s : Status) (d : Dev) : kept (breakMsgs n s d) = kept d := by
  unfold breakMsgs; refine foldl_kept _ (fun d x => ?_) _ _; (repeat' split) <;> simp

@[simp] theorem releaseCharges_kept (c : Conn) (d : Dev) : kept (releaseCharges c d) = kept d := by
  unfold releaseCharges; simp [foldl_kept]

@[simp] theorem postBroken_kept (n : Nat) (c : Conn) (s : Status) (d : Dev) : kept (postBroken n c s d) = kept d := by
  unfold postBroken; simp

@[simp] theorem failConn_kept (n : Nat) (oldest later ev : Status) (reset : Bool) (d : Dev) :
    kept (failConn n oldest later ev reset d) = kept d := by
  unfold failConn; (repeat' split) <;> simp

@[simp] theorem answer_kept (c : Conn) (ntype : Byte) (psn : Psn) (value : Word64) (reason : Byte) (info : Word32) (d : Dev) :
    kept (answer c ntype psn value reason info d) = kept d := by
  unfold answer; simp

@[simp] theorem sendCover_kept (n : Nat) (ntype : Byte) (reason : Byte) (info : Word32) (d : Dev) :
    kept (sendCover n ntype reason info d) = kept d := by
  unfold sendCover; (repeat' split) <;> simp

@[simp] theorem sendAck_kept (n : Nat) (d : Dev) : kept (sendAck n d) = kept d := by
  unfold sendAck; simp

@[simp] theorem sendRnr_kept (n : Nat) (r : Rnr) (d : Dev) : kept (sendRnr n r d) = kept d := by
  unfold sendRnr; simp

@[simp] theorem sendAccessNak_kept (n : Nat) (psn : Psn) (d : Dev) : kept (sendAccessNak n psn d) = kept d := by
  unfold sendAccessNak; (repeat' split) <;> simp

@[simp] theorem unmark_kept (n : Nat) (q : Psn) (d : Dev) : kept (unmark n q d) = kept d := by
  unfold unmark; simp

@[simp] theorem noteExec_kept (c : Conn) (q : Psn) (d : Dev) : kept (noteExec c q d) = kept d := by
  unfold noteExec; (repeat' split) <;> simp

@[simp] theorem markExec_kept (n : Nat) (q : Psn) (d : Dev) : kept (markExec n q d) = kept d := by
  unfold markExec; (repeat' split) <;> simp

@[simp] theorem notifyFlag_kept (n : Nat) (c : Conn) (p : Packet) (d : Dev) : kept (notifyFlag n c p d) = kept d := by
  unfold notifyFlag; simp

@[simp] theorem askPut_kept (n : Nat) (c : Conn) (p : Packet) (d : Dev) : kept (askPut n c p d) = kept d := by
  unfold askPut; simp; (repeat' split) <;> simp

@[simp] theorem askGet_kept (n : Nat) (c : Conn) (p : Packet) (d : Dev) : kept (askGet n c p d) = kept d := by
  unfold askGet; (repeat' split) <;> simp

@[simp] theorem askAtomic_kept (n : Nat) (c : Conn) (p : Packet) (d : Dev) : kept (askAtomic n c p d) = kept d := by
  unfold askAtomic; (repeat' split) <;> simp

@[simp] theorem finishSend_kept (n : Nat) (p : Packet) (d : Dev) : kept (finishSend n p d) = kept d := by
  unfold finishSend; (repeat' split) <;> simp

@[simp] theorem execSend_kept (n : Nat) (p : Packet) (d : Dev) : kept (execSend n p d) = kept d := by
  unfold execSend; (repeat' split) <;> simp

@[simp] theorem handOver_kept (n : Nat) (p : Packet) (d : Dev) : kept (handOver n p d) = kept d := by
  unfold handOver; (repeat' split) <;> simp

@[simp] theorem execPkt_kept (n : Nat) (c : Conn) (p : Packet) (d : Dev) : kept (execPkt n c p d) = kept d := by
  unfold execPkt; simp

@[simp] theorem advance_kept :
    ∀ (a0 : Nat) (a1 : Nat) (a2 : Dev), kept (advance a0 a1 a2) = kept a2 := by
  intro a0
  induction a0 with
  | _ =>
    intros
    unfold advance
    (repeat' split)
    all_goals (try simp_all)
    all_goals (repeat' split)
    all_goals (try simp_all)
    all_goals (repeat' split)
    all_goals (try simp_all)

@[simp] theorem afterExec_kept (n : Nat) (now : Bool) (d : Dev) : kept (afterExec n now d) = kept d := by
  unfold afterExec; simp; (repeat' split) <;> simp

@[simp] theorem failOp_kept (n : Nat) (msn : Psn) (s : Status) (d : Dev) : kept (failOp n msn s d) = kept d := by
  unfold failOp; (repeat' split) <;> simp

@[simp] theorem setNode_kept (tree : Nat) (x : TreeNode) (d : Dev) : kept (setNode tree x d) = kept d := by
  unfold setNode; simp

@[simp] theorem updOpn_kept (tree : Nat) (g : TreeOp → TreeOp) (d : Dev) : kept (updOpn tree g d) = kept d := by
  unfold updOpn; simp

@[simp] theorem retireBanks_kept (d : Dev) : kept (retireBanks d) = kept d := by
  unfold retireBanks; simp

@[simp] theorem queuePort_kept (p : Nat) (it : QItem) (d : Dev) : kept (queuePort p it d) = kept d := by
  unfold queuePort; simp

@[simp] theorem sendTreeTo_kept (dest : Ep) (p : Nat) (t : TreePkt) (dom : Dom) (epoch : Bool) (d : Dev) :
    kept (sendTreeTo dest p t dom epoch d) = kept d := by
  unfold sendTreeTo; simp

@[simp] theorem sendTree_kept (p : Nat) (t : TreePkt) (dom : Dom) (epoch : Bool) (d : Dev) :
    kept (sendTree p t dom epoch d) = kept d := by
  unfold sendTree; simp

@[simp] theorem sendAborts_kept (t : TreeWords) (tree opn : Nat) (s : Status) (mismatch : Bool) (except : List Nat) (epoch : Bool) (d : Dev) :
    kept (sendAborts t tree opn s mismatch except epoch d) = kept d := by
  unfold sendAborts; simp [foldl_kept]

@[simp] theorem completeColl_kept (tree : Nat) (r : CollReq) (s : Status) (mismatch : Bool) (d : Dev) :
    kept (completeColl tree r s mismatch d) = kept d := by
  unfold completeColl; simp

@[simp] theorem updColl_kept (f : FnId) (tree : Nat) (g : CollReq → CollReq) (d : Dev) :
    kept (updColl f tree g d) = kept d := by
  unfold updColl; simp

@[simp] theorem completeMembers_kept (t : TreeWords) (tree opn : Nat) (s : Status) (mismatch : Bool) (d : Dev) :
    kept (completeMembers t tree opn s mismatch d) = kept d := by
  unfold completeMembers; refine foldl_kept _ (fun d x => ?_) _ _; (repeat' split) <;> simp

@[simp] theorem closeOp_kept (tree : Nat) (s : Status) (mismatch : Bool) (d : Dev) :
    kept (closeOp tree s mismatch d) = kept d := by
  unfold closeOp; simp

@[simp] theorem abortAlong_kept (tree opn : Nat) (s : Status) (mismatch : Bool) (a0 : List Nat) (a1 : List (TreeWords × Bool))
    (d : Dev) : kept (abortAlong tree opn s mismatch a0 a1 d) = kept d := by
  induction a1 generalizing a0 d with
  | nil => unfold abortAlong; rfl
  | cons x l ih => unfold abortAlong; simp [ih]

@[simp] theorem endOpBy_kept (more : List (TreeWords × Bool)) (tree : Nat) (s : Status) (mismatch : Bool) (except : Nat) (d : Dev) :
    kept (endOpBy more tree s mismatch except d) = kept d := by
  unfold endOpBy; simp

@[simp] theorem endOp_kept (tree : Nat) (s : Status) (mismatch : Bool) (except : Nat) (d : Dev) :
    kept (endOp tree s mismatch except d) = kept d := by
  unfold endOp; simp

@[simp] theorem endIfRunning_kept (tree : Nat) (s : Status) (d : Dev) : kept (endIfRunning tree s d) = kept d := by
  unfold endIfRunning; simp

@[simp] theorem endDone_kept (tree : Nat) (t : TreeWords) (d : Dev) : kept (endDone tree t d) = kept d := by
  unfold endDone; simp [foldl_kept]

@[simp] theorem tagMembers_kept (tree : Nat) (t : TreeWords) (stage : Nat) (first : Bool) (d : Dev) :
    kept (tagMembers tree t stage first d) = kept d := by
  unfold tagMembers; refine foldl_kept _ (fun d x => ?_) _ _; (repeat' split) <;> simp

@[simp] theorem sendUp_kept (tree : Nat) (t : TreeWords) (c : Contrib) (d : Dev) :
    kept (sendUp tree t c d) = kept d := by
  unfold sendUp; simp; (repeat' split) <;> simp

@[simp] theorem sendUpCredit_kept (tree : Nat) (t : TreeWords) (i : Nat) (d : Dev) :
    kept (sendUpCredit tree t i d) = kept d := by
  unfold sendUpCredit; simp [foldl_kept]

@[simp] theorem askContrib_kept (tree : Nat) (r : CollReq) (h : CollHdr) (d : Dev) :
    kept (askContrib tree r h d) = kept d := by
  unfold askContrib; simp

@[simp] theorem askContribs_kept (tree : Nat) (f : FnId) (h : CollHdr) (limit : Nat) :
    ∀ (a0 : Nat) (a1 : Dev), kept (askContribs tree f h limit a0 a1) = kept a1 := by
  intro a0
  induction a0 with
  | _ =>
    intros
    unfold askContribs
    (repeat' split) <;> simp_all

@[simp] theorem freeChunk_kept (tree : Nat) (t : TreeWords) (h : CollHdr) (i : Nat) (d : Dev) :
    kept (freeChunk tree t h i d) = kept d := by
  unfold freeChunk; simp [foldl_kept]

@[simp] theorem passUp_kept (tree : Nat) (t : TreeWords) (h : CollHdr) (c : Contrib) (d : Dev) :
    kept (passUp tree t h c d) = kept d := by
  unfold passUp; (repeat' split) <;> simp

@[simp] theorem memberDone_kept (tree : Nat) (n : Nat) (f : FnId) (total : Nat) (d : Dev) :
    kept (memberDone tree n f total d) = kept d := by
  unfold memberDone; (repeat' split) <;> simp

@[simp] theorem giveMember_kept (tree : Nat) (t : TreeWords) (h : CollHdr) (i : Nat) (flags : Byte) (data : List Byte) (n : Nat) (d : Dev) :
    kept (giveMember tree t h i flags data n d) = kept d := by
  unfold giveMember; simp; (repeat' split) <;> simp

@[simp] theorem sendDownTo_kept (tree : Nat) (t : TreeWords) (c : Contrib) (p : Nat) (d : Dev) :
    kept (sendDownTo tree t c p d) = kept d := by
  unfold sendDownTo; simp; (repeat' split) <;> simp

@[simp] theorem giveDown_kept (tree : Nat) (t : TreeWords) (h : CollHdr) (c : Contrib) (d : Dev) :
    kept (giveDown tree t h c d) = kept d := by
  unfold giveDown; simp [foldl_kept]

@[simp] theorem downProgress_kept (tree : Nat) (t : TreeWords) (d : Dev) : kept (downProgress tree t d) = kept d := by
  unfold downProgress; simp; (repeat' split) <;> simp

@[simp] theorem combineNext_kept (tree : Nat) (t : TreeWords) (d : Dev) : kept (combineNext tree t d).2 = kept d := by
  unfold combineNext
  (repeat' split)
  all_goals (try simp [foldl_kept])
  all_goals (repeat' split)
  all_goals (try simp [foldl_kept])

@[simp] theorem combineRun_kept (tree : Nat) (t : TreeWords) :
    ∀ (a0 : Nat) (a1 : Dev), kept (combineRun tree t a0 a1) = kept a1 := by
  intro a0
  induction a0 with
  | _ =>
    intros
    unfold combineRun
    (repeat' split) <;> simp_all

@[simp] theorem bindAny_kept (tree : Nat) (e : Bool) (d : Dev) : kept (bindAny tree e d) = kept d := by
  unfold bindAny; simp; (repeat' split) <;> simp

@[simp] theorem bindEpoch_kept (tree : Nat) (e : Bool) (d : Dev) : kept (bindEpoch tree e d).2 = kept d := by
  unfold bindEpoch; simp; (repeat' split) <;> simp

@[simp] theorem takeContrib_kept (tree : Nat) (t : TreeWords) (h : CollHdr) (c : Contrib) (d : Dev) :
    kept (takeContrib tree t h c d) = kept d := by
  unfold takeContrib; simp; (repeat' split) <;> simp

@[simp] theorem beginColl_kept (tree : Nat) (r : CollReq) (d : Dev) : kept (beginColl tree r d) = kept d := by
  unfold beginColl; simp; (repeat' split) <;> simp

@[simp] theorem startWaiting_kept (f : FnId) (tree : Nat) (d : Dev) : kept (startWaiting f tree d) = kept d := by
  unfold startWaiting; simp; (repeat' split) <;> simp

@[simp] theorem memberFails_kept (tree : Nat) (f : FnId) (s : Status) (d : Dev) :
    kept (memberFails tree f s d) = kept d := by
  unfold memberFails; (repeat' split) <;> simp

@[simp] theorem memberFailsIn_kept (tree opn : Nat) (f : FnId) (s : Status) (d : Dev) :
    kept (memberFailsIn tree opn f s d) = kept d := by
  unfold memberFailsIn; simp

@[simp] theorem collPlaced_kept (tree opn : Nat) (f : FnId) (i n : Nat) (flags : Byte) (d : Dev) :
    kept (collPlaced tree opn f i n flags d) = kept d := by
  unfold collPlaced; (repeat' split) <;> simp

@[simp] theorem writeSegs_kept (f : FnId) (half relaxed : Bool) :
    ∀ (a0 : List (Nat × Nat)) (a1 : List Byte) (a2 : Dev), kept (writeSegs f half relaxed a0 a1 a2) = kept a2 := by
  intro a0
  induction a0 with
  | _ =>
    intros
    unfold writeSegs
    (repeat' split) <;> simp_all

@[simp] theorem issueRead_kept (a : Access) (half : Bool) (d : Dev) : kept (issueRead a half d) = kept d := by
  unfold issueRead; simp

@[simp] theorem endNote_kept (f : FnId) (sq : Nat) (cnt : Word32) (e : Desc) (s : Status) (d : Dev) :
    kept (endNote f sq cnt e s d) = kept d := by
  unfold endNote; simp

@[simp] theorem tagTranslated_kept (a : Access) (d : Dev) : kept (tagTranslated a d) = kept d := by
  unfold tagTranslated; (repeat' split) <;> simp

@[simp] theorem readChunks_kept (n : Nat) (p : Packet) (a : Access) :
    ∀ (a0 : Nat) (a1 : Nat) (a2 : Dev), kept (readChunks n p a a0 a1 a2) = kept a2 := by
  intro a0
  induction a0 with
  | _ =>
    intros
    unfold readChunks
    (repeat' split) <;> simp_all

@[simp] theorem endCopy_kept (id : Nat) (d : Dev) : kept (endCopy id d) = kept d := by
  unfold endCopy; simp

@[simp] theorem finishAccess_kept (a : Access) (d : Dev) : kept (finishAccess a d) = kept d := by
  unfold finishAccess; simp; (repeat' split) <;> simp

@[simp] theorem refuseRemote_kept (n : Nat) (p : Packet) (d : Dev) : kept (refuseRemote n p d) = kept d := by
  unfold refuseRemote; simp

@[simp] theorem failAccess_kept (s : Status) (a : Access) (d : Dev) : kept (failAccess s a d) = kept d := by
  unfold failAccess; (repeat' split) <;> simp

@[simp] theorem trapNote_kept (id : Nat) (data : List Byte) (a : Access) (level page : Nat) (dirty : Bool) (d : Dev) :
    kept (trapNote id data a level page dirty d) = kept d := by
  unfold trapNote; (repeat' split) <;> simp

@[simp] theorem waitResp_kept (n : Nat) (msn : Psn) (a : Access) (level page : Nat) (dirty : Bool) (d : Dev) :
    kept (waitResp n msn a level page dirty d) = kept d := by
  unfold waitResp; simp

@[simp] theorem trapped_kept (a : Access) (level page : Nat) (dirty : Bool) (d : Dev) :
    kept (trapped a level page dirty d) = kept d := by
  unfold trapped; (repeat' split) <;> simp

@[simp] theorem holdAccess_kept (a : Access) (d : Dev) : kept (holdAccess a d) = kept d := by
  unfold holdAccess; simp

@[simp] theorem applyRes_kept (r : XRes × Dev) : kept (applyRes r) = kept r.2 := by
  unfold applyRes; (repeat' split) <;> simp

@[simp] theorem parkStart_kept (n : Nat) (d : Dev) : kept (parkStart n d) = kept d := by
  unfold parkStart; simp

@[simp] theorem endTreesOn_kept (p : Nat) (d : Dev) : kept (endTreesOn p d) = kept d := by
  unfold endTreesOn; simp [foldl_kept]

@[simp] theorem settle_kept :
    ∀ (a0 : Nat) (a1 : Dev), kept (settle a0 a1) = kept a1 := by
  intro a0
  induction a0 with
  | _ =>
    intros
    unfold settle
    (repeat' split) <;> simp_all

@[simp] theorem takeHead_kept (f : FnId) (sq : Nat) (q : Sq) (x : Fetched) (cq : Nat) (d : Dev) :
    kept (takeHead f sq q x cq d) = kept d := by
  unfold takeHead; simp

@[simp] theorem endStart_kept (s : Start) (st : Status) (len : Nat) (conn : Nat) (d : Dev) :
    kept (endStart s st len conn d) = kept d := by
  unfold endStart; simp

@[simp] theorem endUnknownWork_kept (f : FnId) (sq : Nat) (e : Desc) (d : Dev) :
    kept (endUnknownWork f sq e d) = kept d := by
  unfold endUnknownWork; (repeat' split) <;> simp

@[simp] theorem endUnknownAdmin_kept (f : FnId) (e : Desc) (d : Dev) : kept (endUnknownAdmin f e d) = kept d := by
  unfold endUnknownAdmin; simp

@[simp] theorem endUnknown_kept :
    ∀ (a0 : Nat) (a1 : Dev), kept (endUnknown a0 a1) = kept a1 := by
  intro a0
  induction a0 with
  | _ =>
    intros
    unfold endUnknown
    (repeat' split) <;> simp_all

@[simp] theorem rest_kept (d : Dev) : kept (rest d) = kept d := by
  unfold rest; simp

end Sys2Proof.Machine
end

