-- ==== Sys2Proof/Laws/Hard.lean ====
section
/-!
SUPPORT. What hardly any operation changes: the fuses, the straps, the stored registers and the form of the
tables; `hard` names it.
-/
namespace Sys2Proof.Machine

open Sys2Proof

/-- What `hard` names of a device. -/
abbrev HardT := Fuse × Strap × Tbl Word64 × Tbl Word64 × Nat × Prop

/-- The fuses, the straps, the stored registers, the staged ones, the last block acknowledged, and whether the tables of
functions, ports and connections are in their one form. -/
def hard (d : Dev) : HardT := (d.fuse, d.strap, d.regs, d.stg, d.isl.acked, ordered d)

theorem hard_eq {d e : Dev} (h : (e.fuse, e.strap, e.regs, e.stg) = (d.fuse, d.strap, d.regs, d.stg))
    (ha : e.isl.acked = d.isl.acked) (hf : rising e.fns ↔ rising d.fns) (hh : rising e.hp ↔ rising d.hp)
    (hp : rising e.ports ↔ rising d.ports) (hc : rising e.xpt.conns ↔ rising d.xpt.conns) : hard e = hard d := by
  simp only [Prod.mk.injEq] at h
  simp only [hard, ordered, h, ha, hf, hh, hp, hc]

@[simp] theorem hard_mk (d : Dev) (vclk : Clk) (vxl : Xl) (vxpt : Xpt) (vmtc : Mtc) (veng : Eng) (vtre : Tre) (vrt : Rt) (vtc : Tc) (vsvc : Svc) (vft : Ft) (vflt : Flt) (vboot : Boot) (vmode : Mode) (vmodeSt : ModeSt) (vpmu : Pmu) (vink : Ink) (vcfg : Cfg) (vpace : Pace) (vtherm : Therm) (vjtag : Jtag) (vout : List Out) (vfree : Nat) (vownerPort : Fin 4) (h : vxpt.conns = d.xpt.conns) :
    hard (Dev.mk vclk d.fuse d.strap d.hp d.fns vxl vxpt vmtc veng vtre vrt d.ports vtc vsvc vft d.isl vflt vboot vmode vmodeSt vpmu vink vcfg vpace vtherm vjtag d.regs d.stg vout vfree vownerPort) = hard d :=
  hard_eq rfl rfl Iff.rfl Iff.rfl Iff.rfl (by rw [h])

@[simp] theorem hard_ite (c : Prop) [Decidable c] (a b : Dev) :
    hard (if c then a else b) = if c then hard a else hard b := apply_ite _ _ _ _

theorem foldl_hard {α : Type} (g : Dev → α → Dev) (h : ∀ d x, hard (g d x) = hard d) (l : List α) (d : Dev) :
    hard (l.foldl g d) = hard d := by
  induction l generalizing d with
  | nil => rfl
  | cons x l ih => simp only [List.foldl_cons, ih, h]

theorem hard_of_kept {d e : Dev} (h : kept d = kept e) : hard d = hard e := by
  simp only [kept, Prod.mk.injEq] at h
  simp only [hard, h]

@[simp] theorem setFn_hard (f : FnId) (x : Fn) (d : Dev) : hard (setFn f x d) = hard d :=
  hard_of_kept (setFn_kept f x d)

@[simp] theorem updFn_hard (f : FnId) (g : Fn → Fn) (d : Dev) : hard (updFn f g d) = hard d :=
  hard_of_kept (updFn_kept f g d)

@[simp] theorem updHp_hard (p : Fin 4) (g : HostPort → HostPort) (d : Dev) : hard (updHp p g d) = hard d :=
  hard_eq rfl rfl Iff.rfl (tput_rising_iff ..) Iff.rfl Iff.rfl

@[simp] theorem emit_hard (o : Out) (d : Dev) : hard (emit o d) = hard d :=
  hard_of_kept (emit_kept o d)

@[simp] theorem hostWrite_hard (f : FnId) (half : Bool) (addr : Nat) (bs : List Byte) (relaxed : Bool) (d : Dev) :
    hard (hostWrite f half addr bs relaxed d) = hard d :=
  hard_of_kept (hostWrite_kept f half addr bs relaxed d)

@[simp] theorem fire_hard (f : FnId) (vec : Nat) (d : Dev) : hard (fire f vec d) = hard d :=
  hard_of_kept (fire_kept f vec d)

@[simp] theorem firePending_hard (f : FnId) (d : Dev) : hard (firePending f d) = hard d := by
  unfold firePending; simp [foldl_hard]

@[simp] theorem aerReport_hard (f : FnId) (n : Nat) (d : Dev) : hard (aerReport f n d) = hard d := by
  unfold aerReport; simp

@[simp] theorem occur_hard (o : Occ) (d : Dev) : hard (occur o d) = hard d :=
  hard_of_kept (occur_kept o d)

@[simp] theorem tally_hard (f : FnId) (what n : Nat) (d : Dev) : hard (tally f what n d) = hard d :=
  hard_of_kept (tally_kept f what n d)

@[simp] theorem takeFree_hard (d : Dev) : hard (takeFree d).2 = hard d :=
  hard_of_kept (takeFree_kept d)

@[simp] theorem mergeEvent_hard (f : FnId) (c : Nat) (d : Dev) : hard (mergeEvent f c d) = hard d :=
  hard_of_kept (mergeEvent_kept f c d)

@[simp] theorem writeEqe_hard (f : FnId) (q : Nat) (e : Eqe) (d : Dev) : hard (writeEqe f q e d) = hard d :=
  hard_of_kept (writeEqe_kept f q e d)

@[simp] theorem postEvent_hard (f : FnId) (code : EvCode) (object : Word32) (a b : Word64) (d : Dev) :
    hard (postEvent f code object a b d) = hard d :=
  hard_of_kept (postEvent_kept f code object a b d)

@[simp] theorem postOwner_hard (code : EvCode) (object : Word32) (a b : Word64) (d : Dev) :
    hard (postOwner code object a b d) = hard d := by
  unfold postOwner; simp

@[simp] theorem postSubscribed_hard (code : EvCode) (object : Word32) (a b : Word64) (d : Dev) :
    hard (postSubscribed code object a b d) = hard d :=
  hard_of_kept (postSubscribed_kept code object a b d)

@[simp] theorem writeCqe_hard (f : FnId) (n : Nat) (e : Cqe) (d : Dev) : hard (writeCqe f n e d) = hard d :=
  hard_of_kept (writeCqe_kept f n e d)

@[simp] theorem cqRelease_hard (f : FnId) (n : Nat) (d : Dev) : hard (cqRelease f n d) = hard d :=
  hard_of_kept (cqRelease_kept f n d)

@[simp] theorem cqReserve_hard (f : FnId) (n : Nat) (d : Dev) : hard (cqReserve f n d) = hard d :=
  hard_of_kept (cqReserve_kept f n d)

@[simp] theorem postCqe_hard (f : FnId) (n : Nat) (op : Bool) (e : Cqe) (d : Dev) :
    hard (postCqe f n op e d) = hard d :=
  hard_of_kept (postCqe_kept f n op e d)

@[simp] theorem drainCq_hard (f : FnId) (n : Nat) :
    ∀ (a0 : Nat) (a1 : Dev), hard (drainCq f n a0 a1) = hard a1 := by
  intro a0
  induction a0 with
  | _ =>
    intros
    unfold drainCq
    (repeat' split) <;> simp_all

@[simp] theorem noteFlr_hard (f : FnId) (d : Dev) : hard (noteFlr f d) = hard d :=
  hard_eq rfl rfl Iff.rfl Iff.rfl Iff.rfl Iff.rfl

@[simp] theorem writeAcq_hard (f : FnId) (e : Cqe) (d : Dev) : hard (writeAcq f e d) = hard d :=
  hard_of_kept (writeAcq_kept f e d)

@[simp] theorem postAcq_hard (f : FnId) (e : Cqe) (d : Dev) : hard (postAcq f e d) = hard d :=
  hard_of_kept (postAcq_kept f e d)

@[simp] theorem drainAcq_hard (f : FnId) :
    ∀ (a0 : Nat) (a1 : Dev), hard (drainAcq f a0 a1) = hard a1 := by
  intro a0
  induction a0 with
  | _ =>
    intros
    unfold drainAcq
    (repeat' split)
    all_goals (try simp_all)
    all_goals (repeat' split)
    all_goals (try simp_all)
    all_goals (repeat' split)
    all_goals (try simp_all)

@[simp] theorem writeBack_hard (f : FnId) (n : Nat) (d : Dev) : hard (writeBack f n d) = hard d := by
  unfold writeBack; (repeat' split) <;> simp

theorem halfwise_hard {g : Wr → Dev → Dev} (h : ∀ w d, hard (g w d) = hard d) (w : Wr) (d : Dev) :
    hard (halfwise g w d) = hard d := by
  unfold halfwise; split <;> simp [h]

theorem byHalves_hard {off : Nat} {g : Wr → Dev → Dev} (h : ∀ w d, hard (g w d) = hard d) (w : Wr) (d : Dev) :
    hard (byHalves off g w d) = hard d := by
  unfold byHalves; split
  · exact h w d
  · exact halfwise_hard h w d

@[simp] theorem noteWrite_hard (d : Dev) : hard (noteWrite d) = hard d := by
  unfold noteWrite; simp

@[simp] theorem setPort_hard (p : Nat) (x : Port) (d : Dev) : hard (setPort p x d) = hard d :=
  hard_of_kept (setPort_kept p x d)

@[simp] theorem updPort_hard (p : Nat) (g : Port → Port) (d : Dev) : hard (updPort p g d) = hard d :=
  hard_of_kept (updPort_kept p g d)

@[simp] theorem setFlash_hard (off : Nat) (bs : List Byte) (d : Dev) : hard (setFlash off bs d) = hard d := by
  unfold setFlash; simp

@[simp] theorem sendLink_hard (p : Nat) (m : LinkMsg) (d : Dev) : hard (sendLink p m d) = hard d :=
  hard_of_kept (sendLink_kept p m d)

@[simp] theorem sendHello_hard (p : Nat) (d : Dev) : hard (sendHello p d) = hard d := by
  unfold sendHello; simp

@[simp] theorem helloAll_hard (d : Dev) : hard (helloAll d) = hard d := by
  unfold helloAll; simp [foldl_hard]

@[simp] theorem notifyPort_hard (p : Nat) (d : Dev) : hard (notifyPort p d) = hard d :=
  hard_of_kept (notifyPort_kept p d)

@[simp] theorem postPortUp_hard (p : Nat) (d : Dev) : hard (postPortUp p d) = hard d :=
  hard_of_kept (postPortUp_kept p d)

@[simp] theorem postPortDown_hard (p cause : Nat) (st : PortSt) (d : Dev) :
    hard (postPortDown p cause st d) = hard d := by
  unfold postPortDown; simp

@[simp] theorem postPortWidth_hard (p reason : Nat) (d : Dev) : hard (postPortWidth p reason d) = hard d := by
  unfold postPortWidth; simp

@[simp] theorem releaseHold_hard (ing : Nat) (hold : List (Nat × Nat)) (d : Dev) :
    hard (releaseHold ing hold d) = hard d := by
  unfold releaseHold; simp

@[simp] theorem discardWaiting_hard (d : Dev) : hard (discardWaiting d) = hard d := by
  unfold discardWaiting; simp [foldl_hard]

@[simp] theorem requeuePort_hard (p : Nat) (d : Dev) : hard (requeuePort p d) = hard d := by
  unfold requeuePort; simp

@[simp] theorem leaveUp_hard (p cause : Nat) (st : PortSt) (d : Dev) : hard (leaveUp p cause st d) = hard d := by
  unfold leaveUp; simp

@[simp] theorem enterUp_hard (p : Nat) (d : Dev) : hard (enterUp p d) = hard d :=
  hard_of_kept (enterUp_kept p d)

@[simp] theorem sendMode_hard (p : Nat) (d : Dev) : hard (sendMode p d) = hard d :=
  hard_of_kept (sendMode_kept p d)

@[simp] theorem announce_hard (p : Nat) (d : Dev) : hard (announce p d) = hard d := by
  unfold announce; simp

@[simp] theorem announceAll_hard (d : Dev) : hard (announceAll d) = hard d := by
  unfold announceAll; simp [foldl_hard]

@[simp] theorem setSvc_hard (n : Nat) (x : SvcPort) (d : Dev) : hard (setSvc n x d) = hard d :=
  hard_of_kept (setSvc_kept n x d)

@[simp] theorem updSvc_hard (n : Nat) (g : SvcPort → SvcPort) (d : Dev) : hard (updSvc n g d) = hard d := by
  unfold updSvc; simp

@[simp] theorem putFrame_hard (n : Nat) (f : Frame) (d : Dev) : hard (putFrame n f d) = hard d :=
  hard_of_kept (putFrame_kept n f d)

@[simp] theorem svcPump_hard (n : Nat) (a0 : Nat) (a1 : Dev) : hard (svcPump n a0 a1) = hard a1 :=
  hard_of_kept (svcPump_kept n a0 a1)

@[simp] theorem svcQueue_hard (n : Nat) (f : Frame) (hold : Option (Nat × Nat)) (d : Dev) :
    hard (svcQueue n f hold d) = hard d :=
  hard_of_kept (svcQueue_kept n f hold d)

@[simp] theorem svcSend_hard (n : Nat) (f : Frame) (d : Dev) : hard (svcSend n f d) = hard d :=
  hard_of_kept (svcSend_kept n f d)

@[simp] theorem freeBufs_hard (n : Nat) (d : Dev) : hard (freeBufs n d) = hard d := by
  unfold freeBufs; simp

@[simp] theorem svcRun_hard (d : Dev) : hard (svcRun d) = hard d := by
  unfold svcRun; simp [foldl_hard]

@[simp] theorem countDrop_hard (n : Nat) (d : Dev) : hard (countDrop n d) = hard d := by
  unfold countDrop; simp

@[simp] theorem svcHello_hard (n : Nat) (d : Dev) : hard (svcHello n d) = hard d := by
  unfold svcHello; simp

@[simp] theorem svcHellos_hard (old : Dev) (d : Dev) : hard (svcHellos old d) = hard d := by
  unfold svcHellos; simp [foldl_hard]

@[simp] theorem sendUpFrame_hard (ftype : BitVec 4) (payload : List Byte) (d : Dev) :
    hard (sendUpFrame ftype payload d).2 = hard d :=
  hard_of_kept (sendUpFrame_kept ftype payload d)

@[simp] theorem sendNotify_hard (d : Dev) : hard (sendNotify d) = hard d :=
  hard_of_kept (sendNotify_kept d)

@[simp] theorem setRec_hard (src : Nat) (r : FltRec) (d : Dev) : hard (setRec src r d) = hard d :=
  hard_of_kept (setRec_kept src r d)

@[simp] theorem reportCorrected_hard (src n : Nat) (d : Dev) : hard (reportCorrected src n d) = hard d :=
  hard_of_kept (reportCorrected_kept src n d)

@[simp] theorem reportError_hard (src : Nat) (cls : FClass) (cause : Nat) (detail : Byte) (object : BitVec 24) (n : Nat) (d : Dev) :
    hard (reportError src cls cause detail object n d) = hard d :=
  hard_of_kept (reportError_kept src cls cause detail object n d)

@[simp] theorem report_hard (src : Nat) (cls : FClass) (cause : Nat) (detail : Byte) (object : BitVec 24) (n : Nat) (d : Dev) :
    hard (report src cls cause detail object n d) = hard d :=
  hard_of_kept (report_kept src cls cause detail object n d)

@[simp] theorem inkStop_hard (cause : Nat) (d : Dev) : hard (inkStop cause d) = hard d := by
  unfold inkStop; simp

@[simp] theorem inkTrigger_hard (d : Dev) : hard (inkTrigger d) = hard d := by
  unfold inkTrigger; simp

@[simp] theorem setMode_hard (m : Mode) (cause : Nat) (d : Dev) : hard (setMode m cause d) = hard d := by
  unfold setMode; simp

@[simp] theorem enterQuarantine_hard (cause : Nat) (d : Dev) : hard (enterQuarantine cause d) = hard d := by
  unfold enterQuarantine; simp [foldl_hard]

@[simp] theorem inkFault_hard (src : Nat) (fresh : Bool) (d : Dev) : hard (inkFault src fresh d) = hard d := by
  unfold inkFault; simp

@[simp] theorem postRecorded_hard (src : Nat) (r : FltRec) (d : Dev) : hard (postRecorded src r d) = hard d := by
  unfold postRecorded; simp

@[simp] theorem newRec_hard (src : Nat) (r : FltRec) (d : Dev) : hard (newRec src r d) = hard d := by
  unfold newRec; simp

@[simp] theorem takeCorrected_hard (src : Nat) (d : Dev) : hard (takeCorrected src d) = hard d := by
  unfold takeCorrected; simp

@[simp] theorem takeErrors_hard (src : Nat) (w : FltNew) (d : Dev) : hard (takeErrors src w d) = hard d := by
  unfold takeErrors; simp

@[simp] theorem takeReport_hard (src : Nat) (d : Dev) : hard (takeReport src d) = hard d := by
  unfold takeReport; simp; (repeat' split) <;> simp

@[simp] theorem reportPath_hard (src : Nat) (d : Dev) : hard (reportPath src d) = hard d := by
  unfold reportPath; simp

@[simp] theorem samplePair_hard (src : Nat) (d : Dev) : hard (samplePair src d) = hard d := by
  unfold samplePair; simp

@[simp] theorem collect_hard (d : Dev) : hard (collect d) = hard d := by
  unfold collect; simp [foldl_hard]

@[simp] theorem pcieError_hard (f : FnId) (aer : Nat) (d : Dev) : hard (pcieError f aer d) = hard d := by
  unfold pcieError; simp

@[simp] theorem addRec_hard (kind : Nat) (data : List Byte) (d : Dev) : hard (addRec kind data d) = hard d :=
  hard_of_kept (addRec_kept kind data d)

@[simp] theorem addToken_hard (d : Dev) : hard (addToken d) = hard d := by
  unfold addToken; simp

@[simp] theorem inkInput_hard (kind : Nat) (key : InkKey) (data : List Byte) (d : Dev) :
    hard (inkInput kind key data d) = hard d := by
  unfold inkInput; simp

@[simp] theorem inkRead_hard (addr : Nat) (data : List Byte) (d : Dev) : hard (inkRead addr data d) = hard d :=
  hard_of_kept (inkRead_kept addr data d)

@[simp] theorem inkRetire_hard (p : Nat × InkKey → Bool) (d : Dev) : hard (inkRetire p d) = hard d :=
  hard_of_kept (inkRetire_kept p d)

@[simp] theorem inkEnded_hard (f : FnId) (sq : Nat) (cnt : Word32) (d : Dev) : hard (inkEnded f sq cnt d) = hard d :=
  hard_of_kept (inkEnded_kept f sq cnt d)

@[simp] theorem inkRest_hard (d : Dev) : hard (inkRest d) = hard d :=
  hard_of_kept (inkRest_kept d)

@[simp] theorem insertLeaf_hard (l : Leaf) (d : Dev) : hard (insertLeaf l d) = hard d :=
  hard_of_kept (insertLeaf_kept l d)

@[simp] theorem removeLeaf_hard (l : Leaf) (d : Dev) : hard (removeLeaf l d) = hard d := by
  unfold removeLeaf; simp

@[simp] theorem insertNode_hard (n : Node) (d : Dev) : hard (insertNode n d) = hard d := by
  unfold insertNode; simp

@[simp] theorem suppressRead_hard (a : Access) (addr : Nat) (hit : Nat × Nat) (level : Nat) (d : Dev) :
    hard (suppressRead a addr hit level d) = hard d :=
  hard_of_kept (suppressRead_kept a addr hit level d)

@[simp] theorem issueWalk_hard (w : Walk) (d : Dev) : hard (issueWalk w d).2 = hard d :=
  hard_of_kept (issueWalk_kept w d)

@[simp] theorem startWalk_hard (a : Access) (d : Dev) : hard (startWalk a d).2 = hard d :=
  hard_of_kept (startWalk_kept a d)

@[simp] theorem turn_hard (a : Access) (d : Dev) : hard (turn a d).2 = hard d :=
  hard_of_kept (turn_kept a d)

@[simp] theorem walkEntry_hard (w : Walk) (e : Word64) (d : Dev) : hard (walkEntry w e d).2 = hard d := by
  unfold walkEntry; (repeat' split) <;> simp [foldl_hard]

@[simp] theorem rereadEntry_hard (w : Walk) (l : Leaf) (e : Word64) (d : Dev) :
    hard (rereadEntry w l e d).2 = hard d := by
  unfold rereadEntry; simp; (repeat' split) <;> simp

@[simp] theorem takeSlot_hard (a : Access) (waiters : List Access) (level page : Nat) (dirty : Bool) (slot : Nat) (d : Dev) :
    hard (takeSlot a waiters level page dirty slot d) = hard d :=
  hard_of_kept (takeSlot_kept a waiters level page dirty slot d)

@[simp] theorem trapAccess_hard (a : Access) (level page : Nat) (dirty : Bool) (d : Dev) :
    hard (trapAccess a level page dirty d) = hard d :=
  hard_of_kept (trapAccess_kept a level page dirty d)

@[simp] theorem fillSlots_hard (f : FnId) :
    ∀ (a0 : Nat) (a1 : Dev), hard (fillSlots f a0 a1) = hard a1 := by
  intro a0
  induction a0 with
  | _ =>
    intros
    unfold fillSlots
    (repeat' split)
    all_goals (try simp_all)
    all_goals (repeat' split)
    all_goals (try simp_all)
    all_goals (repeat' split)
    all_goals (try simp_all)

@[simp] theorem announceTrap_hard (a : Access) (level page : Nat) (dirty : Bool) (d : Dev) :
    hard (announceTrap a level page dirty d) = hard d :=
  hard_of_kept (announceTrap_kept a level page dirty d)

@[simp] theorem askAccess_hard (a : Access) (d : Dev) : hard (askAccess a d) = hard d :=
  hard_of_kept (askAccess_kept a d)

@[simp] theorem askChecked_hard (a : Access) (r : Region) (d : Dev) : hard (askChecked a r d) = hard d :=
  hard_of_kept (askChecked_kept a r d)

@[simp] theorem occSent_hard (f : FnId) (p : Packet) (d : Dev) : hard (occSent f p d) = hard d :=
  hard_of_kept (occSent_kept f p d)

@[simp] theorem tagStart_hard (f : FnId) (sq : Nat) (x : Fetched) (tc : Option Nat) (d : Dev) :
    hard (tagStart f sq x tc d) = hard d := by
  unfold tagStart; simp

@[simp] theorem tagStage_hard (f : FnId) (sq : Nat) (cnt : Word32) (stage : Nat) (first : Bool) (d : Dev) :
    hard (tagStage f sq cnt stage first d) = hard d :=
  hard_of_kept (tagStage_kept f sq cnt stage first d)

@[simp] theorem tagEnd_hard (f : FnId) (sq : Nat) (x : Fetched) (st : Status) (conn : Nat) (d : Dev) :
    hard (tagEnd f sq x st conn d) = hard d :=
  hard_of_kept (tagEnd_kept f sq x st conn d)

@[simp] theorem setConn_hard (n : Nat) (c : Conn) (d : Dev) : hard (setConn n c d) = hard d :=
  hard_of_kept (setConn_kept n c d)

@[simp] theorem updConn_hard (n : Nat) (g : Conn → Conn) (d : Dev) : hard (updConn n g d) = hard d :=
  hard_of_kept (updConn_kept n g d)

@[simp] theorem winHold_hard (src : Ep) (dest n : Nat) (d : Dev) : hard (winHold src dest n d) = hard d :=
  hard_of_kept (winHold_kept src dest n d)

@[simp] theorem winCharge_hard (src : Ep) (dest n : Nat) (live : Bool) (d : Dev) :
    hard (winCharge src dest n live d) = hard d :=
  hard_of_kept (winCharge_kept src dest n live d)

@[simp] theorem winRelease_hard (src : Ep) (dest n : Nat) (d : Dev) : hard (winRelease src dest n d) = hard d :=
  hard_of_kept (winRelease_kept src dest n d)

@[simp] theorem queueRoute_hard (it : Item) (d : Dev) : hard (queueRoute it d) = hard d :=
  hard_of_kept (queueRoute_kept it d)

@[simp] theorem sendNib_hard (f : FnId) (dest : Ep) (conn : Psn) (ntype : Byte) (psn : Psn) (value : Word64) (reason : Byte) (info : Word32) (d : Dev) :
    hard (sendNib f dest conn ntype psn value reason info d) = hard d :=
  hard_of_kept (sendNib_kept f dest conn ntype psn value reason info d)

@[simp] theorem noteEnd_hard (f : FnId) (sq : Nat) (x : Fetched) (e : Cqe) (d : Dev) :
    hard (noteEnd f sq x e d) = hard d :=
  hard_of_kept (noteEnd_kept f sq x e d)

@[simp] theorem endWork_hard (f : FnId) (sq : Nat) (cnt : Word32) (cq : Nat) (signal : Bool) (e : Cqe) (d : Dev) :
    hard (endWork f sq cnt cq signal e d) = hard d :=
  hard_of_kept (endWork_kept f sq cnt cq signal e d)

@[simp] theorem releaseNote_hard (it : TxItem) (sq : Nat) (cnt : Word32) (e : Desc) (d : Dev) :
    hard (releaseNote it sq cnt e d) = hard d :=
  hard_of_kept (releaseNote_kept it sq cnt e d)

@[simp] theorem tagHanded_hard (it : TxItem) (d : Dev) : hard (tagHanded it d) = hard d :=
  hard_of_kept (tagHanded_kept it d)

@[simp] theorem chargeItem_hard (it : TxItem) (d : Dev) : hard (chargeItem it d) = hard d :=
  hard_of_kept (chargeItem_kept it d)

@[simp] theorem releaseItem_hard (it : TxItem) (d : Dev) : hard (releaseItem it d) = hard d :=
  hard_of_kept (releaseItem_kept it d)

@[simp] theorem submit_hard (cls : Nat) (it : TxItem) (d : Dev) : hard (submit cls it d) = hard d :=
  hard_of_kept (submit_kept cls it d)

@[simp] theorem drainClass_hard (f : FnId) (cls : Nat) :
    ∀ (a0 : Nat) (a1 : Dev), hard (drainClass f cls a0 a1) = hard a1 := by
  intro a0
  induction a0 with
  | _ =>
    intros
    unfold drainClass
    (repeat' split)
    all_goals (try simp_all)
    all_goals (repeat' split)
    all_goals (try simp_all)
    all_goals (repeat' split)
    all_goals (try simp_all)

@[simp] theorem touchCtx_hard (n : Nat) (d : Dev) : hard (touchCtx n d) = hard d := by
  unfold touchCtx; simp

@[simp] theorem loadCtx_hard (n : Nat) (d : Dev) : hard (loadCtx n d) = hard d := by
  unfold loadCtx; simp; (repeat' split) <;> simp

@[simp] theorem useCtx_hard (n : Nat) (d : Dev) : hard (useCtx n d) = hard d :=
  hard_of_kept (useCtx_kept n d)

@[simp] theorem writeOp_hard (n : Nat) (c : Conn) (o : Op) (s : Status) (d : Dev) :
    hard (writeOp n c o s d) = hard d :=
  hard_of_kept (writeOp_kept n c o s d)

@[simp] theorem writeFinished_hard (n : Nat) (c : Conn) (a0 : List Op) (a1 : Dev) :
    hard (writeFinished n c a0 a1).2 = hard a1 :=
  hard_of_kept (writeFinished_kept n c a0 a1)

@[simp] theorem tagAnswered_hard (c : Conn) (d : Dev) : hard (tagAnswered c d) = hard d :=
  hard_of_kept (tagAnswered_kept c d)

@[simp] theorem retire_hard (n : Nat) (d : Dev) : hard (retire n d) = hard d :=
  hard_of_kept (retire_kept n d)

@[simp] theorem sendNow_hard (n : Nat) (c : Conn) (o : Op) (q : Psn) (retx : Bool) (pay : List Byte) (d : Dev) :
    hard (sendNow n c o q retx pay d) = hard d :=
  hard_of_kept (sendNow_kept n c o q retx pay d)

@[simp] theorem askPayload_hard (n : Nat) (c : Conn) (o : Op) (q : Psn) (retx : Bool) (d : Dev) :
    hard (askPayload n c o q retx d).2 = hard d :=
  hard_of_kept (askPayload_kept n c o q retx d)

@[simp] theorem holdWin_hard (n : Nat) (c : Conn) (d : Dev) : hard (holdWin n c d) = hard d :=
  hard_of_kept (holdWin_kept n c d)

@[simp] theorem pump_hard (a0 : Nat) (a1 : Nat) (a2 : Dev) : hard (pump a0 a1 a2) = hard a2 :=
  hard_of_kept (pump_kept a0 a1 a2)

@[simp] theorem startOp_hard (n : Nat) (o : Op) (d : Dev) : hard (startOp n o d) = hard d :=
  hard_of_kept (startOp_kept n o d)

@[simp] theorem payloadArrived_hard (n : Nat) (q : Psn) (data : List Byte) (d : Dev) :
    hard (payloadArrived n q data d) = hard d := by
  unfold payloadArrived; (repeat' split) <;> simp

@[simp] theorem payloadFailed_hard (n : Nat) (q : Psn) (s : Status) (d : Dev) :
    hard (payloadFailed n q s d) = hard d :=
  hard_of_kept (payloadFailed_kept n q s d)

@[simp] theorem setMctx_hard (m : Nat) (x : Mctx) (d : Dev) : hard (setMctx m x d) = hard d :=
  hard_of_kept (setMctx_kept m x d)

@[simp] theorem updMsg_hard (id : Nat) (g : MsgRec → MsgRec) (d : Dev) : hard (updMsg id g d) = hard d :=
  hard_of_kept (updMsg_kept id g d)

@[simp] theorem dropMsg_hard (id : Nat) (d : Dev) : hard (dropMsg id d) = hard d :=
  hard_of_kept (dropMsg_kept id d)

@[simp] theorem noteSearch_hard (f : FnId) (n : Nat) (d : Dev) : hard (noteSearch f n d) = hard d :=
  hard_of_kept (noteSearch_kept f n d)

@[simp] theorem completeRecv_hard (r : MsgRec) (p : Posted) (s : Status) (placed : Nat) (d : Dev) :
    hard (completeRecv r p s placed d) = hard d :=
  hard_of_kept (completeRecv_kept r p s placed d)

@[simp] theorem completePosted_hard (p : Posted) (s : Status) (d : Dev) : hard (completePosted p s d) = hard d := by
  unfold completePosted; simp

@[simp] theorem settleMsg_hard (id : Nat) (d : Dev) : hard (settleMsg id d) = hard d :=
  hard_of_kept (settleMsg_kept id d)

@[simp] theorem askPlace_hard (r : MsgRec) (p : Posted) (off : Nat) (data : List Byte) (cont : List Byte → Cont) (conn : Nat) (d : Dev) :
    hard (askPlace r p off data cont conn d).2 = hard d :=
  hard_of_kept (askPlace_kept r p off data cont conn d)

@[simp] theorem copyStaged_hard (r : MsgRec) (p : Posted) (a0 : List (Nat × List Byte × Bool)) (a1 : Dev) :
    hard (copyStaged r p a0 a1) = hard a1 :=
  hard_of_kept (copyStaged_kept r p a0 a1)

@[simp] theorem joinMsg_hard (id : Nat) (p : Posted) (d : Dev) : hard (joinMsg id p d) = hard d :=
  hard_of_kept (joinMsg_kept id p d)

@[simp] theorem matchMsg_hard (id : Nat) (d : Dev) : hard (matchMsg id d) = hard d :=
  hard_of_kept (matchMsg_kept id d)

@[simp] theorem pullEnded_hard (id : Nat) (s : Status) (d : Dev) : hard (pullEnded id s d) = hard d :=
  hard_of_kept (pullEnded_kept id s d)

@[simp] theorem breakMsgs_hard (n : Nat) (s : Status) (d : Dev) : hard (breakMsgs n s d) = hard d :=
  hard_of_kept (breakMsgs_kept n s d)

@[simp] theorem releaseCharges_hard (c : Conn) (d : Dev) : hard (releaseCharges c d) = hard d :=
  hard_of_kept (releaseCharges_kept c d)

@[simp] theorem postBroken_hard (n : Nat) (c : Conn) (s : Status) (d : Dev) : hard (postBroken n c s d) = hard d :=
  hard_of_kept (postBroken_kept n c s d)

@[simp] theorem failConn_hard (n : Nat) (oldest later ev : Status) (reset : Bool) (d : Dev) :
    hard (failConn n oldest later ev reset d) = hard d :=
  hard_of_kept (failConn_kept n oldest later ev reset d)

@[simp] theorem answer_hard (c : Conn) (ntype : Byte) (psn : Psn) (value : Word64) (reason : Byte) (info : Word32) (d : Dev) :
    hard (answer c ntype psn value reason info d) = hard d :=
  hard_of_kept (answer_kept c ntype psn value reason info d)

@[simp] theorem sendCover_hard (n : Nat) (ntype : Byte) (reason : Byte) (info : Word32) (d : Dev) :
    hard (sendCover n ntype reason info d) = hard d :=
  hard_of_kept (sendCover_kept n ntype reason info d)

@[simp] theorem sendAck_hard (n : Nat) (d : Dev) : hard (sendAck n d) = hard d :=
  hard_of_kept (sendAck_kept n d)

@[simp] theorem sendNak_hard (n : Nat) (d : Dev) : hard (sendNak n d) = hard d := by
  unfold sendNak; (repeat' split) <;> simp

@[simp] theorem sendRnr_hard (n : Nat) (r : Rnr) (d : Dev) : hard (sendRnr n r d) = hard d :=
  hard_of_kept (sendRnr_kept n r d)

@[simp] theorem sendAccessNak_hard (n : Nat) (psn : Psn) (d : Dev) : hard (sendAccessNak n psn d) = hard d :=
  hard_of_kept (sendAccessNak_kept n psn d)

@[simp] theorem dupAck_hard (n : Nat) (d : Dev) : hard (dupAck n d) = hard d := by
  unfold dupAck; (repeat' split) <;> simp

@[simp] theorem unmark_hard (n : Nat) (q : Psn) (d : Dev) : hard (unmark n q d) = hard d :=
  hard_of_kept (unmark_kept n q d)

@[simp] theorem noteExec_hard (c : Conn) (q : Psn) (d : Dev) : hard (noteExec c q d) = hard d :=
  hard_of_kept (noteExec_kept c q d)

@[simp] theorem markExec_hard (n : Nat) (q : Psn) (d : Dev) : hard (markExec n q d) = hard d :=
  hard_of_kept (markExec_kept n q d)

@[simp] theorem notifyFlag_hard (n : Nat) (c : Conn) (p : Packet) (d : Dev) : hard (notifyFlag n c p d) = hard d :=
  hard_of_kept (notifyFlag_kept n c p d)

@[simp] theorem askPut_hard (n : Nat) (c : Conn) (p : Packet) (d : Dev) : hard (askPut n c p d) = hard d :=
  hard_of_kept (askPut_kept n c p d)

@[simp] theorem askGet_hard (n : Nat) (c : Conn) (p : Packet) (d : Dev) : hard (askGet n c p d) = hard d :=
  hard_of_kept (askGet_kept n c p d)

@[simp] theorem askAtomic_hard (n : Nat) (c : Conn) (p : Packet) (d : Dev) : hard (askAtomic n c p d) = hard d :=
  hard_of_kept (askAtomic_kept n c p d)

@[simp] theorem finishSend_hard (n : Nat) (p : Packet) (d : Dev) : hard (finishSend n p d) = hard d :=
  hard_of_kept (finishSend_kept n p d)

@[simp] theorem execSend_hard (n : Nat) (p : Packet) (d : Dev) : hard (execSend n p d) = hard d :=
  hard_of_kept (execSend_kept n p d)

@[simp] theorem handOver_hard (n : Nat) (p : Packet) (d : Dev) : hard (handOver n p d) = hard d :=
  hard_of_kept (handOver_kept n p d)

@[simp] theorem execPkt_hard (n : Nat) (c : Conn) (p : Packet) (d : Dev) : hard (execPkt n c p d) = hard d :=
  hard_of_kept (execPkt_kept n c p d)

@[simp] theorem advance_hard (a0 : Nat) (a1 : Nat) (a2 : Dev) : hard (advance a0 a1 a2) = hard a2 :=
  hard_of_kept (advance_kept a0 a1 a2)

@[simp] theorem afterExec_hard (n : Nat) (now : Bool) (d : Dev) : hard (afterExec n now d) = hard d :=
  hard_of_kept (afterExec_kept n now d)

@[simp] theorem clearAborted_hard (n : Nat) (c : Conn) (p : Packet) (d : Dev) :
    hard (clearAborted n c p d) = hard d := by
  unfold clearAborted; (repeat' split) <;> simp

@[simp] theorem answerGet_hard (n : Nat) (c : Conn) (p : Packet) (d : Dev) : hard (answerGet n c p d) = hard d := by
  unfold answerGet; (repeat' split) <;> simp

@[simp] theorem answerDup_hard (n : Nat) (c : Conn) (p : Packet) (d : Dev) : hard (answerDup n c p d) = hard d := by
  unfold answerDup; (repeat' split) <;> simp

@[simp] theorem reserveMsg_hard (n : Nat) (c : Conn) (p : Packet) (d : Dev) : hard (reserveMsg n c p d) = hard d := by
  unfold reserveMsg; simp

@[simp] theorem recvData_hard (n : Nat) (c : Conn) (p : Packet) (d : Dev) : hard (recvData n c p d) = hard d := by
  unfold recvData; simp; (repeat' split) <;> simp

@[simp] theorem resend_hard (n : Nat) (d : Dev) : hard (resend n d) = hard d := by
  unfold resend; (repeat' split) <;> simp

@[simp] theorem loss_hard (n : Nat) (d : Dev) : hard (loss n d) = hard d := by
  unfold loss; (repeat' split) <;> simp

@[simp] theorem backOff_hard (n : Nat) (info : Nat) (d : Dev) : hard (backOff n info d) = hard d := by
  unfold backOff; (repeat' split) <;> simp

@[simp] theorem ackTo_hard (n : Nat) (c : Conn) (b : Psn) (s : Word64) (d : Dev) :
    hard (ackTo n c b s d) = hard d := by
  unfold ackTo; simp [foldl_hard]

@[simp] theorem failOp_hard (n : Nat) (msn : Psn) (s : Status) (d : Dev) : hard (failOp n msn s d) = hard d :=
  hard_of_kept (failOp_kept n msn s d)

@[simp] theorem setNode_hard (tree : Nat) (x : TreeNode) (d : Dev) : hard (setNode tree x d) = hard d :=
  hard_of_kept (setNode_kept tree x d)

@[simp] theorem updOpn_hard (tree : Nat) (g : TreeOp → TreeOp) (d : Dev) : hard (updOpn tree g d) = hard d :=
  hard_of_kept (updOpn_kept tree g d)

@[simp] theorem retireBanks_hard (d : Dev) : hard (retireBanks d) = hard d :=
  hard_of_kept (retireBanks_kept d)

@[simp] theorem queuePort_hard (p : Nat) (it : QItem) (d : Dev) : hard (queuePort p it d) = hard d :=
  hard_of_kept (queuePort_kept p it d)

@[simp] theorem sendTreeTo_hard (dest : Ep) (p : Nat) (t : TreePkt) (dom : Dom) (epoch : Bool) (d : Dev) :
    hard (sendTreeTo dest p t dom epoch d) = hard d :=
  hard_of_kept (sendTreeTo_kept dest p t dom epoch d)

@[simp] theorem sendTree_hard (p : Nat) (t : TreePkt) (dom : Dom) (epoch : Bool) (d : Dev) :
    hard (sendTree p t dom epoch d) = hard d :=
  hard_of_kept (sendTree_kept p t dom epoch d)

@[simp] theorem answerTree_hard (p : Nat) (k t : TreePkt) (dom : Dom) (d : Dev) :
    hard (answerTree p k t dom d) = hard d := by
  unfold answerTree; simp

@[simp] theorem sendAborts_hard (t : TreeWords) (tree opn : Nat) (s : Status) (mismatch : Bool) (except : List Nat) (epoch : Bool) (d : Dev) :
    hard (sendAborts t tree opn s mismatch except epoch d) = hard d :=
  hard_of_kept (sendAborts_kept t tree opn s mismatch except epoch d)

@[simp] theorem completeColl_hard (tree : Nat) (r : CollReq) (s : Status) (mismatch : Bool) (d : Dev) :
    hard (completeColl tree r s mismatch d) = hard d :=
  hard_of_kept (completeColl_kept tree r s mismatch d)

@[simp] theorem updColl_hard (f : FnId) (tree : Nat) (g : CollReq → CollReq) (d : Dev) :
    hard (updColl f tree g d) = hard d :=
  hard_of_kept (updColl_kept f tree g d)

@[simp] theorem completeMembers_hard (t : TreeWords) (tree opn : Nat) (s : Status) (mismatch : Bool) (d : Dev) :
    hard (completeMembers t tree opn s mismatch d) = hard d :=
  hard_of_kept (completeMembers_kept t tree opn s mismatch d)

@[simp] theorem closeOp_hard (tree : Nat) (s : Status) (mismatch : Bool) (d : Dev) :
    hard (closeOp tree s mismatch d) = hard d :=
  hard_of_kept (closeOp_kept tree s mismatch d)

@[simp] theorem abortAlong_hard (tree opn : Nat) (s : Status) (mismatch : Bool) (a0 : List Nat)
    (a1 : List (TreeWords × Bool)) (d : Dev) : hard (abortAlong tree opn s mismatch a0 a1 d) = hard d :=
  hard_of_kept (abortAlong_kept tree opn s mismatch a0 a1 d)

@[simp] theorem endOpBy_hard (more : List (TreeWords × Bool)) (tree : Nat) (s : Status) (mismatch : Bool) (except : Nat) (d : Dev) :
    hard (endOpBy more tree s mismatch except d) = hard d :=
  hard_of_kept (endOpBy_kept more tree s mismatch except d)

@[simp] theorem endOp_hard (tree : Nat) (s : Status) (mismatch : Bool) (except : Nat) (d : Dev) :
    hard (endOp tree s mismatch except d) = hard d :=
  hard_of_kept (endOp_kept tree s mismatch except d)

@[simp] theorem endIfRunning_hard (tree : Nat) (s : Status) (d : Dev) : hard (endIfRunning tree s d) = hard d :=
  hard_of_kept (endIfRunning_kept tree s d)

@[simp] theorem endDone_hard (tree : Nat) (t : TreeWords) (d : Dev) : hard (endDone tree t d) = hard d :=
  hard_of_kept (endDone_kept tree t d)

@[simp] theorem tagMembers_hard (tree : Nat) (t : TreeWords) (stage : Nat) (first : Bool) (d : Dev) :
    hard (tagMembers tree t stage first d) = hard d :=
  hard_of_kept (tagMembers_kept tree t stage first d)

@[simp] theorem sendUp_hard (tree : Nat) (t : TreeWords) (c : Contrib) (d : Dev) :
    hard (sendUp tree t c d) = hard d :=
  hard_of_kept (sendUp_kept tree t c d)

@[simp] theorem sendUpCredit_hard (tree : Nat) (t : TreeWords) (i : Nat) (d : Dev) :
    hard (sendUpCredit tree t i d) = hard d :=
  hard_of_kept (sendUpCredit_kept tree t i d)

@[simp] theorem askContrib_hard (tree : Nat) (r : CollReq) (h : CollHdr) (d : Dev) :
    hard (askContrib tree r h d) = hard d :=
  hard_of_kept (askContrib_kept tree r h d)

@[simp] theorem askContribs_hard (tree : Nat) (f : FnId) (h : CollHdr) (limit : Nat) (a0 : Nat) (a1 : Dev) :
    hard (askContribs tree f h limit a0 a1) = hard a1 :=
  hard_of_kept (askContribs_kept tree f h limit a0 a1)

@[simp] theorem freeChunk_hard (tree : Nat) (t : TreeWords) (h : CollHdr) (i : Nat) (d : Dev) :
    hard (freeChunk tree t h i d) = hard d :=
  hard_of_kept (freeChunk_kept tree t h i d)

@[simp] theorem passUp_hard (tree : Nat) (t : TreeWords) (h : CollHdr) (c : Contrib) (d : Dev) :
    hard (passUp tree t h c d) = hard d :=
  hard_of_kept (passUp_kept tree t h c d)

@[simp] theorem memberDone_hard (tree : Nat) (n : Nat) (f : FnId) (total : Nat) (d : Dev) :
    hard (memberDone tree n f total d) = hard d :=
  hard_of_kept (memberDone_kept tree n f total d)

@[simp] theorem giveMember_hard (tree : Nat) (t : TreeWords) (h : CollHdr) (i : Nat) (flags : Byte) (data : List Byte) (n : Nat) (d : Dev) :
    hard (giveMember tree t h i flags data n d) = hard d :=
  hard_of_kept (giveMember_kept tree t h i flags data n d)

@[simp] theorem sendDownTo_hard (tree : Nat) (t : TreeWords) (c : Contrib) (p : Nat) (d : Dev) :
    hard (sendDownTo tree t c p d) = hard d :=
  hard_of_kept (sendDownTo_kept tree t c p d)

@[simp] theorem giveDown_hard (tree : Nat) (t : TreeWords) (h : CollHdr) (c : Contrib) (d : Dev) :
    hard (giveDown tree t h c d) = hard d :=
  hard_of_kept (giveDown_kept tree t h c d)

@[simp] theorem downProgress_hard (tree : Nat) (t : TreeWords) (d : Dev) : hard (downProgress tree t d) = hard d :=
  hard_of_kept (downProgress_kept tree t d)

@[simp] theorem combineNext_hard (tree : Nat) (t : TreeWords) (d : Dev) : hard (combineNext tree t d).2 = hard d :=
  hard_of_kept (combineNext_kept tree t d)

@[simp] theorem combineRun_hard (tree : Nat) (t : TreeWords) (a0 : Nat) (a1 : Dev) :
    hard (combineRun tree t a0 a1) = hard a1 :=
  hard_of_kept (combineRun_kept tree t a0 a1)

@[simp] theorem bindAny_hard (tree : Nat) (e : Bool) (d : Dev) : hard (bindAny tree e d) = hard d := by
  unfold bindAny; simp; (repeat' split) <;> simp

@[simp] theorem bindEpoch_hard (tree : Nat) (e : Bool) (d : Dev) : hard (bindEpoch tree e d).2 = hard d :=
  hard_of_kept (bindEpoch_kept tree e d)

@[simp] theorem takeContrib_hard (tree : Nat) (t : TreeWords) (h : CollHdr) (c : Contrib) (d : Dev) :
    hard (takeContrib tree t h c d) = hard d :=
  hard_of_kept (takeContrib_kept tree t h c d)

@[simp] theorem beginColl_hard (tree : Nat) (r : CollReq) (d : Dev) : hard (beginColl tree r d) = hard d :=
  hard_of_kept (beginColl_kept tree r d)

@[simp] theorem startWaiting_hard (f : FnId) (tree : Nat) (d : Dev) : hard (startWaiting f tree d) = hard d :=
  hard_of_kept (startWaiting_kept f tree d)

@[simp] theorem memberFails_hard (tree : Nat) (f : FnId) (s : Status) (d : Dev) :
    hard (memberFails tree f s d) = hard d :=
  hard_of_kept (memberFails_kept tree f s d)

@[simp] theorem memberFailsIn_hard (tree opn : Nat) (f : FnId) (s : Status) (d : Dev) :
    hard (memberFailsIn tree opn f s d) = hard d :=
  hard_of_kept (memberFailsIn_kept tree opn f s d)

@[simp] theorem contribRead_hard (tree opn : Nat) (f : FnId) (i : Nat) (data : List Byte) (d : Dev) :
    hard (contribRead tree opn f i data d) = hard d := by
  unfold contribRead; (repeat' split) <;> simp

@[simp] theorem collPlaced_hard (tree opn : Nat) (f : FnId) (i n : Nat) (flags : Byte) (d : Dev) :
    hard (collPlaced tree opn f i n flags d) = hard d :=
  hard_of_kept (collPlaced_kept tree opn f i n flags d)

@[simp] theorem treeDiscard_hard (port : Nat) (p : TreePkt) (d : Dev) : hard (treeDiscard port p d) = hard d := by
  unfold treeDiscard; simp

theorem treeArrive_hard (port : Nat) (p : TreePkt) (act : TreeWords → Dev → Dev)
    (h : ∀ t d, hard (act t d) = hard d) (d : Dev) : hard (treeArrive port p act d) = hard d := by
  unfold treeArrive; dsimp only; (repeat' split) <;> simp [h]

@[simp] theorem writeSegs_hard (f : FnId) (half relaxed : Bool) (a0 : List (Nat × Nat)) (a1 : List Byte) (a2 : Dev) :
    hard (writeSegs f half relaxed a0 a1 a2) = hard a2 :=
  hard_of_kept (writeSegs_kept f half relaxed a0 a1 a2)

@[simp] theorem issueRead_hard (a : Access) (half : Bool) (d : Dev) : hard (issueRead a half d) = hard d :=
  hard_of_kept (issueRead_kept a half d)

@[simp] theorem endNote_hard (f : FnId) (sq : Nat) (cnt : Word32) (e : Desc) (s : Status) (d : Dev) :
    hard (endNote f sq cnt e s d) = hard d :=
  hard_of_kept (endNote_kept f sq cnt e s d)

@[simp] theorem tagTranslated_hard (a : Access) (d : Dev) : hard (tagTranslated a d) = hard d :=
  hard_of_kept (tagTranslated_kept a d)

@[simp] theorem readChunks_hard (n : Nat) (p : Packet) (a : Access) (a0 : Nat) (a1 : Nat) (a2 : Dev) :
    hard (readChunks n p a a0 a1 a2) = hard a2 :=
  hard_of_kept (readChunks_kept n p a a0 a1 a2)

@[simp] theorem endCopy_hard (id : Nat) (d : Dev) : hard (endCopy id d) = hard d :=
  hard_of_kept (endCopy_kept id d)

@[simp] theorem finishAccess_hard (a : Access) (d : Dev) : hard (finishAccess a d) = hard d :=
  hard_of_kept (finishAccess_kept a d)

@[simp] theorem refuseRemote_hard (n : Nat) (p : Packet) (d : Dev) : hard (refuseRemote n p d) = hard d :=
  hard_of_kept (refuseRemote_kept n p d)

@[simp] theorem failAccess_hard (s : Status) (a : Access) (d : Dev) : hard (failAccess s a d) = hard d :=
  hard_of_kept (failAccess_kept s a d)

@[simp] theorem failSuspended_hard (s : Status) (a : Access) (d : Dev) : hard (failSuspended s a d) = hard d := by
  unfold failSuspended; (repeat' split) <;> simp

@[simp] theorem trapNote_hard (id : Nat) (data : List Byte) (a : Access) (level page : Nat) (dirty : Bool) (d : Dev) :
    hard (trapNote id data a level page dirty d) = hard d :=
  hard_of_kept (trapNote_kept id data a level page dirty d)

@[simp] theorem waitResp_hard (n : Nat) (msn : Psn) (a : Access) (level page : Nat) (dirty : Bool) (d : Dev) :
    hard (waitResp n msn a level page dirty d) = hard d :=
  hard_of_kept (waitResp_kept n msn a level page dirty d)

@[simp] theorem trapped_hard (a : Access) (level page : Nat) (dirty : Bool) (d : Dev) :
    hard (trapped a level page dirty d) = hard d :=
  hard_of_kept (trapped_kept a level page dirty d)

@[simp] theorem resendRequest_hard (n : Nat) (msn : Psn) (d : Dev) : hard (resendRequest n msn d) = hard d := by
  unfold resendRequest; (repeat' split) <;> simp

@[simp] theorem resumeAccess_hard (a : Access) (d : Dev) : hard (resumeAccess a d) = hard d := by
  unfold resumeAccess; (repeat' split) <;> simp

@[simp] theorem abortAccess_hard (a : Access) (d : Dev) : hard (abortAccess a d) = hard d := by
  unfold abortAccess; (repeat' split) <;> simp

@[simp] theorem holdAccess_hard (a : Access) (d : Dev) : hard (holdAccess a d) = hard d :=
  hard_of_kept (holdAccess_kept a d)

@[simp] theorem applyRes_hard (r : XRes × Dev) : hard (applyRes r) = hard r.2 := hard_of_kept (applyRes_kept r)

@[simp] theorem parkStart_hard (n : Nat) (d : Dev) : hard (parkStart n d) = hard d :=
  hard_of_kept (parkStart_kept n d)

@[simp] theorem endTreesOn_hard (p : Nat) (d : Dev) : hard (endTreesOn p d) = hard d :=
  hard_of_kept (endTreesOn_kept p d)

@[simp] theorem settle_hard (a0 : Nat) (a1 : Dev) : hard (settle a0 a1) = hard a1 :=
  hard_of_kept (settle_kept a0 a1)

theorem takeRead_hard {id : Nat} {d : Dev} {x : ReadReq × Dev} (h : takeRead id d = some x) : hard x.2 = hard d := by
  unfold takeRead at h; split at h
  · cases h
  · cases h; simp

theorem takeWalk_hard {id : Nat} {d : Dev} {x : Walk × Dev} (h : takeWalk id d = some x) : hard x.2 = hard d := by
  unfold takeWalk at h; split at h
  · cases h
  · cases h; simp

@[simp] theorem sendGetResp_hard (n : Nat) (p : Packet) (off : Nat) (data : List Byte) (void : Bool) (d : Dev) :
    hard (sendGetResp n p off data void d) = hard d := by
  unfold sendGetResp; (repeat' split) <;> simp

@[simp] theorem wakeAtomics_hard (d : Dev) : hard (wakeAtomics d) = hard d := by
  unfold wakeAtomics; simp

@[simp] theorem writeAtomic_hard (w : AtomWrite) (d : Dev) : hard (writeAtomic w d) = hard d := by
  unfold writeAtomic; simp

@[simp] theorem ackAtomics_hard (d : Dev) : hard (ackAtomics d) = hard d := by
  unfold ackAtomics; simp

@[simp] theorem reissueAtomics_hard (slot : Nat) (d : Dev) : hard (reissueAtomics slot d) = hard d := by
  unfold reissueAtomics; simp [foldl_hard]

@[simp] theorem runAtomic_hard (n : Nat) (p : Packet) (a : Access) (old : Word64) (d : Dev) :
    hard (runAtomic n p a old d) = hard d := by
  unfold runAtomic; simp; (repeat' split) <;> simp

@[simp] theorem readGo_hard (a : Access) (data : List Byte) (d : Dev) : hard (readGo a data d) = hard d := by
  unfold readGo; (repeat' split) <;> simp

@[simp] theorem holdRead_hard (a : Access) (data : Option (List Byte)) (d : Dev) :
    hard (holdRead a data d) = hard d := by
  unfold holdRead; simp

@[simp] theorem readDone_hard (a : Access) (data : List Byte) (d : Dev) : hard (readDone a data d) = hard d := by
  unfold readDone; (repeat' split) <;> simp

@[simp] theorem payloadLost_hard (a : Access) (d : Dev) : hard (payloadLost a d) = hard d := by
  unfold payloadLost; (repeat' split) <;> simp

@[simp] theorem readFailed_hard (r : ReadReq) (d : Dev) : hard (readFailed r d) = hard d := by
  unfold readFailed
  split
  · split
    · rfl
    · rename_i h; simp [takeWalk_hard h]
  · (repeat' split) <;> simp

@[simp] theorem releaseHeld_hard (s : Nat) (d : Dev) : hard (releaseHeld s d) = hard d := by
  unfold releaseHeld; refine foldl_hard _ (fun d x => ?_) _ _; (repeat' split) <;> simp

@[simp] theorem inkDesc_hard (f : FnId) (sq : Nat) (cnt : Word32) (e : Desc) (d : Dev) :
    hard (inkDesc f sq cnt e d) = hard d := by
  unfold inkDesc; simp

@[simp] theorem takeHead_hard (f : FnId) (sq : Nat) (q : Sq) (x : Fetched) (cq : Nat) (d : Dev) :
    hard (takeHead f sq q x cq d) = hard d :=
  hard_of_kept (takeHead_kept f sq q x cq d)

@[simp] theorem endStart_hard (s : Start) (st : Status) (len : Nat) (conn : Nat) (d : Dev) :
    hard (endStart s st len conn d) = hard d :=
  hard_of_kept (endStart_kept s st len conn d)

@[simp] theorem queueRow_hard (i : Instr) (d : Dev) : hard (queueRow i d) = hard d := by
  unfold queueRow; simp

@[simp] theorem endUnknownWork_hard (f : FnId) (sq : Nat) (e : Desc) (d : Dev) :
    hard (endUnknownWork f sq e d) = hard d :=
  hard_of_kept (endUnknownWork_kept f sq e d)

@[simp] theorem endUnknownAdmin_hard (f : FnId) (e : Desc) (d : Dev) : hard (endUnknownAdmin f e d) = hard d :=
  hard_of_kept (endUnknownAdmin_kept f e d)

@[simp] theorem endUnknown_hard (a0 : Nat) (a1 : Dev) : hard (endUnknown a0 a1) = hard a1 :=
  hard_of_kept (endUnknown_kept a0 a1)

@[simp] theorem rest_hard (d : Dev) : hard (rest d) = hard d :=
  hard_of_kept (rest_kept d)

theorem startWork_hard (op : Nat) (f : FnId) (sq : Fin 65536) (e : Desc) (go : Start → Dev → Dev)
    (h : ∀ s d, hard (go s d) = hard d) (d : Dev) : hard (startWork op f sq e go d) = hard d := by
  unfold startWork; dsimp only; (repeat' split) <;> simp [h]

@[simp] theorem unreachableOp_hard (s : Start) (kind : OpKind) (d : Dev) :
    hard (unreachableOp s kind d) = hard d := by
  unfold unreachableOp; simp

@[simp] theorem goConn_hard (kind : OpKind) (s : Start) (d : Dev) : hard (goConn kind s d) = hard d := by
  unfold goConn; (repeat' split) <;> simp

@[simp] theorem goRecv_hard (w : Start) (d : Dev) : hard (goRecv w d) = hard d := by
  unfold goRecv; simp; (repeat' split) <;> simp

@[simp] theorem goNote_hard (w : Start) (d : Dev) : hard (goNote w d) = hard d := by
  unfold goNote; (repeat' split) <;> simp

@[simp] theorem goColl_hard (w : Start) (d : Dev) : hard (goColl w d) = hard d := by
  unfold goColl; (repeat' split) <;> simp

@[simp] theorem takeLocal_hard (it : Item) (d : Dev) : hard (takeLocal it d) = hard d := by
  unfold takeLocal; simp

@[simp] theorem waitMiss_hard (n : Nat) (p : Packet) (fetch : Bool) (d : Dev) :
    hard (waitMiss n p fetch d) = hard d := by
  unfold waitMiss; simp

@[simp] theorem tagResponse_hard (o : Op) (d : Dev) : hard (tagResponse o d) = hard d := by
  unfold tagResponse; simp

@[simp] theorem recvGetResp_hard (n : Nat) (c : Conn) (p : Packet) (d : Dev) :
    hard (recvGetResp n c p d) = hard d := by
  unfold recvGetResp; simp; (repeat' split) <;> simp

@[simp] theorem deliverConn_hard (n : Nat) (c : Conn) (p : Packet) (d : Dev) :
    hard (deliverConn n c p d) = hard d := by
  unfold deliverConn; simp

@[simp] theorem answerDestDown_hard (f : FnId) (p : Packet) (peer : Ep) (peerConn : Psn) (d : Dev) :
    hard (answerDestDown f p peer peerConn d) = hard d := by
  unfold answerDestDown; simp

@[simp] theorem crcFailed_hard (f : FnId) (p : Packet) (d : Dev) : hard (crcFailed f p d) = hard d := by
  unfold crcFailed; (repeat' split) <;> simp

@[simp] theorem domainDrop_hard (f : FnId) (d : Dev) : hard (domainDrop f d) = hard d := by
  unfold domainDrop; simp

@[simp] theorem arriveConn_hard (p : Packet) (d : Dev) : hard (arriveConn p d) = hard d := by
  unfold arriveConn; simp; (repeat' split) <;> simp

@[simp] theorem inkArrive_hard {it : Item} {mine : Bool} {key : InkKey} {bytes : List Byte} {go : Dev → Dev}
    (h : ∀ d, hard (go d) = hard d) (d : Dev) : hard (inkArrive it mine key bytes go d) = hard d := by
  unfold inkArrive; (repeat' split) <;> simp [h]

@[simp] theorem dropNote_hard (d : Dev) : hard (dropNote d) = hard d := by
  unfold dropNote; simp

@[simp] theorem matchNote_hard (p : Packet) (x : Mctx) (d : Dev) : hard (matchNote p x d) = hard d := by
  unfold matchNote; (repeat' split) <;> simp

@[simp] theorem arriveNote_hard (p : Packet) (d : Dev) : hard (arriveNote p d) = hard d := by
  unfold arriveNote; simp; (repeat' split) <;> simp

@[simp] theorem countStall_hard (d : Dev) : hard (countStall d) = hard d := by
  unfold countStall; simp

theorem onCover_hard (m : Nib) (react : Nat → Dev → Dev) (n : Nat) (c : Conn)
    (h : ∀ k d, hard (react k d) = hard d) (d : Dev) : hard (onCover m react n c d) = hard d := by
  unfold onCover; (repeat' split) <;> simp [h]

@[simp] theorem goOn_hard (n : Nat) (d : Dev) : hard (goOn n d) = hard d := by
  unfold goOn; simp

@[simp] theorem onAccessNak_hard (m : Nib) (n : Nat) (c : Conn) (d : Dev) : hard (onAccessNak m n c d) = hard d := by
  unfold onAccessNak; (repeat' split) <;> simp

@[simp] theorem onAtomicResp_hard (m : Nib) (n : Nat) (c : Conn) (d : Dev) :
    hard (onAtomicResp m n c d) = hard d := by
  unfold onAtomicResp; (repeat' split) <;> simp

@[simp] theorem takeMiss_hard (n : Nat) (d : Dev) : hard (takeMiss n d).2 = hard d := by
  unfold takeMiss; simp

@[simp] theorem refuseMiss_hard (n : Nat) (r : Rnr) (d : Dev) : hard (refuseMiss n r d) = hard d := by
  unfold refuseMiss; simp [foldl_hard]

@[simp] theorem failRead_hard (id aer : Nat) (d : Dev) : hard (failRead id aer d) = hard d := by
  unfold failRead
  split
  · rfl
  · rename_i h; simp [takeRead_hard h]

theorem withOp_hard {p : TreePkt} {act : TreeOp → Dev → Dev} (h : ∀ o d, hard (act o d) = hard d) (d : Dev) :
    hard (withOp p act d) = hard d := by
  unfold withOp; dsimp only; (repeat' split) <;> simp [h]

@[simp] theorem treeUp_hard (port : Nat) (p : TreePkt) (t : TreeWords) (d : Dev) :
    hard (treeUp port p t d) = hard d := by
  unfold treeUp; simp

@[simp] theorem treeDown_hard (port : Nat) (p : TreePkt) (t : TreeWords) (d : Dev) :
    hard (treeDown port p t d) = hard d := by
  unfold treeDown; dsimp only
  (repeat' split) <;> first
    | rw [treeDiscard_hard]
    | exact withOp_hard (fun o d => by simp) d

@[simp] theorem upCredit_hard (p : TreePkt) (t : TreeWords) (d : Dev) : hard (upCredit p t d) = hard d := by
  unfold upCredit; exact withOp_hard (fun o d => by simp [foldl_hard]) d

@[simp] theorem downCredit_hard (port : Nat) (p : TreePkt) (t : TreeWords) (d : Dev) :
    hard (downCredit port p t d) = hard d := by
  unfold downCredit; exact withOp_hard (fun o d => by simp [foldl_hard]) d

@[simp] theorem treeAbort_hard (port : Nat) (p : TreePkt) (t : TreeWords) (d : Dev) :
    hard (treeAbort port p t d) = hard d := by
  unfold treeAbort; simp

@[simp] theorem dropDb_hard (f : FnId) (d : Dev) : hard (dropDb f d) = hard d := by
  unfold dropDb; simp

@[simp] theorem postOverrun_hard (f : FnId) (r : RingRef) (count : Word32) (d : Dev) :
    hard (postOverrun f r count d) = hard d := by
  unfold postOverrun; simp

@[simp] theorem aqCfgWrite_hard (f : FnId) (w : Wr) (d : Dev) : hard (aqCfgWrite f w d) = hard d := by
  unfold aqCfgWrite; simp

@[simp] theorem acqCfgWrite_hard (f : FnId) (w : Wr) (d : Dev) : hard (acqCfgWrite f w d) = hard d := by
  unfold acqCfgWrite; simp

@[simp] theorem badDesc_hard (f : FnId) (n q : Nat) (e : Option Desc) (s : Status) (d : Dev) :
    hard (badDesc f n q e s d) = hard d := by
  unfold badDesc; simp

@[simp] theorem flushDescs_hard (f : FnId) (n q : Nat) :
    ∀ (a0 : List FetchRes) (a1 : Dev), hard (flushDescs f n q a0 a1) = hard a1 := by
  intro a0
  induction a0 with
  | _ =>
    intros
    unfold flushDescs
    (repeat' split) <;> simp_all

@[simp] theorem haltSq_hard (f : FnId) (n : Nat) (s : Status) (d : Dev) : hard (haltSq f n s d) = hard d := by
  unfold haltSq; simp

@[simp] theorem postHalted_hard (f : FnId) (r : RingRef) (s : Status) (d : Dev) :
    hard (postHalted f r s d) = hard d := by
  unfold postHalted; simp

@[simp] theorem fetchFault_hard (f : FnId) (aer : Nat) (d : Dev) : hard (fetchFault f aer d) = hard d := by
  unfold fetchFault; simp

@[simp] theorem fetchFaults_hard (f : FnId) :
    ∀ (a0 : List FetchRes) (a1 : Dev), hard (fetchFaults f a0 a1) = hard a1 := by
  intro a0
  induction a0 with
  | _ =>
    intros
    unfold fetchFaults
    (repeat' split) <;> simp_all

@[simp] theorem wbSq_hard (f : FnId) (n : Nat) (d : Dev) : hard (wbSq f n d) = hard d := by
  unfold wbSq; (repeat' split) <;> simp

@[simp] theorem fetchSq_hard (f : FnId) (n : Fin 65536) :
    ∀ (a0 : List FetchRes) (a1 : Dev), hard (fetchSq f n a0 a1) = hard a1 := by
  intro a0
  induction a0 with
  | _ =>
    intros
    unfold fetchSq
    (repeat' split) <;> simp_all

@[simp] theorem wbAq_hard (f : FnId) (d : Dev) : hard (wbAq f d) = hard d := by
  unfold wbAq; simp

@[simp] theorem badAdmin_hard (f : FnId) (e : Option Desc) (s : Status) (d : Dev) :
    hard (badAdmin f e s d) = hard d := by
  unfold badAdmin; simp

@[simp] theorem fetchAq_hard (f : FnId) (l : List FetchRes) (d : Dev) : hard (fetchAq f l d) = hard d := by
  induction l generalizing d with
  | nil => rfl
  | cons r rest ih =>
    unfold fetchAq
    dsimp only
    split
    · rfl
    · split
      · rw [postHalted_hard, fetchFaults_hard]
        exact (foldl_hard _ (fun d r => by split <;> simp) _ _).trans (by simp)
      · split
        · simp [ih]
        · rw [postHalted_hard, fetchFaults_hard]
          exact (foldl_hard _ (fun d r => by split <;> simp) _ _).trans (by simp)

/-- The device an admin command's step leaves. -/
def AdmRes.dev : AdmRes → Dev
  | .done _ _ _ d => d
  | .later _ d => d

@[simp] theorem AdmRes.dev_done (s : Status) (r r2 : Word64) (d : Dev) : (AdmRes.done s r r2 d).dev = d := rfl
@[simp] theorem AdmRes.dev_later (l : List Nat) (d : Dev) : (AdmRes.later l d).dev = d := rfl
@[simp] theorem say_dev (s : Status) (d : Dev) : (say s d).dev = d := rfl

@[simp] theorem sayEarly_dev (st : Status) (t : FnId) (e : Desc) (d : Dev) : (sayEarly st t e d).dev = d := rfl

theorem admStep_hard {f : FnId} {e : Desc} {p : Perm} {body : FnId → Dev → AdmRes}
    (h : ∀ t d, hard (body t d).dev = hard d) (d : Dev) : hard (admStep f e p body d).dev = hard d := by
  unfold admStep; dsimp only; (repeat' split) <;> simp [h]

theorem runAdmin_hard {i : Instr} {op : Nat} {p : Perm} {f : FnId} {e : Desc} {body : FnId → Dev → AdmRes}
    (h : ∀ t d, hard (body t d).dev = hard d) (d : Dev) : hard (runAdmin i op p f e body d) = hard d := by
  unfold runAdmin
  split
  · rfl
  · split
    · split <;> simp
    · have k := admStep_hard (f := f) (e := e) (p := p) h (updFn f (fun x => { x with admFetched := x.admFetched.drop 1 }) d)
      dsimp only
      split <;> rename_i q <;> rw [q] at k <;> simp at k <;> simp [k]

theorem guard_hard {l : List (Bool × Status)} {a : AdmRes} {d : Dev} (h : hard a.dev = hard d) :
    hard (guard l a d).dev = hard d := by
  unfold guard; split <;> simp [h]

@[simp] theorem refuseRts_hard (r : MsgRec) (d : Dev) : hard (refuseRts r d) = hard d := by
  unfold refuseRts; simp; (repeat' split) <;> simp

@[simp] theorem discardMsgs_hard (m : Nat) (tell : Bool) (d : Dev) : hard (discardMsgs m tell d) = hard d := by
  unfold discardMsgs; simp [foldl_hard]

@[simp] theorem flushPosted_hard (m : Nat) (s : Status) (d : Dev) : hard (flushPosted m s d) = hard d := by
  unfold flushPosted; (repeat' split) <;> simp [foldl_hard]

@[simp] theorem destroyMctx_hard (m : Nat) (tell : Bool) (d : Dev) : hard (destroyMctx m tell d) = hard d := by
  unfold destroyMctx; simp

@[simp] theorem staleWalks_hard (p : Access → Bool) (d : Dev) : hard (staleWalks p d) = hard d := by
  unfold staleWalks; simp

theorem admDone_hard {op : Nat} {f : FnId} {ready : AdmWait → Dev → Bool} {fin : AdmWait → Dev → Status × Dev}
    (h : ∀ w d, hard (fin w d).2 = hard d) (d : Dev) : hard (admDone op f ready fin d) = hard d := by
  unfold admDone; (repeat' split) <;> simp [h]

@[simp] theorem purge_hard (p : Leaf → Bool) (q : Node → Bool) (d : Dev) : hard (purge p q d) = hard d := by
  unfold purge; simp

@[simp] theorem dropObjects_hard (f : FnId) (d : Dev) : hard (dropObjects f d) = hard d := by
  unfold dropObjects; simp

@[simp] theorem leaveTrees_hard (f : FnId) (d : Dev) : hard (leaveTrees f d) = hard d := by
  unfold leaveTrees; simp [foldl_hard]

@[simp] theorem clearPortCfg_hard (p : Fin 4) (d : Dev) : hard (clearPortCfg p d) = hard d := by
  unfold clearPortCfg; simp

@[simp] theorem clearCompanion_hard (p : Fin 4) (d : Dev) : hard (clearCompanion p d) = hard d := by
  unfold clearCompanion; simp

@[simp] theorem liftFnFence_hard (f : FnId) (d : Dev) : hard (liftFnFence f d) = hard d := by
  unfold liftFnFence; simp

@[simp] theorem endReset_hard (f : FnId) (d : Dev) : hard (endReset f d) = hard d := by
  unfold endReset; simp

@[simp] theorem moveStates_hard (t : FnId) (c0 c1 : ConnSt) (m0 m1 : MctxSt) (d : Dev) :
    hard (moveStates t c0 c1 m0 m1 d) = hard d :=
  hard_eq rfl rfl Iff.rfl Iff.rfl Iff.rfl (map_rising_iff _ _ fun c => by split <;> rfl)

@[simp] theorem unparkFails_hard (t : FnId) (d : Dev) : hard (unparkFails t d) = hard d := by
  unfold unparkFails; simp [foldl_hard]

@[simp] theorem changeDomain_hard (t : FnId) (new : Dom) (d : Dev) : hard (changeDomain t new d) = hard d := by
  have k : hard (updFn t (fun x => { x with domain := new }) d) = hard d := by simp
  unfold changeDomain; dsimp only; split
  · exact k
  · exact (hard_eq rfl rfl Iff.rfl Iff.rfl Iff.rfl Iff.rfl).trans k

@[simp] theorem trainLane_hard (p j rung : Nat) (sw inv : Bool) (d : Dev) :
    hard (trainLane p j rung sw inv d) = hard d := by
  unfold trainLane; simp

@[simp] theorem startTraining_hard (p : Nat) (d : Dev) : hard (startTraining p d) = hard d := by
  unfold startTraining; simp

@[simp] theorem requestChg_hard (p : Nat) (c : Chg) (d : Dev) : hard (requestChg p c d) = hard d := by
  unfold requestChg; simp

@[simp] theorem nextPlan_hard (p : Nat) :
    ∀ (a0 : Nat) (a1 : Dev), hard (nextPlan p a0 a1) = hard a1 := by
  intro a0
  induction a0 with
  | _ =>
    intros
    unfold nextPlan
    (repeat' split)
    all_goals (try simp_all)
    all_goals (repeat' split)
    all_goals (try simp_all)
    all_goals (repeat' split)
    all_goals (try simp_all)

@[simp] theorem wantRate_hard (p : Nat) (d : Dev) : hard (wantRate p d) = hard d := by
  unfold wantRate; (repeat' split) <;> simp

@[simp] theorem settleAnn_hard (p : Nat) (d : Dev) : hard (settleAnn p d) = hard d := by
  unfold settleAnn; simp

@[simp] theorem proceedUp_hard (p : Nat) (d : Dev) : hard (proceedUp p d) = hard d := by
  unfold proceedUp; simp

@[simp] theorem dropCur_hard (p : Nat) (d : Dev) : hard (dropCur p d) = hard d := by
  unfold dropCur; (repeat' split) <;> simp

@[simp] theorem goDown_hard (p cause : Nat) (d : Dev) : hard (goDown p cause d) = hard d := by
  unfold goDown; simp

@[simp] theorem enterNib_hard (p : Nat) (d : Dev) : hard (enterNib p d) = hard d := by
  unfold enterNib; simp

@[simp] theorem trained_hard (p : Nat) (d : Dev) : hard (trained p d) = hard d := by
  unfold trained; simp

@[simp] theorem postWidth_hard (p reason : Nat) (d : Dev) : hard (postWidth p reason d) = hard d := by
  unfold postWidth; simp

@[simp] theorem leaveLanes_hard (p : Nat) (d : Dev) : hard (leaveLanes p d) = hard d := by
  unfold leaveLanes; simp

@[simp] theorem carryLanes_hard (p : Nat) (d : Dev) : hard (carryLanes p d) = hard d := by
  unfold carryLanes; simp

@[simp] theorem endChg_hard (p : Nat) (completed : Bool) (d : Dev) : hard (endChg p completed d) = hard d := by
  unfold endChg; simp

@[simp] theorem finish_hard (p : Nat) (d : Dev) : hard (finish p d) = hard d := by
  unfold finish; simp

@[simp] theorem tryOutage_hard (p : Nat) (d : Dev) : hard (tryOutage p d) = hard d := by
  unfold tryOutage; simp

@[simp] theorem resume_hard (p : Nat) (d : Dev) : hard (resume p d) = hard d := by
  unfold resume; simp

@[simp] theorem takeOut_hard (p j : Nat) (d : Dev) : hard (takeOut p j d) = hard d := by
  unfold takeOut; simp

@[simp] theorem applyChg_hard (p : Nat) (d : Dev) : hard (applyChg p d) = hard d := by
  unfold applyChg; simp; (repeat' split) <;> simp

@[simp] theorem trySwitch_hard (p : Nat) (d : Dev) : hard (trySwitch p d) = hard d := by
  unfold trySwitch; simp; (repeat' split) <;> simp

@[simp] theorem afterDone_hard (p : Nat) (d : Dev) : hard (afterDone p d) = hard d := by
  unfold afterDone; simp; (repeat' split) <;> simp

@[simp] theorem narrowNow_hard (p keep : Nat) (d : Dev) : hard (narrowNow p keep d) = hard d := by
  unfold narrowNow; simp

@[simp] theorem rxFormat_hard (p w l : Nat) (d : Dev) : hard (rxFormat p w l d) = hard d := by
  unfold rxFormat; simp

@[simp] theorem frameLockGained_hard (p j : Nat) (two sw inv : Bool) (d : Dev) :
    hard (frameLockGained p j two sw inv d) = hard d := by
  unfold frameLockGained; simp; (repeat' split) <;> simp

@[simp] theorem trainLockTimeout_hard (p j : Nat) (d : Dev) : hard (trainLockTimeout p j d) = hard d := by
  unfold trainLockTimeout; simp

@[simp] theorem rateLockTimeout_hard (p : Nat) (d : Dev) : hard (rateLockTimeout p d) = hard d := by
  unfold rateLockTimeout; simp; (repeat' split) <;> simp

@[simp] theorem laneSignalLoss_hard (p j : Nat) (lol : Bool) (d : Dev) :
    hard (laneSignalLoss p j lol d) = hard d := by
  unfold laneSignalLoss; simp

@[simp] theorem laneWindow_hard (p j sym unc bip : Nat) (d : Dev) : hard (laneWindow p j sym unc bip d) = hard d := by
  unfold laneWindow; simp

@[simp] theorem takeLink_hard (p : Nat) (m : LinkMsg) (d : Dev) : hard (takeLink p m d) = hard d := by
  unfold takeLink; simp

theorem onLink_hard {p : Nat} {nt : Byte} {m : LinkMsg} {g : Dev → Dev} (h : ∀ d, hard (g d) = hard d) (d : Dev) :
    hard (onLink p nt m g d) = hard d := by
  unfold onLink; dsimp only; (repeat' split) <;> simp [h]

@[simp] theorem linkHello_hard (p : Nat) (m : LinkMsg) (d : Dev) : hard (linkHello p m d) = hard d := by
  unfold linkHello; simp

@[simp] theorem acceptChg_hard (p : Nat) (c : Chg) (merged : Bool) (answer : Byte) (d : Dev) :
    hard (acceptChg p c merged answer d) = hard d := by
  unfold acceptChg; simp

@[simp] theorem changeReq_hard (p : Nat) (m : LinkMsg) (d : Dev) : hard (changeReq p m d) = hard d := by
  unfold changeReq; simp; (repeat' split) <;> simp

@[simp] theorem changeAck_hard (p : Nat) (m : LinkMsg) (d : Dev) : hard (changeAck p m d) = hard d := by
  unfold changeAck; simp; (repeat' split) <;> simp

@[simp] theorem linkMode_hard (p : Nat) (m : LinkMsg) (d : Dev) : hard (linkMode p m d) = hard d := by
  unfold linkMode; simp

@[simp] theorem setCmdStatus_hard (p n : Nat) (d : Dev) : hard (setCmdStatus p n d) = hard d := by
  unfold setCmdStatus; simp

@[simp] theorem portCmd_hard (p : Nat) (c : Chg) (d : Dev) : hard (portCmd p c d) = hard d := by
  unfold portCmd; simp

@[simp] theorem portRestart_hard (p : Nat) (d : Dev) : hard (portRestart p d) = hard d := by
  unfold portRestart; simp

@[simp] theorem portOff_hard (p : Nat) (d : Dev) : hard (portOff p d) = hard d := by
  unfold portOff; simp

@[simp] theorem portEnableSet_hard (p : Nat) (d : Dev) : hard (portEnableSet p d) = hard d := by
  unfold portEnableSet; simp

@[simp] theorem requestRetry_hard (p : Nat) (d : Dev) : hard (requestRetry p d) = hard d := by
  unfold requestRetry; simp

@[simp] theorem tileFence_hard (p : Nat) (d : Dev) : hard (tileFence p d) = hard d := by
  unfold tileFence; simp

@[simp] theorem portThermal_hard (p : Nat) (d : Dev) : hard (portThermal p d) = hard d := by
  unfold portThermal; simp

@[simp] theorem portCommitted_hard (p : Nat) (old : Word64) (d : Dev) : hard (portCommitted p old d) = hard d := by
  unfold portCommitted; simp

@[simp] theorem tallyTx_hard (ing : Nat) (it : Item) (d : Dev) : hard (tallyTx ing it d) = hard d := by
  unfold tallyTx; (repeat' split) <;> simp

@[simp] theorem routeItem_hard (q : QItem) (d : Dev) : hard (routeItem q d) = hard d := by
  unfold routeItem; (repeat' split) <;> simp

@[simp] theorem takeRoute_hard (ing : Nat) (it : Item) (d : Dev) : hard (takeRoute ing it d).2 = hard d := by
  unfold takeRoute; (repeat' split) <;> simp

theorem dropWaiting_hard {it : Item} {d d' : Dev} (h : dropWaiting it d = some d') : hard d' = hard d := by
  unfold dropWaiting at h
  (repeat' split at h) <;> cases h <;> simp

@[simp] theorem setBank_hard (bank : Bool) (s : BankSt) (d : Dev) : hard (setBank bank s d) = hard d := by
  unfold setBank; simp

@[simp] theorem setCmdErr_hard (n : Nat) (d : Dev) : hard (setCmdErr n d) = hard d := by
  unfold setCmdErr; simp

@[simp] theorem armBank_hard (bank : Bool) (d : Dev) : hard (armBank bank d) = hard d := by
  unfold armBank; simp

@[simp] theorem retireBank_hard (bank : Bool) (d : Dev) : hard (retireBank bank d) = hard d := by
  unfold retireBank; simp

@[simp] theorem epochCmd_hard (c : Nat) (d : Dev) : hard (epochCmd c d) = hard d := by
  unfold epochCmd; (repeat' split) <;> simp

@[simp] theorem stampTo_hard (e : Bool) (d : Dev) : hard (stampTo e d) = hard d := by
  unfold stampTo; simp

@[simp] theorem tblStatus_hard (n : Nat) (d : Dev) : hard (tblStatus n d) = hard d := by
  unfold tblStatus; simp

@[simp] theorem putTree_hard (bank : Bool) (tree : Nat) (t : TreeWords) (d : Dev) :
    hard (putTree bank tree t d) = hard d := by
  unfold putTree; simp

@[simp] theorem tblWrite_hard (table idx : Nat) (bank force : Bool) (d : Dev) :
    hard (tblWrite table idx bank force d) = hard d := by
  unfold tblWrite; (repeat' split) <;> simp

@[simp] theorem dropNotes_hard (f : FnId) (d : Dev) : hard (dropNotes f d) = hard d := by
  unfold dropNotes; simp

@[simp] theorem failColls_hard (f : FnId) (s : Status) (d : Dev) : hard (failColls f s d) = hard d := by
  unfold failColls; simp [foldl_hard]

@[simp] theorem failPosted_hard (f : FnId) (s : Status) (d : Dev) : hard (failPosted f s d) = hard d := by
  unfold failPosted; simp [foldl_hard]

@[simp] theorem limitFn_hard (f : FnId) (d : Dev) : hard (limitFn f d) = hard d := by
  unfold limitFn; simp [foldl_hard]

@[simp] theorem refillFn_hard (f : FnId) (d : Dev) : hard (refillFn f d) = hard d := by
  unfold refillFn; simp [foldl_hard]

@[simp] theorem setGate_hard (p : Nat) (g : Gate) (d : Dev) : hard (setGate p g d) = hard d := by
  unfold setGate; simp

@[simp] theorem startReplay_hard (p : Nat) (q : BitVec 12) (timer : Bool) (d : Dev) :
    hard (startReplay p q timer d) = hard d := by
  unfold startReplay; simp

@[simp] theorem takeAck_hard (p : Nat) (a : BitVec 12) (d : Dev) : hard (takeAck p a d) = hard d := by
  unfold takeAck; simp

@[simp] theorem takeCredit_hard (p : Nat) (sel : Nat) (count : Nat) (d : Dev) :
    hard (takeCredit p sel count d) = hard d := by
  unfold takeCredit; simp

@[simp] theorem checkError_hard (p : Nat) (d : Dev) : hard (checkError p d) = hard d := by
  unfold checkError; simp

@[simp] theorem countCrc_hard (p : Nat) (d : Dev) : hard (countCrc p d) = hard d := by
  unfold countCrc; simp

@[simp] theorem rxNib_hard (p : Nat) (part : RxPart) (d : Dev) : hard (rxNib p part d) = hard d := by
  unfold rxNib; simp

@[simp] theorem rxData_hard (p vc : Nat) (part : RxPart) (d : Dev) : hard (rxData p vc part d) = hard d := by
  unfold rxData; simp

@[simp] theorem rxTree_hard (p : Nat) (part : RxPart) (d : Dev) : hard (rxTree p part d) = hard d := by
  unfold rxTree; simp

@[simp] theorem rxWhole_hard (p vc : Nat) (part : RxPart) (d : Dev) : hard (rxWhole p vc part d) = hard d := by
  unfold rxWhole; simp

@[simp] theorem rxCut_hard (p vc : Nat) (fresh : RxPart) :
    ∀ (a0 : Nat) (a1 : RxPart) (a2 : Dev), hard (rxCut p vc fresh a0 a1 a2).2 = hard a2 := by
  intro a0
  induction a0 with
  | _ =>
    intros
    unfold rxCut
    (repeat' split) <;> simp_all

@[simp] theorem takePayload_hard (p : Nat) (f : Flit) (d : Dev) : hard (takePayload p f d) = hard d := by
  unfold takePayload; simp

@[simp] theorem peerStarts_hard (p : Nat) (f : Flit) (d : Dev) : hard (peerStarts p f d) = hard d := by
  unfold peerStarts; simp

@[simp] theorem flitArrives_hard (p : Nat) (f : Flit) (d : Dev) : hard (flitArrives p f d) = hard d := by
  unfold flitArrives; simp

@[simp] theorem tileSlot_hard (p : Nat) (d : Dev) : hard (tileSlot p d) = hard d := by
  unfold tileSlot; simp; (repeat' split) <;> simp

@[simp] theorem elasticIn_hard (p : Nat) (f : Flit) (d : Dev) : hard (elasticIn p f d) = hard d := by
  unfold elasticIn; simp

@[simp] theorem tileSlots_hard (p : Nat) :
    ∀ (a0 : Nat) (a1 : Dev), hard (tileSlots p a0 a1) = hard a1 := by
  intro a0
  induction a0 with
  | _ =>
    intros
    unfold tileSlots
    (repeat' split) <;> simp_all

@[simp] theorem onTrailer_hard (p : Nat) (t : Trailer) (d : Dev) : hard (onTrailer p t d) = hard d := by
  unfold onTrailer; simp

@[simp] theorem rxSwitch_hard (p : Nat) (d : Dev) : hard (rxSwitch p d) = hard d := by
  unfold rxSwitch; simp; (repeat' split) <;> simp

@[simp] theorem laneFrame_hard (p k : Nat) (ss : List Sym) (fixed : List (Option Nat)) (t : Option Trailer) (d : Dev) :
    hard (laneFrame p k ss fixed t d) = hard d := by
  unfold laneFrame; simp

@[simp] theorem frameArrives_hard (p : Nat) (a b : List Sym) (slots : Nat) (d : Dev) :
    hard (frameArrives p a b slots d) = hard d := by
  unfold frameArrives
  (repeat' split)
  all_goals (try simp [foldl_hard])
  all_goals (repeat' split)
  all_goals (try simp [foldl_hard])

@[simp] theorem emitFlit_hard (p : Nat) (f : Flit) (d : Dev) : hard (emitFlit p f d) = hard d := by
  unfold emitFlit; simp

@[simp] theorem sendLane_hard (p k rung : Nat) (ss : List Sym) (d : Dev) :
    hard (sendLane p k rung ss d) = hard d := by
  unfold sendLane; simp

@[simp] theorem sideFrame_hard (p j : Nat) (d : Dev) : hard (sideFrame p j d) = hard d := by
  unfold sideFrame; simp

@[simp] theorem sendFrame_hard (p : Nat) (d : Dev) : hard (sendFrame p d) = hard d := by
  unfold sendFrame; simp [foldl_hard]

@[simp] theorem endFlit_hard (p : Nat) (d : Dev) : hard (endFlit p d) = hard d := by
  unfold endFlit; simp

@[simp] theorem sendNew_hard (p vc ctr : Nat) (bs : List Byte) (d : Dev) : hard (sendNew p vc ctr bs d) = hard d := by
  unfold sendNew; simp

@[simp] theorem purgeAged_hard (p : Nat) (d : Dev) : hard (purgeAged p d) = hard d := by
  unfold purgeAged; simp [foldl_hard]

@[simp] theorem noteReq_hard (ms : List LinkMsg) (d : Dev) : hard (noteReq ms d) = hard d := by
  unfold noteReq; simp

theorem sendNibFlit_hard {p : Nat} {d d' : Dev} (h : sendNibFlit p d = some d') : hard d' = hard d := by
  unfold sendNibFlit at h
  dsimp only at h
  (repeat' split at h) <;> cases h <;> simp [foldl_hard]

theorem sendPart_hard {p : Nat} {c : TxCur} {d d' : Dev} (h : sendPart p c d = some d') : hard d' = hard d := by
  unfold sendPart at h
  dsimp only at h
  split at h
  · cases h
  · cases h; split <;> simp

@[simp] theorem chooseNew_hard (p : Nat) :
    ∀ (a0 : Nat) (a1 : Dev), hard (chooseNew p a0 a1).2 = hard a1 := by
  intro a0
  induction a0 with
  | _ =>
    intros
    unfold chooseNew
    (repeat' split)
    all_goals (try simp_all)
    all_goals (repeat' split)
    all_goals (try simp_all)
    all_goals (repeat' split)
    all_goals (try simp_all)

theorem sendPacketFlit_hard {p : Nat} {d d' : Dev} (h : sendPacketFlit p d = some d') : hard d' = hard d := by
  have k := chooseNew_hard p 256 d
  unfold sendPacketFlit at h
  split at h <;> rename_i q <;> rw [q] at k
  · cases h; simpa using k
  · rw [sendPart_hard h]; simpa using k

@[simp] theorem sendIdle_hard (p : Nat) (d : Dev) : hard (sendIdle p d) = hard d := by
  unfold sendIdle; simp

theorem sendReplay_hard {p : Nat} {d d' : Dev} (h : sendReplay p d = some d') : hard d' = hard d := by
  unfold sendReplay at h
  dsimp only at h
  (repeat' split at h) <;> cases h <;> simp

theorem sendFresh_hard {p : Nat} {d d' : Dev} (h : sendFresh p d = some d') : hard d' = hard d := by
  unfold sendFresh at h
  dsimp only at h
  split at h
  · cases h
  · split at h
    · rename_i k; cases h; exact sendNibFlit_hard k
    · split at h
      · cases h
      · split at h
        · exact sendPart_hard h
        · exact sendPacketFlit_hard h

@[simp] theorem flitSlot_hard (p : Nat) (d : Dev) : hard (flitSlot p d) = hard d := by
  have fresh : ∀ d : Dev, hard ((sendFresh p d).getD (sendIdle p d)) = hard d := by
    intro d
    cases h : sendFresh p d with
    | none => simp
    | some e => simpa using sendFresh_hard h
  have go : ∀ b : Prop, [Decidable b] → hard (tryOutage p (endFlit p (if b then sendIdle p (purgeAged p d)
      else match sendReplay p (purgeAged p d) with
        | some d2 => d2
        | none => (sendFresh p (purgeAged p d)).getD (sendIdle p (purgeAged p d))))) = hard d := by
    intro b _
    rw [tryOutage_hard, endFlit_hard]
    split
    · rw [sendIdle_hard, purgeAged_hard]
    · split
      · rename_i h; rw [sendReplay_hard h, purgeAged_hard]
      · rw [fresh, purgeAged_hard]
  unfold flitSlot
  dsimp only
  split
  · rw [endFlit_hard, sendIdle_hard]
  · exact go _
  · exact go _
  · exact go _
  · rfl

@[simp] theorem ppsEdge_hard (old : Word64) (d : Dev) : hard (ppsEdge old d) = hard d := by
  unfold ppsEdge; simp

@[simp] theorem ppsFall_hard (d : Dev) : hard (ppsFall d) = hard d := by
  unfold ppsFall; simp

@[simp] theorem correctTime_hard (off : Int) (d : Dev) : hard (correctTime off d) = hard d := by
  unfold correctTime; simp

@[simp] theorem timeResp_hard (m : LinkMsg) (t1 t4 : Word64) (d : Dev) : hard (timeResp m t1 t4 d) = hard d := by
  unfold timeResp; simp

@[simp] theorem ftSetWrite_hard (w : Wr) (d : Dev) : hard (ftSetWrite w d) = hard d := by
  unfold ftSetWrite; (repeat' split) <;> simp

@[simp] theorem clockCycle_hard (d : Dev) : hard (clockCycle d) = hard d := by
  unfold clockCycle; simp

@[simp] theorem svcDown_hard (n : Nat) (d : Dev) : hard (svcDown n d) = hard d := by
  unfold svcDown; simp [foldl_hard]

@[simp] theorem trySpeed_hard (n : Nat) (d : Dev) : hard (trySpeed n d) = hard d := by
  unfold trySpeed; (repeat' split) <;> simp

@[simp] theorem takeFrameAck_hard (n : Nat) (f : Frame) (d : Dev) : hard (takeFrameAck n f d) = hard d := by
  unfold takeFrameAck; simp

theorem svcArrive_hard {code : BitVec 4} {n : Nat} {f : Frame} {handle : Nat → Dev → Dev}
    (h : ∀ t d, hard (handle t d) = hard d) (d : Dev) : hard (svcArrive code n f handle d) = hard d := by
  unfold svcArrive; dsimp only; (repeat' split) <;> simp [h]

@[simp] theorem dropFrame_hard (a : Option (Nat × Nat)) (d : Dev) : hard (dropFrame a d) = hard d := by
  unfold dropFrame; (repeat' split) <;> simp

@[simp] theorem forwardOn_hard (p : Nat) (f : Frame) (a : Option (Nat × Nat)) (d : Dev) :
    hard (forwardOn p f a d) = hard d := by
  unfold forwardOn; simp

@[simp] theorem forwardUp_hard (f : Frame) (a : Option (Nat × Nat)) (d : Dev) : hard (forwardUp f a d) = hard d := by
  unfold forwardUp; (repeat' split) <;> simp

theorem followPath_hard {f : Frame} {a : Option (Nat × Nat)} {consume : Frame → Dev → Dev}
    (h : ∀ f d, hard (consume f d) = hard d) (d : Dev) : hard (followPath f a consume d) = hard d := by
  unfold followPath; (repeat' split) <;> simp [h]

theorem routeFrame_hard {f : Frame} {a : Option (Nat × Nat)} {up consume : Frame → Dev → Dev}
    (hu : ∀ f d, hard (up f d) = hard d) (h : ∀ f d, hard (consume f d) = hard d) (d : Dev) :
    hard (routeFrame f a up consume d) = hard d := by
  unfold routeFrame; dsimp only; (repeat' split) <;> simp [h, hu, followPath_hard h, foldl_hard]

@[simp] theorem mgrTake_hard (f : Frame) (d : Dev) : hard (mgrTake f d) = hard d := by
  unfold mgrTake; simp

@[simp] theorem sendToManager_hard (ftype : BitVec 4) (payload : List Byte) (d : Dev) :
    hard (sendToManager ftype payload d) = hard d := by
  unfold sendToManager; simp

theorem svcFrame_hard {code : BitVec 4} {n : Nat} {f : Frame} {consume : Frame → Dev → Dev}
    (h : ∀ f d, hard (consume f d) = hard d) (d : Dev) : hard (svcFrame code n f consume d) = hard d := by
  unfold svcFrame; exact svcArrive_hard (fun t d => routeFrame_hard (by simp) h d) d

@[simp] theorem helloIn_hard (n : Nat) (f : Frame) (d : Dev) : hard (helloIn n f d) = hard d := by
  unfold helloIn; simp

@[simp] theorem adopt_hard (n term hops : Nat) (unit : Word64) (d : Dev) :
    hard (adopt n term hops unit d) = hard d := by
  unfold adopt; simp

@[simp] theorem joinTree_hard (n term hops : Nat) (unit : Word64) (d : Dev) :
    hard (joinTree n term hops unit d) = hard d := by
  unfold joinTree; simp; (repeat' split) <;> simp

@[simp] theorem passHeartbeat_hard (n term seq : Nat) (demoted : Bool) (f : Frame) (d : Dev) :
    hard (passHeartbeat n term seq demoted f d) = hard d := by
  unfold passHeartbeat; simp [foldl_hard]

@[simp] theorem heartbeatIn_hard (n : Nat) (f : Frame) (d : Dev) : hard (heartbeatIn n f d) = hard d := by
  unfold heartbeatIn; simp

@[simp] theorem sendHeartbeat_hard (d : Dev) : hard (sendHeartbeat d) = hard d := by
  unfold sendHeartbeat; simp [foldl_hard]

@[simp] theorem discoverIn_hard (f : Frame) (d : Dev) : hard (discoverIn f d) = hard d := by
  unfold discoverIn; simp

@[simp] theorem meterNotify_hard (d : Dev) : hard (meterNotify d) = hard d := by
  have k : ∀ v, hard { d with isl := { d.isl with seen := v } } = hard d :=
    fun v => hard_eq rfl rfl Iff.rfl Iff.rfl Iff.rfl Iff.rfl
  unfold meterNotify; dsimp only; (repeat' split) <;> simp [k]

theorem updIsl_hard {g : Isl → Isl} (h : ∀ i, (g i).acked = i.acked) (d : Dev) : hard (updIsl g d) = hard d :=
  hard_eq rfl (h _) Iff.rfl Iff.rfl Iff.rfl Iff.rfl

@[simp] theorem storeBlock_hard (b : MBlock) (d : Dev) : hard (storeBlock b d) = hard d :=
  hard_eq rfl rfl Iff.rfl Iff.rfl Iff.rfl Iff.rfl

@[simp] theorem minuteBoundary_hard (d : Dev) : hard (minuteBoundary d) = hard d := by
  unfold minuteBoundary; dsimp only; (repeat' split) <;> simp [updIsl_hard]

@[simp] theorem deliver_hard (tap : Nat) (d : Dev) : hard (deliver tap d) = hard d := by
  refine hard_eq rfl ?_ Iff.rfl Iff.rfl Iff.rfl Iff.rfl
  unfold deliver; dsimp only; (repeat' split) <;> simp

@[simp] theorem islandCycle_hard (d : Dev) : hard (islandCycle d) = hard d := by
  unfold islandCycle; (repeat' split) <;> simp [updIsl_hard]

@[simp] theorem islandUp_hard (sealOpen : Bool) (d : Dev) : hard (islandUp sealOpen d) = hard d :=
  updIsl_hard (fun i => by dsimp only; split <;> simp) d

@[simp] theorem readersReady_hard (d : Dev) : hard (readersReady d) = hard d := updIsl_hard (fun _ => rfl) d

@[simp] theorem bump_hard (k n : Nat) (d : Dev) : hard (bump k n d) = hard d := by
  unfold bump; simp

@[simp] theorem countOne_hard (occs : List Occ) (k : Nat) (sel : Word64) (d : Dev) :
    hard (countOne occs k sel d) = hard d := by
  unfold countOne; simp

@[simp] theorem clearCounters_hard (d : Dev) : hard (clearCounters d) = hard d :=
  hard_eq rfl rfl Iff.rfl Iff.rfl (map_rising_iff _ _ fun _ => rfl) Iff.rfl

@[simp] theorem pmuTick_hard (d : Dev) : hard (pmuTick d) = hard d := by
  unfold pmuTick; simp [foldl_hard]

@[simp] theorem dumpTick_hard (d : Dev) : hard (dumpTick d) = hard d := by
  unfold dumpTick; simp

@[simp] theorem postEngine_hard (code : EvCode) (engine spare slot : Nat) (d : Dev) :
    hard (postEngine code engine spare slot d) = hard d := by
  unfold postEngine; simp [foldl_hard]

@[simp] theorem loseMctx_hard (m : Nat) (d : Dev) : hard (loseMctx m d) = hard d := by
  unfold loseMctx; simp; (repeat' split) <;> simp

@[simp] theorem loseSlot_hard (engine slot : Nat) (d : Dev) : hard (loseSlot engine slot d) = hard d := by
  unfold loseSlot; simp [foldl_hard]

@[simp] theorem inkUnitFailed_hard (u : Nat) (d : Dev) : hard (inkUnitFailed u d) = hard d := by
  unfold inkUnitFailed; simp

@[simp] theorem fenceSlot_hard (slot : Nat) (d : Dev) : hard (fenceSlot slot d) = hard d := by
  unfold fenceSlot; simp [foldl_hard]

@[simp] theorem engineFails_hard (k : Nat) (d : Dev) : hard (engineFails k d) = hard d := by
  unfold engineFails; simp; (repeat' split) <;> simp

@[simp] theorem unitFails_hard (k : Nat) (d : Dev) : hard (unitFails k d) = hard d := by
  unfold unitFails; simp [foldl_hard]

@[simp] theorem eccEffect_hard (src detail object : Nat) (d : Dev) :
    hard (eccEffect src detail object d) = hard d := by
  unfold eccEffect; (repeat' split) <;> simp

@[simp] theorem stackFails_hard (n : Nat) (d : Dev) : hard (stackFails n d) = hard d := by
  unfold stackFails; simp

@[simp] theorem faultEffect_hard (src cause detail object : Nat) (d : Dev) :
    hard (faultEffect src cause detail object d) = hard d := by
  unfold faultEffect; simp

@[simp] theorem tellHost_hard (src cause : Nat) (detail : Byte) (object : BitVec 24) (d : Dev) :
    hard (tellHost src cause detail object d) = hard d := by
  unfold tellHost
  split
  · exact aerReport_hard ..
  · rfl

@[simp] theorem faultReport_hard (x : FltIn) (d : Dev) : hard (faultReport x d) = hard d := by
  unfold faultReport
  (repeat' split)
  all_goals (try simp [foldl_hard])
  all_goals (repeat' split)
  all_goals (try simp [foldl_hard])

@[simp] theorem clearRec_hard (src : Nat) (d : Dev) : hard (clearRec src d) = hard d := by
  unfold clearRec; simp

@[simp] theorem clearCorr_hard (src : Nat) (d : Dev) : hard (clearCorr src d) = hard d := by
  unfold clearCorr; simp

@[simp] theorem putFclass_hard (src fc : Nat) (d : Dev) : hard (putFclass src fc d) = hard d := by
  unfold putFclass; simp

@[simp] theorem fltForce_hard (src : Nat) (fc : Nat) (d : Dev) : hard (fltForce src fc d) = hard d := by
  unfold fltForce; simp

@[simp] theorem breakPair_hard (src : Nat) (d : Dev) : hard (breakPair src d) = hard d := by
  unfold breakPair; simp

@[simp] theorem inkErr_hard (c : Nat) (d : Dev) : hard (inkErr c d) = hard d := by
  unfold inkErr; simp

@[simp] theorem inkStart_hard (d : Dev) : hard (inkStart d) = hard d := by
  unfold inkStart; simp

@[simp] theorem inkHalt_hard (d : Dev) : hard (inkHalt d) = hard d := by
  unfold inkHalt; simp

@[simp] theorem inkDiscard_hard (d : Dev) : hard (inkDiscard d) = hard d := by
  unfold inkDiscard; simp

@[simp] theorem inkTransfer_hard (d : Dev) : hard (inkTransfer d) = hard d := by
  unfold inkTransfer; simp

@[simp] theorem inkReplay_hard (d : Dev) : hard (inkReplay d) = hard d := by
  unfold inkReplay; simp

@[simp] theorem inkCmd_hard (c : Nat) (d : Dev) : hard (inkCmd c d) = hard d := by
  unfold inkCmd; (repeat' split) <;> simp

@[simp] theorem inkCheckpoint_hard (d : Dev) : hard (inkCheckpoint d) = hard d := by
  unfold inkCheckpoint; simp

@[simp] theorem inkLag_hard (d : Dev) : hard (inkLag d) = hard d := by
  unfold inkLag; simp

@[simp] theorem segFull_hard (d : Dev) : hard (segFull d) = hard d := by
  unfold segFull; simp

@[simp] theorem diverged_hard (index : Nat) (rec_ made : Word64) (pos : Nat) (d : Dev) :
    hard (diverged index rec_ made pos d) = hard d := by
  unfold diverged; simp

@[simp] theorem replayRun_hard (damaged : Bool) :
    ∀ (a0 : List (Nat × InkRec)) (a1 : List Word64) (a2 : Dev), hard (replayRun damaged a0 a1 a2) = hard a2 := by
  intro a0
  induction a0 with
  | _ =>
    intros
    unfold replayRun
    (repeat' split) <;> simp_all

@[simp] theorem enterReq_hard (r : ModeReq) (d : Dev) : hard (enterReq r d) = hard d := by
  unfold enterReq; simp

@[simp] theorem modeCtlWrite_hard (w : Wr) (d : Dev) : hard (modeCtlWrite w d).2 = hard d := by
  unfold modeCtlWrite; simp; (repeat' split) <;> simp

@[simp] theorem postModeChanged_hard (old new : Mode) (cause : Nat) (d : Dev) :
    hard (postModeChanged old new cause d) = hard d := by
  unfold postModeChanged; simp

@[simp] theorem answerReqs_hard (m : Mode) (l : List ModeReq) (d : Dev) : hard (answerReqs m l d) = hard d := by
  unfold answerReqs
  refine foldl_hard _ (fun d r => ?_) l d
  split
  · exact admDone_hard (fun _ _ => rfl) d
  · rfl

@[simp] theorem answerStale_hard (d : Dev) : hard (answerStale d) = hard d := by
  unfold answerStale
  refine (foldl_hard _ (fun d r => ?_) _ _).trans (by simp)
  split
  · exact admDone_hard (fun _ _ => rfl) d
  · rfl

@[simp] theorem flushTaps_hard (d : Dev) : hard (flushTaps d) = hard d := by
  unfold flushTaps; simp [foldl_hard]

@[simp] theorem startFirmware_hard (img : List Byte) (d : Dev) : hard (startFirmware img d) = hard d := by
  unfold startFirmware; simp

@[simp] theorem bootRecord_hard (pref : Bool) (fails : Nat) (d : Dev) : hard (bootRecord pref fails d) = hard d := by
  unfold bootRecord; simp

@[simp] theorem setSlot_hard (b : Bool) (bs : List Byte) (d : Dev) : hard (setSlot b bs d) = hard d := by
  unfold setSlot; simp

@[simp] theorem imageIn_hard (n : Nat) (f : Frame) (d : Dev) : hard (imageIn n f d) = hard d := by
  unfold imageIn; (repeat' split) <;> simp

@[simp] theorem setAct_hard (n : Nat) (d : Dev) : hard (setAct n d) = hard d := by
  unfold setAct; simp

@[simp] theorem postPace_hard (d : Dev) : hard (postPace d) = hard d := by
  unfold postPace; simp

@[simp] theorem paceTick_hard (counts : List Nat) (d : Dev) : hard (paceTick counts d) = hard d := by
  unfold paceTick; simp

@[simp] theorem askVolts_hard (v : Nat) (d : Dev) : hard (askVolts v d) = hard d := by
  unfold askVolts; simp

@[simp] theorem govern_hard (d : Dev) : hard (govern d) = hard d := by
  unfold govern; simp

@[simp] theorem avsFault_hard (status : Word16) (d : Dev) : hard (avsFault status d) = hard d := by
  unfold avsFault; simp

@[simp] theorem setHbm_hard (n : Fin 2) (h : HbmT) (d : Dev) : hard (setHbm n h d) = hard d := by
  unfold setHbm; simp

@[simp] theorem postHbm_hard (n : Fin 2) (d : Dev) : hard (postHbm n d) = hard d := by
  unfold postHbm; simp

@[simp] theorem hbmCap_hard (h : HbmT) (t : Int) (d : Dev) : hard (hbmCap h t d).2 = hard d := by
  unfold hbmCap; (repeat' split) <;> simp

@[simp] theorem hbmSample_hard (n : Fin 2) (t : Int) (d : Dev) : hard (hbmSample n t d) = hard d := by
  unfold hbmSample; simp; (repeat' split) <;> simp

@[simp] theorem clearRead_hard (off : Nat) (lo hi : Bool) (d : Dev) : hard (clearRead off lo hi d) = hard d := by
  unfold clearRead; (repeat' split) <;> (try simp [updIsl_hard]) <;> (repeat' split) <;> simp [updIsl_hard]

@[simp] theorem windowRead_hard (off : Nat) (lo hi : Bool) (d : Dev) : hard (windowRead off lo hi d) = hard d := by
  unfold windowRead; split <;> simp [updIsl_hard]

@[simp] theorem readAccess_hard (m : Dev) (f : FnId) (off : Nat) (lo hi : Bool) (d : Dev) :
    hard (readAccess m f off lo hi d).2 = hard d := by
  unfold readAccess; simp; (repeat' split) <;> simp

@[simp] theorem portCmdCode_hard (p c : Nat) (d : Dev) : hard (portCmdCode p c d) = hard d := by
  unfold portCmdCode; (repeat' split) <;> simp

@[simp] theorem fnRegWrite_hard (f : FnId) (off : Nat) (w : Wr) (d : Dev) : hard (fnRegWrite f off w d) = hard d := by
  unfold fnRegWrite; (repeat' split) <;> simp

@[simp] theorem ovfWrite_hard (m : Nat) (w : Wr) (d : Dev) : hard (ovfWrite m w d) = hard d := by
  unfold ovfWrite; simp

@[simp] theorem commitWrite_hard (w : Wr) (d : Dev) : hard (commitWrite w d) = hard d := by
  unfold commitWrite; simp

@[simp] theorem badDoorbell_hard (f : FnId) (d : Dev) : hard (badDoorbell f d) = hard d := by
  unfold badDoorbell; simp

@[simp] theorem msixWrite_hard (f : FnId) (i : Nat) (w : Wr) (d : Dev) : hard (msixWrite f i w d) = hard d := by
  unfold msixWrite; simp

@[simp] theorem windowReadOf_hard (mir : Dev) (m : Master) (off : Nat) (a : Part) (d : Dev) :
    hard (windowReadOf mir m off a d).2 = hard d := by
  unfold windowReadOf; simp; (repeat' split) <;> simp

@[simp] theorem crcCompare_hard (d : Dev) : hard (crcCompare d) = hard d := by
  unfold crcCompare; simp

@[simp] theorem parityRecord_hard (off : Nat) (d : Dev) : hard (parityRecord off d) = hard d := by
  unfold parityRecord; simp

@[simp] theorem fenceEffect_hard (old : Dev) (off : Nat) (d : Dev) : hard (fenceEffect old off d) = hard d := by
  unfold fenceEffect; (repeat' split) <;> simp

@[simp] theorem parityHit_hard (off : Nat) (d : Dev) : hard (parityHit off d) = hard d := by
  unfold parityHit; simp

@[simp] theorem fnParityHit_hard (f : FnId) (off : Nat) (d : Dev) : hard (fnParityHit f off d) = hard d := by
  unfold fnParityHit; simp

@[simp] theorem liftFences_hard (d : Dev) : hard (liftFences d) = hard d := by
  unfold liftFences; simp

@[simp] theorem cmdEnd_hard (c : CmdRun) (st : Status) (d : Dev) : hard (cmdEnd c st d) = hard d := by
  unfold cmdEnd; split
  · split <;> simp
  · rw [admDone_hard (fun _ _ => rfl)]; simp

@[simp] theorem cmdHold_hard (c : CmdRun) (d : Dev) : hard (cmdHold c d) = hard d := by
  unfold cmdHold; simp

@[simp] theorem cmdIn_hard (n : Option Nat) (f : Frame) (d : Dev) : hard (cmdIn n f d) = hard d := by
  unfold cmdIn; simp

@[simp] theorem ownFrame_hard (f : Frame) (d : Dev) : hard (ownFrame f d) = hard d := by
  unfold ownFrame; (repeat' split) <;> simp

@[simp] theorem fmSend_hard (f : FnId) (e : Desc) (buf : List Byte) (d : Dev) : hard (fmSend f e buf d) = hard d := by
  unfold fmSend
  refine runAdmin_hard (fun t d => ?_) d
  dsimp only
  (repeat' split) <;> simp [routeFrame_hard (fun f d => mgrTake_hard f d) (fun f d => ownFrame_hard f d)]

@[simp] theorem fmLocal_hard (f : FnId) (e : Desc) (buf : List Byte) (d : Dev) : hard (fmLocal f e buf d) = hard d := by
  unfold fmLocal
  refine runAdmin_hard (fun t d => ?_) d
  (repeat' split) <;> first | rfl | simp

@[simp] theorem answerWith_hard (won : Mode) (lost : Status) (d : Dev) : hard (answerWith won lost d) = hard d := by
  unfold answerWith; simp [foldl_hard]

@[simp] theorem answerCmds_hard (won : Mode) (d : Dev) : hard (answerCmds won d) = hard d := by
  unfold answerCmds; simp [foldl_hard]

@[simp] theorem tickCounters_hard (d : Dev) : hard (tickCounters d) = hard d :=
  hard_eq rfl rfl Iff.rfl Iff.rfl (map_rising_iff _ _ fun _ => rfl) Iff.rfl

@[simp] theorem tickSlots_hard (counts : List Nat) (slots : List Int) (d : Dev) :
    hard (tickSlots counts slots d) = hard d := by
  unfold tickSlots; simp

@[simp] theorem tickDrain_hard (d : Dev) : hard (tickDrain d) = hard d := by
  unfold tickDrain; simp

@[simp] theorem tickSvc_hard (d : Dev) : hard (tickSvc d) = hard d := by
  unfold tickSvc; simp [foldl_hard]

@[simp] theorem tickMarks_hard (d : Dev) : hard (tickMarks d) = hard d :=
  hard_eq rfl rfl (map_rising_iff _ _ fun _ => rfl) Iff.rfl Iff.rfl Iff.rfl

@[simp] theorem tickCal_hard (d : Dev) : hard (tickCal d) = hard d := by
  unfold tickCal; simp

end Sys2Proof.Machine
end

