-- ==== Sys2Proof/Laws/Sound.lean ====
section
/-!
SUPPORT. The operations that do write stored registers or fuses keep what the invariant says of them.
-/
namespace Sys2Proof.Machine

open Sys2Proof

/-- What a device is held against: the fuses before, ROLE_SEL and BOOT_SRC where no power-on reset samples them, and the last
block acknowledged before. -/
abbrev Base := Fuse × Option (BitVec 2 × BitVec 2) × Nat

/-- What the invariants say of the fuses, the straps, the stored registers, MTR_SEQ_ACKED and the tables. -/
def okH (f0 : Base) (x : HardT) : Prop :=
  fuseKept f0.1 x.1 ∧ (∀ p, f0.2.1 = some p → pins x.2.1 = p) ∧ rising x.2.2.1 ∧ rising x.2.2.2.1 ∧ f0.2.2 ≤ x.2.2.2.2.1 ∧ x.2.2.2.2.2

/-- A property that a later acknowledgement, and a table that comes into its form, leave true. -/
def Tame (Q : HardT → Prop) : Prop :=
  ∀ x a p, Q x → x.2.2.2.2.1 ≤ a → (x.2.2.2.2.2 → p) → Q (x.1, x.2.1, x.2.2.1, x.2.2.2.1, a, p)

theorem okH_tame (f0 : Base) : Tame (okH f0) := fun _ _ _ h ha hp =>
  ⟨h.1, h.2.1, h.2.2.1, h.2.2.2.1, Nat.le_trans h.2.2.2.2.1 ha, hp h.2.2.2.2.2⟩

theorem Tame.next {Q : HardT → Prop} (q : Tame Q) {d e : Dev} (h : Q (hard d))
    (hf : (e.fuse, e.strap, e.regs, e.stg) = (d.fuse, d.strap, d.regs, d.stg)) (ha : d.isl.acked ≤ e.isl.acked)
    (ho : ordered d → ordered e) : Q (hard e) := by
  simp only [Prod.mk.injEq] at hf
  have k := q _ _ _ h ha ho
  simpa only [hard, hf] using k

theorem foldl_tame {Q : HardT → Prop} {α : Type} (g : Dev → α → Dev) (h : ∀ d x, Q (hard d) → Q (hard (g d x))) (l : List α)
    (d : Dev) (k : Q (hard d)) : Q (hard (l.foldl g d)) := by
  induction l generalizing d with
  | nil => exact k
  | cons x l ih => exact ih _ (h _ _ k)

theorem foldl_ok {f0 : Base} {α : Type} (g : Dev → α → Dev) (h : ∀ d x, okH f0 (hard d) → okH f0 (hard (g d x))) (l : List α)
    (d : Dev) (k : okH f0 (hard d)) : okH f0 (hard (l.foldl g d)) := by
  induction l generalizing d with
  | nil => exact k
  | cons x l ih => exact ih _ (h _ _ k)

theorem okH.regs {f0 : Base} {d e : Dev} (h : okH f0 (hard d)) (hf : e.fuse = d.fuse) (hs : pins e.strap = pins d.strap)
    (hr : rising e.regs) (hg : rising e.stg) (ha : e.isl.acked = d.isl.acked := by rfl) (ho : ordered d → ordered e := by exact id) :
    okH f0 (hard e) := by
  simp only [okH, hard, hf, hs, ha] at h ⊢
  exact ⟨h.1, h.2.1, hr, hg, h.2.2.2.2.1, ho h.2.2.2.2.2⟩

@[simp] theorem okH_put {f0 : Base} (d : Dev) (vclk : Clk) (vxl : Xl) (vxpt : Xpt) (vmtc : Mtc) (veng : Eng) (vtre : Tre) (vrt : Rt) (vtc : Tc) (vsvc : Svc) (vft : Ft) (vflt : Flt) (vboot : Boot) (vmode : Mode) (vmodeSt : ModeSt) (vpmu : Pmu) (vink : Ink) (vcfg : Cfg) (vpace : Pace) (vtherm : Therm) (vjtag : Jtag) (vout : List Out) (vfree : Nat) (vownerPort : Fin 4) (k : Nat) (v : Word64)
    (h : okH f0 (hard d)) (q : vxpt.conns = d.xpt.conns) :
    okH f0 (hard (Dev.mk vclk d.fuse d.strap d.hp d.fns vxl vxpt vmtc veng vtre vrt d.ports vtc vsvc vft d.isl vflt vboot vmode vmodeSt vpmu vink vcfg vpace vtherm vjtag (tput d.regs k v) d.stg vout vfree vownerPort)) :=
  h.regs rfl rfl (tput_rising _ _ _ h.2.2.1) h.2.2.2.1 rfl (by simp only [ordered, q]; exact id)

theorem okH.regs_rising {f0 : Base} {d : Dev} (h : okH f0 (hard d)) : rising d.regs := h.2.2.1
theorem okH.stg_rising {f0 : Base} {d : Dev} (h : okH f0 (hard d)) : rising d.stg := h.2.2.2.1

@[simp] theorem putReg_ok {f0 : Base} {off reset : Nat} {v : Word64} {d : Dev} (h : okH f0 (hard d)) :
    okH f0 (hard (putReg off reset v d)) := by
  have k : okH f0 (hard { d with
      regs := tput d.regs off v, cfg := { d.cfg with bad := d.cfg.bad.filter fun x => x != (blockOf off, off) } }) :=
    h.regs rfl rfl (tput_rising _ _ _ h.regs_rising) h.stg_rising
  unfold putReg; dsimp only; split <;> simp [k]

@[simp] theorem ringsStop_ok {f0 : Base} {cause : Nat} {d : Dev} (h : okH f0 (hard d)) :
    okH f0 (hard (ringsStop cause d)) := by
  have r : ∀ (off : Nat) (r : Ring) (d : Dev), rising d.regs → rising (ringStop off cause r d).2 := by
    intro off r d k
    unfold ringStop; dsimp only; split
    · exact tput_rising _ _ _ k
    · exact k
  unfold ringsStop
  exact h.regs rfl rfl (r _ _ _ (r _ _ _ h.regs_rising)) h.stg_rising

theorem watchOwner_ok {f0 : Base} {g : Dev → Dev} {d : Dev} (k : okH f0 (hard (g d))) :
    okH f0 (hard (watchOwner g d)) := by
  unfold watchOwner; dsimp only; split <;> simp [k]

@[simp] theorem configWrite_ok {f0 : Base} {f : FnId} {c : CfgWr} {d : Dev} (h : okH f0 (hard d)) :
    okH f0 (hard (configWrite f c d)) := by
  unfold configWrite; dsimp only; (repeat' split)
  all_goals first
    | exact h
    | exact watchOwner_ok (by simp [h])
    | simpa using h

@[simp] theorem putPortCtl_ok {f0 : Base} {p : Nat} {v : Word64} {d : Dev} (h : okH f0 (hard d)) :
    okH f0 (hard (putPortCtl p v d)) := by
  unfold putPortCtl; simp [h]

@[simp] theorem epochCtlWrite_ok {f0 : Base} {w : Wr} {d : Dev} (h : okH f0 (hard d)) :
    okH f0 (hard (epochCtlWrite w d)) := by
  unfold epochCtlWrite; simp [h]

@[simp] theorem setTblData_ok {f0 : Base} {ws : List Word64} {d : Dev} (h : okH f0 (hard d)) :
    okH f0 (hard (setTblData ws d)) := by
  unfold setTblData
  refine h.regs rfl rfl ?_ h.stg_rising
  have k : ∀ (l : List (Word64 × Nat)) (t : Tbl Word64), rising t →
      rising (l.foldl (fun t w => tput t (0x20018 + 8 * w.2) w.1) t) := by
    intro l
    induction l with
    | nil => exact fun t k => k
    | cons x l ih => exact fun t k => ih _ (tput_rising _ _ _ k)
  exact k _ _ h.regs_rising

@[simp] theorem tblRead_ok {f0 : Base} {table idx : Nat} {bank : Bool} {d : Dev} (h : okH f0 (hard d)) :
    okH f0 (hard (tblRead table idx bank d)) := by
  unfold tblRead; dsimp only; (repeat' split) <;> simp [h]

@[simp] theorem tblAccess_ok {f0 : Base} {a : Word64} {d : Dev} (h : okH f0 (hard d)) :
    okH f0 (hard (tblAccess a d)) := by
  unfold tblAccess; dsimp only; (repeat' split) <;> simp [h]

@[simp] theorem tblAddrWrite_ok {f0 : Base} {w : Wr} {d : Dev} (h : okH f0 (hard d)) :
    okH f0 (hard (tblAddrWrite w d)) := by
  unfold tblAddrWrite; dsimp only; (repeat' split) <;> simp [h]

@[simp] theorem coordWrite_ok {f0 : Base} {w : Wr} {d : Dev} (h : okH f0 (hard d)) :
    okH f0 (hard (coordWrite w d)) := by
  unfold coordWrite; dsimp only; (repeat' split) <;> simp [h]

@[simp] theorem hpDrainWrite_ok {f0 : Base} {w : Wr} {d : Dev} (h : okH f0 (hard d)) :
    okH f0 (hard (hpDrainWrite w d)) := by
  unfold hpDrainWrite; simp [h]

@[simp] theorem gclAddrWrite_ok {f0 : Base} {w : Wr} {d : Dev} (h : okH f0 (hard d)) :
    okH f0 (hard (gclAddrWrite w d)) := by
  unfold gclAddrWrite; dsimp only; (repeat' split) <;> simp [h]

@[simp] theorem svcCtlWrite_ok {f0 : Base} {n : Nat} {w : Wr} {d : Dev} (h : okH f0 (hard d)) :
    okH f0 (hard (svcCtlWrite n w d)) := by
  unfold svcCtlWrite; simp [h]

@[simp] theorem becomeActive_ok {f0 : Base} {d : Dev} (h : okH f0 (hard d)) :
    okH f0 (hard (becomeActive d)) := by
  unfold becomeActive; simp only [svcHellos_hard]; refine putReg_ok ?_; exact h

@[simp] theorem leaseWrite_ok {f0 : Base} {w : Wr} {d : Dev} (h : okH f0 (hard d)) :
    okH f0 (hard (leaseWrite w d)) := by
  unfold leaseWrite; simp [h]

@[simp] theorem svcRtAddrWrite_ok {f0 : Base} {w : Wr} {d : Dev} (h : okH f0 (hard d)) :
    okH f0 (hard (svcRtAddrWrite w d)) := by
  unfold svcRtAddrWrite; dsimp only; (repeat' split) <;> simp [h]

@[simp] theorem selWrite_ok {f0 : Base} {k : Nat} {w : Wr} {d : Dev} (h : okH f0 (hard d)) :
    okH f0 (hard (selWrite k w d)) := by
  unfold selWrite; simp [h]

@[simp] theorem pmuCtlWrite_ok {f0 : Base} {w : Wr} {d : Dev} (h : okH f0 (hard d)) :
    okH f0 (hard (pmuCtlWrite w d)) := by
  unfold pmuCtlWrite; simp [h]

@[simp] theorem bwCtlWrite_ok {f0 : Base} {w : Wr} {d : Dev} (h : okH f0 (hard d)) :
    okH f0 (hard (bwCtlWrite w d)) := by
  unfold bwCtlWrite; simp [h]

@[simp] theorem clearEn_ok {f0 : Base} {off reset : Nat} {d : Dev} (h : okH f0 (hard d)) :
    okH f0 (hard (clearEn off reset d)) := by
  exact h.regs rfl rfl (tput_rising _ _ _ h.regs_rising) h.stg_rising

@[simp] theorem ringStop_ok {f0 : Base} {off cause : Nat} {r : Ring} {d : Dev} (h : okH f0 (hard d)) :
    rising (ringStop off cause r d).2 := by
  unfold ringStop; dsimp only; split
  · exact tput_rising _ _ _ h.regs_rising
  · exact h.regs_rising

/-- A dump block that the DMA does not write stops the dump. -/
@[simp] theorem writeDump_ok {f0 : Base} {old d : Dev} (h : okH f0 (hard d)) : okH f0 (hard (writeDump old d)) := by
  unfold writeDump; split
  · exact h.regs rfl rfl (ringStop_ok h) h.stg_rising
  · have k : ∀ l, okH f0 (hard (List.foldl (fun d g => if (fld (dumpCtl d) 59 4).testBit g then d else d) d l)) := by
      intro l; rw [foldl_hard _ (fun d x => by split <;> rfl)]; exact h
    dsimp only
    split
    all_goals
      first | rw [fire_hard] | skip
      simp only [hard_mk, hostWrite_hard]
      rw [foldl_hard _ (fun d x => by split <;> simp)]
      exact h

@[simp] theorem dumpBoundary_ok {f0 : Base} {old d : Dev} (h : okH f0 (hard d)) : okH f0 (hard (dumpBoundary old d)) := by
  unfold dumpBoundary; dsimp only; (repeat' split) <;> simp [h]

@[simp] theorem tagTick_ok {f0 : Base} {d : Dev} (h : okH f0 (hard d)) : okH f0 (hard (tagTick d)) := by
  unfold tagTick; dsimp only; split
  · exact h.regs rfl rfl (ringStop_ok h) h.stg_rising
  · exact h

/-- A change of the island that does not lower MTR_SEQ_ACKED. -/
theorem updIsl_tame {Q : HardT → Prop} (q : Tame Q) {g : Isl → Isl} (hg : ∀ i, i.acked ≤ (g i).acked) {d : Dev} (h : Q (hard d)) :
    Q (hard (updIsl g d)) := q.next h rfl (hg _) id

/-- A write of the export block can only raise MTR_SEQ_ACKED. -/
@[simp] theorem meterWrite_ok {f0 : Base} {off : Nat} {w : Wr} {d : Dev} (h : okH f0 (hard d)) :
    okH f0 (hard (meterWrite off w d)) := by
  have s : ∀ {g : Isl → Isl}, (∀ i, (g i).acked = i.acked) → ∀ i : Isl, i.acked ≤ (sealed g i).acked :=
    fun q i => Nat.le_of_eq (sealed_acked q i).symm
  unfold meterWrite; split
  · exact h
  · rw [meterNotify_hard]
    refine updIsl_tame (okH_tame f0) (fun i => ?_) h
    (repeat' split)
    all_goals first
      | exact ackWrite_acked _ _ i
      | exact s (fun i => by simp) i
      | exact Nat.le_of_eq (by simp)

@[simp] theorem dumpCtlWrite_ok {f0 : Base} {w : Wr} {d : Dev} (h : okH f0 (hard d)) :
    okH f0 (hard (dumpCtlWrite w d)) := by
  unfold dumpCtlWrite; dsimp only; (repeat' split) <;> simp [h]

@[simp] theorem tagCtlWrite_ok {f0 : Base} {w : Wr} {d : Dev} (h : okH f0 (hard d)) :
    okH f0 (hard (tagCtlWrite w d)) := by
  unfold tagCtlWrite; dsimp only; (repeat' split) <;> simp [h]

@[simp] theorem inkCtlWrite_ok {f0 : Base} {w : Wr} {d : Dev} (h : okH f0 (hard d)) :
    okH f0 (hard (inkCtlWrite w d)) := by
  unfold inkCtlWrite; simp [h]

/-- Releasing a connection's number takes its context out of the table. -/
theorem releaseConn_tame {Q : HardT → Prop} (q : Tame Q) {n : Nat} {c : Conn} {byReset : Bool} {d : Dev} (h : Q (hard d)) :
    Q (hard (releaseConn n c byReset d)) :=
  q.next h rfl (Nat.le_refl _) fun o => ⟨o.1, o.2.1, o.2.2.1, tdel_rising _ _ o.2.2.2⟩

theorem tearConns_tame {Q : HardT → Prop} (q : Tame Q) {f : FnId} {d : Dev} (h : Q (hard d)) : Q (hard (tearConns f d)) := by
  unfold tearConns
  refine foldl_tame _ (fun e c k => ?_) _ _ h
  dsimp only
  split
  · exact k
  · refine releaseConn_tame q ?_
    rw [foldl_hard _ (fun d x => by simp)]; simpa using k

theorem resetOne_tame {Q : HardT → Prop} (q : Tame Q) {f : FnId} {d : Dev} (h : Q (hard d)) : Q (hard (resetOne f d)) := by
  unfold resetOne
  simp only [noteFlr_hard, updFn_hard, dropObjects_hard]
  exact tearConns_tame q (by simpa using h)

@[simp] theorem resetOne_ok {f0 : Base} {f : FnId} {d : Dev} (h : okH f0 (hard d)) : okH f0 (hard (resetOne f d)) :=
  resetOne_tame (okH_tame f0) h

@[simp] theorem resetPort_ok {f0 : Base} {p : Fin 4} {d : Dev} (h : okH f0 (hard d)) : okH f0 (hard (resetPort p d)) :=
  foldl_ok _ (fun _ _ k => resetOne_ok k) _ _ h

@[simp] theorem linkGone_ok {f0 : Base} {p : Fin 4} {d : Dev} (h : okH f0 (hard d)) : okH f0 (hard (linkGone p d)) := by
  unfold linkGone
  simp only [updHp_hard, clearCompanion_hard, clearPortCfg_hard]
  rw [foldl_hard _ (fun d x => by simp)]
  exact resetPort_ok h

@[simp] theorem hostDown_ok {f0 : Base} {p : Fin 4} {d : Dev} (h : okH f0 (hard d)) :
    okH f0 (hard (hostDown p d)) := by
  unfold hostDown; split
  · exact h
  · exact watchOwner_ok (linkGone_ok (by split <;> simpa using h))

@[simp] theorem changeMode_ok {f0 : Base} {m : Mode} {cause : Nat} {d : Dev} (h : okH f0 (hard d)) :
    okH f0 (hard (changeMode m cause d)) := by
  unfold changeMode
  split
  · exact h
  · split
    · simpa using h
    · split
      · exact watchOwner_ok (foldl_ok _ (fun _ _ k => hostDown_ok k) _ _ (by simpa using h))
      · simp only [hard_mk]; simpa using h
      · simpa using h

@[simp] theorem arbitrate_ok {f0 : Base} {d : Dev} (h : okH f0 (hard d)) :
    okH f0 (hard ((arbitrate d).2)) := by
  unfold arbitrate; split
  · exact h
  · exact changeMode_ok (by simpa using h)

/-- A device whose tables of functions, ports and connections are empty. -/
theorem okH.empty {f0 : Base} {d e : Dev} (h : okH f0 (hard d)) (hf : e.fuse = d.fuse) (hs : pins e.strap = pins d.strap)
    (ha : e.isl.acked = d.isl.acked) (he : (e.regs, e.stg, e.fns, e.hp, e.ports, e.xpt.conns) = ([], [], [], [], [], [])) :
    okH f0 (hard e) := by
  simp only [Prod.mk.injEq] at he
  obtain ⟨a, b, c, g, i, j⟩ := he
  refine h.regs hf hs ?_ ?_ ha fun _ => ?_
  · rw [a]; exact .nil
  · rw [b]; exact .nil
  · simp only [ordered, c, g, i, j]; exact ⟨.nil, .nil, .nil, .nil⟩

@[simp] theorem bootStart_ok {f0 : Base} {recovery : Bool} {d : Dev} (h : okH f0 (hard d)) :
    okH f0 (hard (bootStart recovery d)) := by
  unfold bootStart; dsimp only; (repeat' split) <;> exact h

/-- A power-on reset samples ROLE_SEL and BOOT_SRC. -/
theorem powerOn_ok {f0 : Base} {role bootSrc : BitVec 2} {recovery : Bool} {d : Dev} (h : okH f0 (hard d)) (hn : f0.2.1 = none) :
    okH f0 (hard (powerOn role bootSrc recovery d)) := by
  have k : okH f0 (hard { wiped d with isl := { (wiped d).isl with acc := [] } }) := h.empty rfl rfl rfl rfl
  unfold powerOn; dsimp only
  exact bootStart_ok ⟨k.1, (by simp [hn]), k.2.2⟩

@[simp] theorem deviceReset_ok {f0 : Base} {recovery : Bool} {d : Dev} (h : okH f0 (hard d)) :
    okH f0 (hard (deviceReset recovery d)) := by
  have k : okH f0 (hard (flushTaps d)) := by simp [h]
  unfold deviceReset; dsimp only
  exact bootStart_ok (k.empty rfl rfl rfl rfl)

@[simp] theorem ownReset_ok {f0 : Base} {d : Dev} (h : okH f0 (hard d)) : okH f0 (hard (ownReset d)) := by
  unfold ownReset; exact deviceReset_ok (by simpa using h)

@[simp] theorem holdReset_ok {f0 : Base} {d : Dev} (h : okH f0 (hard d)) : okH f0 (hard (holdReset d)) :=
  h.empty rfl rfl rfl rfl

@[simp] theorem slotVerified_ok {f0 : Base} {d : Dev} (h : okH f0 (hard d)) :
    okH f0 (hard (slotVerified d)) := by
  unfold slotVerified; dsimp only; (repeat' split) <;> simp [h]

@[simp] theorem loadCal_ok {f0 : Base} {d : Dev} (h : okH f0 (hard d)) :
    okH f0 (hard (loadCal d)) := by
  unfold loadCal; generalize List.range 36 = l; dsimp only; split
  · refine foldl_ok _ (fun e i q => ?_) l d h
    exact okH.regs (e := { e with regs := _ }) q rfl rfl (tput_rising _ _ _ q.regs_rising) q.stg_rising
  · exact h

@[simp] theorem loadBoard_ok {f0 : Base} {d : Dev} (h : okH f0 (hard d)) :
    okH f0 (hard (loadBoard d)) := by
  unfold loadBoard; dsimp only
  refine loadCal_ok ?_
  simp only [hard_mk]
  rw [foldl_hard _ (fun d p => by simp)]; exact h

@[simp] theorem bootDone_ok {f0 : Base} {d : Dev} (h : okH f0 (hard d)) :
    okH f0 (hard (bootDone d)) := by
  have t : ∀ e : Dev, okH f0 (hard e) → ∀ (l : List Nat) (v : Boot) (m : Mode),
      okH f0 (hard (l.foldl (fun d p => startTraining p d) { e with mode := m, boot := v })) := by
    intro e q l v m
    rw [foldl_hard _ (fun d p => by simp)]; exact q
  have s : ∀ e : Dev, okH f0 (hard e) →
      okH f0 (hard (if roleManager e && e.mode = .configure then changeMode .manager 0 e else e)) := by
    intro e k; split
    · exact changeMode_ok k
    · exact k
  unfold bootDone; split
  · exact h
  · have q := loadBoard_ok h
    generalize loadBoard d = e at q ⊢
    generalize allPorts = l
    dsimp only
    have r : okH f0 (hard (if e.boot.service then e else bootRecord (slotPref e) 0 e)) := by
      split
      · exact q
      · rw [bootRecord_hard]; exact q
    generalize (if e.boot.service then e else bootRecord (slotPref e) 0 e) = g at r ⊢
    exact s _ (t g r l _ _)

@[simp] theorem fwCmd_ok {f0 : Base} {c : Nat} {d : Dev} (h : okH f0 (hard d)) :
    okH f0 (hard (fwCmd c d)) := by
  unfold fwCmd; (repeat' split)
  · simp [h]
  · simp [h]
  · rw [setAct_hard]
    obtain ⟨⟨h1, h2⟩, h3⟩ := h
    refine ⟨⟨Nat.le_trans h1 (Nat.le_max_left _ _), ?_⟩, h3⟩
    simp only [hard] at h2 ⊢
    rw [h2]
  · exact h

@[simp] theorem fwCtlReg_ok {f0 : Base} {w : Wr} {d : Dev} (h : okH f0 (hard d)) :
    okH f0 (hard (fwCtlReg w d)) := by
  unfold fwCtlReg; dsimp only; (repeat' split) <;> simp [h]

@[simp] theorem stageReg_ok {f0 : Base} {off : Nat} {w : Wr} {d : Dev} (h : okH f0 (hard d)) :
    okH f0 (hard (stageReg off w d)) := by
  unfold stageReg; split
  · exact h.regs rfl rfl h.regs_rising (tput_rising _ _ _ h.stg_rising)
  · exact h

@[simp] theorem storeReg_ok {f0 : Base} {off : Nat} {w : Wr} {d : Dev} (h : okH f0 (hard d)) :
    okH f0 (hard (storeReg off w d)) := by
  unfold storeReg; dsimp only; (repeat' split) <;> simp [h]

@[simp] theorem portCtlWrite_ok {f0 : Base} {p : Nat} {w : Wr} {d : Dev} (h : okH f0 (hard d)) :
    okH f0 (hard (portCtlWrite p w d)) := by
  unfold portCtlWrite; simp [h]

@[simp] theorem fltRegWrite_ok {f0 : Base} {off : Nat} {w : Wr} {d : Dev} (h : okH f0 (hard d)) :
    okH f0 (hard (fltRegWrite off w d)) := by
  unfold fltRegWrite; dsimp only; (repeat' split) <;> simp [h]

@[simp] theorem crcCtlWrite_ok {f0 : Base} {w : Wr} {d : Dev} (h : okH f0 (hard d)) :
    okH f0 (hard (crcCtlWrite w d)) := by
  unfold crcCtlWrite; dsimp only; (repeat' split) <;> simp [h]

@[simp] theorem cfgRegWrite_ok {f0 : Base} {off : Nat} {w : Wr} {d : Dev} (h : okH f0 (hard d)) :
    okH f0 (hard (cfgRegWrite off w d)) := by
  unfold cfgRegWrite; dsimp only; (repeat' split) <;> simp [h]

@[simp] theorem regAction_ok {f0 : Base} {f : FnId} {off : Nat} {w : Wr} {d : Dev} (h : okH f0 (hard d)) :
    okH f0 (hard (regAction f off w d)) := by
  unfold regAction; dsimp only; (repeat' split) <;> simp [h]

theorem halfwise_ok {f0 : Base} {g : Wr → Dev → Dev} (k : ∀ w d, okH f0 (hard d) → okH f0 (hard (g w d))) (w : Wr) {d : Dev}
    (h : okH f0 (hard d)) : okH f0 (hard (halfwise g w d)) := by
  unfold halfwise; split
  · exact k _ _ (k _ _ h)
  · exact k _ _ h

theorem byHalves_ok {f0 : Base} {off : Nat} {g : Wr → Dev → Dev} (k : ∀ w d, okH f0 (hard d) → okH f0 (hard (g w d))) (w : Wr)
    {d : Dev} (h : okH f0 (hard d)) : okH f0 (hard (byHalves off g w d)) := by
  unfold byHalves; split
  · exact k _ _ h
  · exact halfwise_ok k w h

@[simp] theorem writeReg_ok {f0 : Base} {f : FnId} {off : Nat} {w : Wr} {d : Dev} (h : okH f0 (hard d)) :
    okH f0 (hard (writeReg f off w d)) :=
  byHalves_ok (fun _ _ k => regAction_ok k) w h

@[simp] theorem windowWrite_ok {f0 : Base} {m : Master} {off : Nat} {w : Wr} {d : Dev} (h : okH f0 (hard d)) :
    okH f0 (hard (windowWrite m off w d)) := by
  unfold windowWrite; (repeat' split)
  · exact h
  · exact writeReg_ok h
  · exact h

@[simp] theorem commitReg_ok {f0 : Base} {off : Nat} {d : Dev} (h : okH f0 (hard d)) :
    okH f0 (hard (commitReg off d)) := by
  unfold commitReg; split
  · have k : ∀ v, okH f0 (hard { d with
        regs := tput d.regs off v, stg := if tget d.stg off = some (snapOf d off) then tdel d.stg off else d.stg }) := by
      intro v
      refine h.regs rfl rfl (tput_rising _ _ _ h.regs_rising) ?_
      split
      · exact tdel_rising _ _ h.stg_rising
      · exact h.stg_rising
    dsimp only; split
    · exact k _
    · simp [k]
  · exact h

@[simp] theorem commitRegs_ok {f0 : Base} {b : Nat} {d : Dev} (h : okH f0 (hard d)) :
    okH f0 (hard (commitRegs b d)) := by
  unfold commitRegs; refine foldl_ok _ (fun d x h => ?_) _ _ h; (repeat' split) <;> simp [h]

@[simp] theorem commit0_ok {f0 : Base} {d : Dev} (h : okH f0 (hard d)) :
    okH f0 (hard (commit0 d)) := by
  unfold commit0; simp [h]

@[simp] theorem commit4_ok {f0 : Base} {d : Dev} (h : okH f0 (hard d)) :
    okH f0 (hard (commit4 d)) := by
  unfold commit4
  refine foldl_ok _ (fun e p k => ?_) _ _ (commitRegs_ok h)
  split
  · exact k
  · rw [portCommitted_hard]; exact k

@[simp] theorem commit6_ok {f0 : Base} {d : Dev} (h : okH f0 (hard d)) :
    okH f0 (hard (commit6 d)) := by
  have k := commitRegs_ok (b := 6) h
  unfold commit6
  generalize commitRegs 6 d = c at k ⊢
  refine foldl_ok _ (fun e p q => ?_) _ _ (by exact k)
  dsimp only
  split
  · split
    · rw [setGate_hard]; exact q
    · rw [noteWrite_hard, setGate_hard]; exact q
  · split
    · rw [setGate_hard]; exact q
    · exact q

@[simp] theorem commitAll_ok {f0 : Base} {n : Nat} {d : Dev} (h : okH f0 (hard d)) :
    okH f0 (hard (commitAll n d)) := by
  unfold commitAll; dsimp only
  have h0 : okH f0 (hard (if n.testBit 0 then commit0 d else d)) := by
    split
    · exact commit0_ok h
    · exact h
  generalize (if n.testBit 0 then commit0 d else d) = e at h0 ⊢
  have h4 : okH f0 (hard (if n.testBit 4 then commit4 e else e)) := by
    split
    · exact commit4_ok h0
    · exact h0
  split
  · exact commit6_ok h4
  · exact h4

@[simp] theorem evalCommit_ok {f0 : Base} {d : Dev} (h : okH f0 (hard d)) :
    okH f0 (hard (evalCommit d)) := by
  unfold evalCommit; dsimp only; (repeat' split) <;> simp [h]

@[simp] theorem sweepDone_ok {f0 : Base} {d : Dev} (h : okH f0 (hard d)) :
    okH f0 (hard (sweepDone d)) := by
  unfold sweepDone; split
  · exact h
  · dsimp only; simp only [crcCompare_hard]; split
    · exact h.regs rfl rfl (tput_rising _ _ _ h.regs_rising) h.stg_rising
    · exact h.regs rfl rfl h.regs_rising h.stg_rising

@[simp] theorem cmdEntries_ok {f0 : Base} (m : Dev) :
    ∀ (n : Nat) (c : CmdRun) (d : Dev), okH f0 (hard d) → okH f0 (hard (cmdEntries m n c d)) := by
  intro n
  induction n with
  | zero => intro c d h; unfold cmdEntries; simpa using h
  | succ n ih =>
    intro c d h
    unfold cmdEntries
    dsimp only
    split
    · simpa using h
    · split
      · simpa using h
      · split
        · exact ih _ _ h
        · split
          · exact ih _ _ (by simpa using h)
          · split
            · simpa using h
            · split
              · have k := modeCtlWrite_hard (Wr.full (cmdEntry c.frame c.done).2.2) d
                split <;> rename_i q <;> rw [q] at k <;> dsimp only at k
                · rw [cmdEnd_hard, k]; exact h
                · rw [cmdHold_hard, k]; exact h
                · exact ih _ _ (by rw [k]; exact h)
              · split
                · rw [cmdHold_hard]; exact writeReg_ok h
                · exact ih _ _ (writeReg_ok h)

@[simp] theorem cmdBegin_ok {f0 : Base} {m : Dev} {c : CmdRun} {d : Dev} (h : okH f0 (hard d)) :
    okH f0 (hard (cmdBegin m c d)) := by
  unfold cmdBegin; simp; (repeat' split) <;> simp [h]

@[simp] theorem tickOwner_ok {f0 : Base} {d : Dev} (h : okH f0 (hard d)) :
    okH f0 (hard (tickOwner d)) := by
  unfold tickOwner; split
  · exact h
  · exact watchOwner_ok (by simpa using h)

/-- An admin command leaves true what its own step leaves true. -/
theorem admStep_tame {Q : HardT → Prop} {f : FnId} {e : Desc} {p : Perm} {body : FnId → Dev → AdmRes}
    (h : ∀ t d, Q (hard d) → Q (hard (body t d).dev)) {d : Dev} (k : Q (hard d)) : Q (hard (admStep f e p body d).dev) := by
  unfold admStep; dsimp only; (repeat' split)
  all_goals first
    | exact h _ _ k
    | exact k

theorem runAdmin_tame {Q : HardT → Prop} {i : Instr} {op : Nat} {p : Perm} {f : FnId} {e : Desc} {body : FnId → Dev → AdmRes}
    (h : ∀ t d, Q (hard d) → Q (hard (body t d).dev)) {d : Dev} (k : Q (hard d)) : Q (hard (runAdmin i op p f e body d)) := by
  unfold runAdmin
  split
  · exact k
  · split
    · split <;> simpa using k
    · have r := admStep_tame (f := f) (e := e) (p := p) h
        (d := updFn f (fun x => { x with admFetched := x.admFetched.drop 1 }) d) (by simpa using k)
      dsimp only
      split <;> rename_i q <;> rw [q] at r <;> simp at r <;> simpa using r

end Sys2Proof.Machine
end

