-- ==== Sys2Proof/Laws/Keeps.lean ====
section
/-!
SUPPORT. One lemma per command: it answers a next state and leaves the queue alone, and either changes no stored register, fuse, strap or
mirror, or keeps what the invariant says of them.
-/
namespace Sys2Proof.Machine

open Sys2Proof

/-- A command answers a next state, leaves the queue alone, leaves the mirrors alone or takes them anew, and keeps what okH says. -/
def Keeps (s : State) (o : Host.Outcome State Fault Refusal) : Prop :=
  ∃ t, o = .next t ∧ t.pending = s.pending ∧ (t.mir = s.mir ∨ t.mir = t.dev) ∧
    ∀ f0, okH f0 (hard s.dev) → okH f0 (hard t.dev)

/-- The same of a command that samples ROLE_SEL and BOOT_SRC. -/
def Samples (s : State) (o : Host.Outcome State Fault Refusal) : Prop :=
  ∃ t, o = .next t ∧ t.pending = s.pending ∧ (t.mir = s.mir ∨ t.mir = t.dev) ∧
    ∀ f0, f0.2.1 = none → okH f0 (hard s.dev) → okH f0 (hard t.dev)

/-- A command answers a next state that differs from the one before in no queue, mirror, fuse, strap or stored register. -/
def Stays (s : State) (o : Host.Outcome State Fault Refusal) : Prop :=
  ∃ t, o = .next t ∧ t.pending = s.pending ∧ t.mir = s.mir ∧ hard t.dev = hard s.dev

theorem Stays.keeps {s : State} {o : Host.Outcome State Fault Refusal} (h : Stays s o) : Keeps s o := by
  obtain ⟨t, a, b, c, e⟩ := h
  exact ⟨t, a, b, .inl c, fun f0 k => e ▸ k⟩

/-- A command answers a next state, leaves queue and mirrors alone, and leaves true what a later acknowledgement, and a table
that comes into its form, leave true. -/
def Firm (s : State) (o : Host.Outcome State Fault Refusal) : Prop :=
  ∃ t, o = .next t ∧ t.pending = s.pending ∧ t.mir = s.mir ∧ ∀ Q, Tame Q → Q (hard s.dev) → Q (hard t.dev)

theorem Firm.keeps {s : State} {o : Host.Outcome State Fault Refusal} (h : Firm s o) : Keeps s o := by
  obtain ⟨t, a, b, c, e⟩ := h
  exact ⟨t, a, b, .inl c, fun f0 k => e _ (okH_tame f0) k⟩

theorem Stays.firm {s : State} {o : Host.Outcome State Fault Refusal} (h : Stays s o) : Firm s o := by
  obtain ⟨t, a, b, c, e⟩ := h
  exact ⟨t, a, b, c, fun Q _ k => e ▸ k⟩

theorem lift_firm {g : Dev → Dev} {s : State} (h : ∀ Q, Tame Q → ∀ d, Q (hard d) → Q (hard (g d))) : Firm s (lift g s) := by
  refine ⟨_, rfl, rfl, rfl, fun Q q k => ?_⟩
  dsimp only
  split
  · exact k
  · rw [rest_hard]; exact h Q q _ k

theorem same_keeps (s : State) : Keeps s (.next s) := ⟨s, rfl, rfl, .inl rfl, fun _ h => h⟩

theorem lift_keeps {g : Dev → Dev} {s : State} (h : ∀ f0 d, okH f0 (hard d) → okH f0 (hard (g d))) : Keeps s (lift g s) := by
  refine ⟨_, rfl, rfl, .inl rfl, fun f0 k => ?_⟩
  dsimp only
  split
  · exact k
  · rw [rest_hard]; exact h f0 _ k

theorem lift0_keeps {g : Dev → Dev} {s : State} (h : ∀ f0 d, okH f0 (hard d) → okH f0 (hard (g d))) : Keeps s (lift0 g s) := by
  refine ⟨_, rfl, rfl, .inl rfl, fun f0 k => ?_⟩
  dsimp only
  split
  · exact k
  · exact h f0 _ k

theorem resetTo_keeps {g : Dev → Dev} {s : State} (h : ∀ f0 d, okH f0 (hard d) → okH f0 (hard (g d))) : Keeps s (resetTo g s) :=
  ⟨_, rfl, rfl, .inr rfl, fun f0 k => h f0 _ k⟩

/-- An access of the fabric manager waits its turn or has its effect. -/
theorem fabRow_keeps {m : Master} {i : Instr} {s : State} {out : Host.Outcome State Fault Refusal} (h : Keeps s out) :
    Keeps s (fabRow m i s out) := by
  unfold fabRow; split
  · exact ⟨_, rfl, rfl, .inl rfl, fun f0 k => by simpa using k⟩
  · exact h

theorem fabRow_stays {m : Master} {i : Instr} {s : State} {out : Host.Outcome State Fault Refusal} (h : Stays s out) :
    Stays s (fabRow m i s out) := by
  unfold fabRow; split
  · exact ⟨_, rfl, rfl, rfl, by simp⟩
  · exact h

theorem fabRow_firm {m : Master} {i : Instr} {s : State} {out : Host.Outcome State Fault Refusal} (h : Firm s out) :
    Firm s (fabRow m i s out) := by
  unfold fabRow; split
  · exact ⟨_, rfl, rfl, rfl, fun Q _ k => by simpa using k⟩
  · exact h

theorem same_stays (s : State) : Stays s (.next s) := ⟨s, rfl, rfl, rfl, rfl⟩

theorem lift_stays {g : Dev → Dev} {s : State} (h : ∀ (P : HardT → Prop) d, P (hard d) → P (hard (g d))) : Stays s (lift g s) := by
  refine ⟨_, rfl, rfl, rfl, ?_⟩
  dsimp only
  split
  · rfl
  · rw [rest_hard]; exact h (fun x => x = hard s.dev) _ rfl

theorem lift0_stays {g : Dev → Dev} {s : State} (h : ∀ (P : HardT → Prop) d, P (hard d) → P (hard (g d))) : Stays s (lift0 g s) := by
  refine ⟨_, rfl, rfl, rfl, ?_⟩
  dsimp only
  split
  · rfl
  · exact h (fun x => x = hard s.dev) _ rfl

theorem island_stays {g : Dev → Dev} {s : State} (h : ∀ (P : HardT → Prop) d, P (hard d) → P (hard (g d))) : Stays s (island g s) := by
  refine ⟨_, rfl, rfl, rfl, ?_⟩
  dsimp only
  split
  · rw [meterNotify_hard]; exact h (fun x => x = hard s.dev) _ rfl
  · rfl

theorem admin_stays {i : Instr} {op : Nat} {p : Perm} {f : FnId} {e : Desc} {body : FnId → Dev → AdmRes} {s : State}
    (h : ∀ t d, hard (body t d).dev = hard d) : Stays s (admin i op p f e body s) :=
  lift_stays fun f0 d k => by rw [runAdmin_hard h]; exact k

theorem smbRead_stays {c : Byte} {b : Dev → List Byte} {s : State} : Stays s (smbRead c b s) := lift0_stays fun f0 d k => by simpa using k

theorem spdm_stays {p : Fin 4} {q : SpdmReq} {b : Dev → List Byte} {s : State} : Stays s (spdm p q b s) :=
  lift0_stays fun f0 d k => by split <;> simpa using k

theorem jtag_stays {i : JtagIr} {s : State} : Stays s (jtag i s) := ⟨_, rfl, rfl, rfl, rfl⟩

theorem jtagAt_stays {i : JtagIr} {r : Bool} {s : State} : Stays s (jtagAt i r s) := ⟨_, rfl, rfl, rfl, rfl⟩

theorem arrive_stays {ok : Packet → Bool} {go : Packet → Dev → Dev} {p : Packet} {s : State}
    (h : ∀ p d, hard (go p d) = hard d) : Stays s (arrive ok go p s) :=
  lift_stays fun f0 d k => by
    split
    · rw [inkArrive_hard (h p)]; exact k
    · exact k

theorem arriveNib_stays {nt : Byte} {n : Nib} {go : Nat → Conn → Dev → Dev} {s : State}
    (h : ∀ n c d, hard (go n c d) = hard d) : Stays s (arriveNib nt n go s) :=
  lift_stays fun f0 d k => by
    dsimp only
    split
    · exact k
    · rw [inkArrive_hard (fun d => by (repeat' split) <;> simp [h])]; exact k

theorem onTree_stays {pt : Byte} {port : Fin 64} {p : TreePkt} {act : TreeWords → Dev → Dev} {s : State}
    (h : ∀ t d, hard (act t d) = hard d) : Stays s (onTree pt port p act s) :=
  lift_stays fun f0 d k => by
    split
    · rw [inkArrive_hard (fun d => treeArrive_hard _ _ _ h d)]; exact k
    · exact k

theorem readAnswer_stays {ok : Cont → Bool} {id : Nat} {data : List Byte} {s : State} : Stays s (readAnswer ok id data s) :=
  lift_stays fun f0 d k => by
    split
    · rename_i q
      have r := takeRead_hard q
      dsimp only at r
      (repeat' split) <;> simpa [r] using k
    · exact k

theorem walkAnswer_stays {mark : Bool} {id : Nat} {e : Word64} {s : State} : Stays s (walkAnswer mark id e s) :=
  lift_stays fun f0 d k => by
    split
    · rename_i q
      have r := takeRead_hard q
      dsimp only at r
      split
      · split
        · exact k
        · rename_i q2
          have r2 := takeWalk_hard q2
          dsimp only at r2
          split <;> simpa [r, r2] using k
      · exact k
    · exact k

theorem mtrWrite_stays {m : Master} {g : Isl → Isl} {s : State} (h : ∀ i, (g i).acked = i.acked) : Stays s (mtrWrite m g s) :=
  island_stays fun f0 d k => by split <;> simpa [updIsl_hard h] using k

theorem fwCtlRow_stays {c : Nat} {m : Master} {w : Wr} {s : State} : Stays s (fwCtlRow c m w s) := by
  unfold fwCtlRow; split
  · exact mtrWrite_stays (sealed_acked (fun i => by simp))
  · exact same_stays s

theorem execNop_stays (f : FnId) (sq : Fin 65536) (e : Desc) (s : State) :
    Stays s (execNop f sq e s) := by
  exact lift_stays fun f0 d h => by rw [startWork_hard _ _ _ _ _ (fun s d => by simp)]; exact h

theorem execPut_stays (f : FnId) (sq : Fin 65536) (e : Desc) (s : State) :
    Stays s (execPut f sq e s) := by
  exact lift_stays fun f0 d h => by rw [startWork_hard _ _ _ _ _ (fun s d => by simp)]; exact h

theorem execPutFlag_stays (f : FnId) (sq : Fin 65536) (e : Desc) (s : State) :
    Stays s (execPutFlag f sq e s) := by
  exact lift_stays fun f0 d h => by rw [startWork_hard _ _ _ _ _ (fun s d => by simp)]; exact h

theorem execGet_stays (f : FnId) (sq : Fin 65536) (e : Desc) (s : State) :
    Stays s (execGet f sq e s) := by
  exact lift_stays fun f0 d h => by rw [startWork_hard _ _ _ _ _ (fun s d => by simp)]; exact h

theorem execAtomic_stays (f : FnId) (sq : Fin 65536) (e : Desc) (s : State) :
    Stays s (execAtomic f sq e s) := by
  exact lift_stays fun f0 d h => by rw [startWork_hard _ _ _ _ _ (fun s d => by simp)]; exact h

theorem execSendTagged_stays (f : FnId) (sq : Fin 65536) (e : Desc) (s : State) :
    Stays s (execSendTagged f sq e s) := by
  exact lift_stays fun f0 d h => by rw [startWork_hard _ _ _ _ _ (fun s d => by simp)]; exact h

theorem execPostRecv_stays (f : FnId) (sq : Fin 65536) (e : Desc) (s : State) :
    Stays s (execPostRecv f sq e s) := by
  exact lift_stays fun f0 d h => by rw [startWork_hard _ _ _ _ _ (fun s d => by simp)]; exact h

theorem execNote_stays (f : FnId) (sq : Fin 65536) (e : Desc) (s : State) :
    Stays s (execNote f sq e s) := by
  exact lift_stays fun f0 d h => by rw [startWork_hard _ _ _ _ _ (fun s d => by simp)]; exact h

theorem execColl_stays (f : FnId) (sq : Fin 65536) (e : Desc) (s : State) :
    Stays s (execColl f sq e s) := by
  exact lift_stays fun f0 d h => by rw [startWork_hard _ _ _ _ _ (fun s d => by simp)]; exact h

theorem execFence_stays (f : FnId) (sq : Fin 65536) (e : Desc) (s : State) :
    Stays s (execFence f sq e s) := by
  exact lift_stays fun f0 d h => by rw [startWork_hard _ _ _ _ _ (fun s d => by simp)]; exact h

theorem execPutPacket_stays (p : Packet) (s : State) :
    Stays s (execPutPacket p s) := by
  exact arrive_stays fun p d => by simp

theorem execPutFlagPacket_stays (p : Packet) (s : State) :
    Stays s (execPutFlagPacket p s) := by
  exact arrive_stays fun p d => by simp

theorem execGetReq_stays (p : Packet) (s : State) :
    Stays s (execGetReq p s) := by
  exact arrive_stays fun p d => by simp

theorem execGetResp_stays (p : Packet) (s : State) :
    Stays s (execGetResp p s) := by
  exact arrive_stays fun p d => by simp

theorem execAtomicReq_stays (p : Packet) (s : State) :
    Stays s (execAtomicReq p s) := by
  exact arrive_stays fun p d => by simp

theorem execSendPacket_stays (p : Packet) (s : State) :
    Stays s (execSendPacket p s) := by
  exact arrive_stays fun p d => by simp

theorem execRendezvousFinish_stays (p : Packet) (s : State) :
    Stays s (execRendezvousFinish p s) := by
  exact arrive_stays fun p d => by simp

theorem execNotePacket_stays (p : Packet) (s : State) :
    Stays s (execNotePacket p s) := by
  exact arrive_stays fun p d => by simp

theorem execAck_stays (m : Nib) (s : State) :
    Stays s (execAck m s) := by
  exact arriveNib_stays fun n c d => by rw [onCover_hard _ _ _ _ (fun k d => by simp)]

theorem execNak_stays (m : Nib) (s : State) :
    Stays s (execNak m s) := by
  exact arriveNib_stays fun n c d => by rw [onCover_hard _ _ _ _ (fun k d => by simp)]

theorem execRnrNak_stays (m : Nib) (s : State) :
    Stays s (execRnrNak m s) := by
  exact arriveNib_stays fun n c d => by rw [onCover_hard _ _ _ _ (fun k d => by simp)]

theorem execAccessNak_stays (m : Nib) (s : State) :
    Stays s (execAccessNak m s) := by
  exact arriveNib_stays fun n c d => by simp

theorem execAtomicResp_stays (m : Nib) (s : State) :
    Stays s (execAtomicResp m s) := by
  exact arriveNib_stays fun n c d => by simp

theorem execConnReset_stays (m : Nib) (s : State) :
    Stays s (execConnReset m s) := by
  exact arriveNib_stays fun n c d => by simp

theorem execFuncReset_stays (m : Nib) (s : State) :
    Stays s (execFuncReset m s) := by
  exact arriveNib_stays fun n c d => by simp

theorem execDestDown_stays (m : Nib) (s : State) :
    Stays s (execDestDown m s) := by
  exact arriveNib_stays fun n c d => by simp

theorem execRetransmitTimeout_stays (n : Psn) (s : State) :
    Stays s (execRetransmitTimeout n s) := by
  exact lift_stays fun f0 d h => by (repeat' split) <;> simpa using h

theorem execRnrWaitEnd_stays (n : Psn) (s : State) :
    Stays s (execRnrWaitEnd n s) := by
  exact lift_stays fun f0 d h => by (repeat' split) <;> simpa using h

theorem execAckTimer_stays (n : Psn) (s : State) :
    Stays s (execAckTimer n s) := by
  exact lift_stays fun f0 d h => by (repeat' split) <;> simpa using h

theorem execContextFetchDone_stays (n : Psn) (s : State) :
    Stays s (execContextFetchDone n s) := by
  exact lift_stays fun f0 d h => by
    dsimp only
    split
    · exact h
    · rw [foldl_hard]
      · simp; exact h
      · intro d p; (repeat' split) <;> simp

theorem execContextWriteoutDone_stays (n : Psn) (s : State) :
    Stays s (execContextWriteoutDone n s) := by
  exact lift_stays fun f0 d h => by dsimp only; (repeat' split) <;> simpa using h

theorem execMissWaitTimeout_stays (n : Psn) (s : State) :
    Stays s (execMissWaitTimeout n s) := by
  exact lift_stays fun f0 d h => by dsimp only; (repeat' split) <;> simpa using h

theorem execPayloadReadDone_stays (id : Nat) (data : List Byte) (s : State) :
    Stays s (execPayloadReadDone id data s) := by
  exact readAnswer_stays

theorem execGetTargetReadDone_stays (id : Nat) (data : List Byte) (s : State) :
    Stays s (execGetTargetReadDone id data s) := by
  exact readAnswer_stays

theorem execAtomicTargetReadDone_stays (id : Nat) (w : Word64) (s : State) :
    Stays s (execAtomicTargetReadDone id w s) := by
  exact readAnswer_stays

theorem execTreeContribReadDone_stays (id : Nat) (data : List Byte) (s : State) :
    Stays s (execTreeContribReadDone id data s) := by
  exact readAnswer_stays

theorem execWalkReadResponse_stays (id : Nat) (e : Word64) (s : State) :
    Stays s (execWalkReadResponse id e s) := by
  exact walkAnswer_stays

theorem execMarkRereadResponse_stays (id : Nat) (e : Word64) (s : State) :
    Stays s (execMarkRereadResponse id e s) := by
  exact walkAnswer_stays

theorem execHostReadFailure_stays (id : Nat) (aer : Fin 32) (s : State) :
    Stays s (execHostReadFailure id aer s) := by
  exact lift_stays fun f0 d h => by simpa using h

theorem execPcieCompletionTimeout_stays (id : Nat) (s : State) :
    Stays s (execPcieCompletionTimeout id s) := by
  exact lift_stays fun f0 d h => by simpa using h

theorem execTlpDiscard_stays (p : Fin 4) (aer : Fin 32) (s : State) :
    Stays s (execTlpDiscard p aer s) := by
  exact lift0_stays fun f0 d h => by simpa using h

theorem execTreeUp_stays (port : Fin 64) (p : TreePkt) (s : State) :
    Stays s (execTreeUp port p s) := by
  exact onTree_stays fun t d => by simp

theorem execTreeDown_stays (port : Fin 64) (p : TreePkt) (s : State) :
    Stays s (execTreeDown port p s) := by
  exact onTree_stays fun t d => by simp

theorem execUpCredit_stays (port : Fin 64) (p : TreePkt) (s : State) :
    Stays s (execUpCredit port p s) := by
  exact onTree_stays fun t d => by simp

theorem execDownCredit_stays (port : Fin 64) (p : TreePkt) (s : State) :
    Stays s (execDownCredit port p s) := by
  exact onTree_stays fun t d => by simp

theorem execTreeAck_stays (port : Fin 64) (p : TreePkt) (s : State) :
    Stays s (execTreeAck port p s) := by
  exact onTree_stays fun t d => by rw [withOp_hard (fun o d => by simp)]

theorem execTreeDone_stays (port : Fin 64) (p : TreePkt) (s : State) :
    Stays s (execTreeDone port p s) := by
  exact onTree_stays fun t d => by rw [withOp_hard (fun o d => by simp)]

theorem execTreeAbort_stays (port : Fin 64) (p : TreePkt) (s : State) :
    Stays s (execTreeAbort port p s) := by
  exact onTree_stays fun t d => by simp

theorem execTreeTimeout_stays (tree : BitVec 14) (s : State) :
    Stays s (execTreeTimeout tree s) := by
  exact lift_stays fun f0 d h => by simpa using h

theorem execStagedCopyDone_stays (id : Nat) (s : State) :
    Stays s (execStagedCopyDone id s) := by
  exact lift_stays fun f0 d h => by (repeat' split) <;> simpa using h

theorem execSqDoorbell_stays (f : FnId) (n : Fin 65536) (w : Wr) (s : State) :
    Stays s (execSqDoorbell f n w s) := by
  exact lift_stays fun f0 d h => by (repeat' split) <;> simpa using h

theorem execAqDb_stays (f : FnId) (w : Wr) (s : State) :
    Stays s (execAqDb f w s) := by
  exact lift_stays fun f0 d h => by dsimp only; (repeat' split) <;> simpa using h

theorem execAcqDb_stays (f : FnId) (w : Wr) (s : State) :
    Stays s (execAcqDb f w s) := by
  exact lift_stays fun f0 d h => by (repeat' split) <;> simpa using h

theorem execCqDoorbell_stays (f : FnId) (n : Fin 65536) (w : Wr) (s : State) :
    Stays s (execCqDoorbell f n w s) := by
  exact lift_stays fun f0 d h => by (repeat' split) <;> simpa using h

theorem execEqDoorbell_stays (f : FnId) (n : Fin 4096) (w : Wr) (s : State) :
    Stays s (execEqDoorbell f n w s) := by
  exact lift_stays fun f0 d h => by (repeat' split) <;> simpa using h

theorem execAqCfgWrite_stays (f : FnId) (w : Wr) (s : State) :
    Stays s (execAqCfgWrite f w s) := by
  exact lift0_stays fun f0 d h => by simpa using h

theorem execAcqCfgWrite_stays (f : FnId) (w : Wr) (s : State) :
    Stays s (execAcqCfgWrite f w s) := by
  exact lift0_stays fun f0 d h => by simpa using h

theorem execDescriptorFetch_stays (f : FnId) (r : RingRef) (res : List FetchRes) (s : State) :
    Stays s (execDescriptorFetch f r res s) := by
  exact lift_stays fun f0 d h => by dsimp only; (repeat' split) <;> simpa using h

theorem execCqStallTimeout_stays (f : FnId) (n : Fin 65536) (s : State) :
    Stays s (execCqStallTimeout f n s) := by
  exact lift_stays fun f0 d h => by (repeat' split) <;> simpa using h

theorem execCoalTimeExpiry_stays (f : FnId) (n : Fin 65536) (s : State) :
    Stays s (execCoalTimeExpiry f n s) := by
  exact lift_stays fun f0 d h => by (repeat' split) <;> simpa using h

theorem execCreateSq_stays (f : FnId) (e : Desc) (s : State) :
    Stays s (execCreateSq f e s) := by
  exact admin_stays fun t d => by dsimp only; refine guard_hard ?_; simp

theorem execDestroySq_stays (f : FnId) (e : Desc) (s : State) :
    Stays s (execDestroySq f e s) := by
  exact admin_stays fun t d => by dsimp only; (repeat' split) <;> simp

theorem execCreateCq_stays (f : FnId) (e : Desc) (s : State) :
    Stays s (execCreateCq f e s) := by
  exact admin_stays fun t d => by dsimp only; refine guard_hard ?_; simp

theorem execDestroyCq_stays (f : FnId) (e : Desc) (s : State) :
    Stays s (execDestroyCq f e s) := by
  exact admin_stays fun t d => by dsimp only; refine guard_hard ?_; simp

theorem execCreateEq_stays (f : FnId) (e : Desc) (s : State) :
    Stays s (execCreateEq f e s) := by
  exact admin_stays fun t d => by dsimp only; refine guard_hard ?_; simp

theorem execDestroyEq_stays (f : FnId) (e : Desc) (s : State) :
    Stays s (execDestroyEq f e s) := by
  exact admin_stays fun t d => by dsimp only; refine guard_hard ?_; simp

theorem execSubscribeEvents_stays (f : FnId) (e : Desc) (s : State) :
    Stays s (execSubscribeEvents f e s) := by
  exact admin_stays fun t d => by dsimp only; refine guard_hard ?_; simp

theorem execQueryQueue_stays (f : FnId) (e : Desc) (s : State) :
    Stays s (execQueryQueue f e s) := by
  exact admin_stays fun t d => by dsimp only; (repeat' split) <;> simp

theorem execCreateConn_stays (f : FnId) (e : Desc) (s : State) :
    Stays s (execCreateConn f e s) := by
  exact admin_stays fun t d => by dsimp only; (repeat' split) <;> simp

theorem execDestroyConn_firm (f : FnId) (e : Desc) (s : State) : Firm s (execDestroyConn f e s) := by
  refine lift_firm fun Q q d k => ?_
  refine runAdmin_tame (fun t d k => ?_) k
  dsimp only
  split
  · simpa using k
  · split
    · refine releaseConn_tame q ?_
      split <;> simpa using k
    · simpa using k

theorem execModifyConn_stays (f : FnId) (e : Desc) (s : State) :
    Stays s (execModifyConn f e s) := by
  exact admin_stays fun t d => by dsimp only; (repeat' split) <;> simp

theorem execCreateMatchCtx_stays (f : FnId) (e : Desc) (s : State) :
    Stays s (execCreateMatchCtx f e s) := by
  exact admin_stays fun t d => by dsimp only; (repeat' split) <;> simp

theorem execDestroyMatchCtx_stays (f : FnId) (e : Desc) (s : State) :
    Stays s (execDestroyMatchCtx f e s) := by
  exact admin_stays fun t d => by dsimp only; (repeat' split) <;> simp

theorem execRegisterRegion_stays (f : FnId) (e : Desc) (s : State) :
    Stays s (execRegisterRegion f e s) := by
  exact admin_stays fun t d => by dsimp only; (repeat' split) <;> simp

theorem execDeregisterRegion_stays (f : FnId) (e : Desc) (s : State) :
    Stays s (execDeregisterRegion f e s) := by
  exact admin_stays fun t d => by
    dsimp only
    split
    · rfl
    · simp only [AdmRes.dev_later]; rw [foldl_hard _ (fun d a => by simp)]; simp

theorem execDeregisterRegionDone_stays (f : FnId) (s : State) :
    Stays s (execDeregisterRegionDone f s) := by
  exact lift_stays fun f0 d h => by rw [admDone_hard (fun w d => by simp)]; exact h

theorem execSetTranslationRoot_stays (f : FnId) (e : Desc) (s : State) :
    Stays s (execSetTranslationRoot f e s) := by
  exact admin_stays fun t d => by dsimp only; refine guard_hard ?_; simp

theorem execSetTranslationRootDone_stays (f : FnId) (s : State) :
    Stays s (execSetTranslationRootDone f s) := by
  exact lift_stays fun f0 d h => by rw [admDone_hard (fun w d => by simp)]; exact h

theorem execInvalidate_stays (f : FnId) (e : Desc) (s : State) :
    Stays s (execInvalidate f e s) := by
  exact lift_stays fun f0 d h => by
    rw [runAdmin_hard]
    · exact h
    · intro t d; dsimp only; refine guard_hard ?_; simp

theorem execInvalidateDone_stays (f : FnId) (s : State) :
    Stays s (execInvalidateDone f s) := by
  exact lift_stays fun f0 d h => by rw [admDone_hard (fun w d => by simp)]; exact h

theorem execResumeMark_stays (f : FnId) (e : Desc) (s : State) :
    Stays s (execResumeMark f e s) := by
  exact admin_stays fun t d => by
    dsimp only
    split
    · rfl
    · simp only [say_dev]
      rw [foldl_hard _ (fun d a => by split <;> simp)]; simp

theorem execJoinTree_stays (f : FnId) (e : Desc) (s : State) :
    Stays s (execJoinTree f e s) := by
  exact admin_stays fun t d => by dsimp only; refine guard_hard ?_; simp

theorem execLeaveTree_stays (f : FnId) (e : Desc) (s : State) :
    Stays s (execLeaveTree f e s) := by
  exact admin_stays fun t d => by dsimp only; (repeat' split) <;> simp

theorem execSetShaper_stays (f : FnId) (e : Desc) (s : State) :
    Stays s (execSetShaper f e s) := by
  exact admin_stays fun t d => by dsimp only; (repeat' split) <;> simp

theorem execSetPolicer_stays (f : FnId) (e : Desc) (s : State) :
    Stays s (execSetPolicer f e s) := by
  exact admin_stays fun t d => by dsimp only; (repeat' split) <;> simp

theorem execOwnerCtlWrite_keeps (m : Master) (w : Wr) (s : State) :
    Keeps s (execOwnerCtlWrite m w s) := by
  refine fabRow_keeps ?_
  exact lift0_keeps fun f0 d h => by (repeat' split) <;> simp [h]

theorem execFunctionLevelReset_keeps (f : FnId) (s : State) :
    Keeps s (execFunctionLevelReset f s) := by
  exact lift_keeps fun f0 d h => by
    split
    · exact h
    · refine watchOwner_ok ?_
      split
      · rw [clearPortCfg_hard]; exact resetPort_ok h
      · exact resetOne_ok h

theorem execFlrComplete_stays (f : FnId) (s : State) :
    Stays s (execFlrComplete f s) := by
  exact lift_stays fun f0 d h => by simpa using h

theorem execVfDisable_firm (p : Fin 4) (num : Fin 256) (en : Bool) (s : State) : Firm s (execVfDisable p num en s) := by
  refine lift_firm fun Q q d k => ?_
  dsimp only
  rw [updHp_hard]
  exact foldl_tame _ (fun d f k => resetOne_tame q k) _ _ k

theorem execVfTeardownDone_stays (f : FnId) (s : State) :
    Stays s (execVfTeardownDone f s) := by
  exact lift_stays fun f0 d h => by simpa using h

theorem execHostLinkDown_keeps (p : Fin 4) (s : State) :
    Keeps s (execHostLinkDown p s) := by
  exact lift_keeps fun f0 d h => hostDown_ok h

theorem execHostPortReset_keeps (p : Fin 4) (s : State) :
    Keeps s (execHostPortReset p s) := by
  exact lift_keeps fun f0 d h => watchOwner_ok (linkGone_ok h)

theorem execHostLinkUp_stays (p : Fin 4) (s : State) :
    Stays s (execHostLinkUp p s) := by
  exact lift0_stays fun f0 d h => by simpa using h

theorem execPcieConfigWrite_keeps (f : FnId) (c : CfgWr) (s : State) :
    Keeps s (execPcieConfigWrite f c s) := by
  exact lift_keeps fun f0 d h => by (repeat' split) <;> simp [h]

theorem execParkFunction_stays (f : FnId) (e : Desc) (s : State) :
    Stays s (execParkFunction f e s) := by
  exact admin_stays fun t d => by dsimp only; (repeat' split) <;> simp

theorem execParkFunctionDone_stays (f : FnId) (s : State) :
    Stays s (execParkFunctionDone f s) := by
  exact lift_stays fun f0 d h => by
    rw [admDone_hard]
    · exact h
    · intro w d; dsimp only; split
      · rfl
      · simp [foldl_hard]

theorem execUnparkFunction_stays (f : FnId) (e : Desc) (s : State) :
    Stays s (execUnparkFunction f e s) := by
  exact admin_stays fun t d => by (repeat' split) <;> simp

theorem execUnparkFunctionDone_stays (f : FnId) (crcOk : Bool) (s : State) :
    Stays s (execUnparkFunctionDone f crcOk s) := by
  exact lift_stays fun f0 d h => by
    rw [admDone_hard]
    · exact h
    · intro w d; dsimp only; (repeat' split) <;> simp

theorem execSetFuncDomain_stays (f : FnId) (e : Desc) (s : State) :
    Stays s (execSetFuncDomain f e s) := by
  exact admin_stays fun t d => by split <;> simp

theorem execSetFuncQuota_stays (f : FnId) (e : Desc) (q : QuotaArg) (s : State) :
    Stays s (execSetFuncQuota f e q s) := by
  exact admin_stays fun t d => by simp

theorem execQueryFunc_stays (f : FnId) (e : Desc) (s : State) :
    Stays s (execQueryFunc f e s) := by
  exact admin_stays fun t d => by
    simp [freeResults]

theorem execIdentify_stays (f : FnId) (e : Desc) (s : State) :
    Stays s (execIdentify f e s) := by
  exact admin_stays fun t d => by
    simp [freeResults]

theorem execFrameLockGained_stays (p : Fin 64) (j : Fin 2) (before : List Mark) (last : Mark) (s : State) :
    Stays s (execFrameLockGained p j before last s) := by
  exact lift_stays fun f0 d h => by dsimp only; (repeat' split) <;> simpa using h

theorem execFrameLockLost_stays (x : LockLoss) (s : State) :
    Stays s (execFrameLockLost x s) := by
  exact lift0_stays fun f0 d h => by simpa using h

theorem execFrameLockTimeout_stays (p : Fin 64) (s : State) :
    Stays s (execFrameLockTimeout p s) := by
  exact lift_stays fun f0 d h => by simpa using h

theorem execTrainLockTimeout_stays (p : Fin 64) (j : Fin 2) (s : State) :
    Stays s (execTrainLockTimeout p j s) := by
  exact lift_stays fun f0 d h => by simpa using h

theorem execRateLockTimeout_stays (p : Fin 64) (s : State) :
    Stays s (execRateLockTimeout p s) := by
  exact lift_stays fun f0 d h => by simpa using h

theorem execPortDownDwellEnd_stays (p : Fin 64) (s : State) :
    Stays s (execPortDownDwellEnd p s) := by
  exact lift_stays fun f0 d h => by simpa using h

theorem execLaneSignalLoss_stays (p : Fin 64) (j : Fin 2) (lol : Bool) (s : State) :
    Stays s (execLaneSignalLoss p j lol s) := by
  exact lift_stays fun f0 d h => by simpa using h

theorem execLaneHealthWindow_stays (p : Fin 64) (j : Fin 2) (sym unc bip : Nat) (s : State) :
    Stays s (execLaneHealthWindow p j sym unc bip s) := by
  exact lift_stays fun f0 d h => by simpa using h

theorem execLaneRestoreTimer_stays (p : Fin 64) (j : Fin 2) (s : State) :
    Stays s (execLaneRestoreTimer p j s) := by
  exact lift_stays fun f0 d h => by simpa using h

theorem execLaneSoakEnd_stays (p : Fin 64) (j : Fin 2) (s : State) :
    Stays s (execLaneSoakEnd p j s) := by
  exact lift_stays fun f0 d h => by simpa using h

theorem execLinkHello_stays (p : Fin 64) (m : LinkMsg) (s : State) :
    Stays s (execLinkHello p m s) := by
  exact lift_stays fun f0 d h => by
    rw [onLink_hard (fun d => by simp)]; exact h

theorem execLinkHelloTimer_stays (p : Fin 64) (s : State) :
    Stays s (execLinkHelloTimer p s) := by
  exact lift0_stays fun f0 d h => by simpa using h

theorem execChangeReq_stays (p : Fin 64) (m : LinkMsg) (s : State) :
    Stays s (execChangeReq p m s) := by
  exact lift_stays fun f0 d h => by rw [onLink_hard (fun d => by simp)]; exact h

theorem execChangeAck_stays (p : Fin 64) (m : LinkMsg) (s : State) :
    Stays s (execChangeAck p m s) := by
  exact lift_stays fun f0 d h => by rw [onLink_hard (fun d => by simp)]; exact h

theorem execChangeGo_stays (p : Fin 64) (m : LinkMsg) (s : State) :
    Stays s (execChangeGo p m s) := by
  exact lift_stays fun f0 d h => by rw [onLink_hard (fun d => by simp)]; exact h

theorem execChangeBusy_stays (p : Fin 64) (m : LinkMsg) (s : State) :
    Stays s (execChangeBusy p m s) := by
  exact lift0_stays fun f0 d h => by
    rw [onLink_hard (fun d => by dsimp only; (repeat' split) <;> simp)]; exact h

theorem execChangeBusyWaitEnd_stays (p : Fin 64) (s : State) :
    Stays s (execChangeBusyWaitEnd p s) := by
  exact lift_stays fun f0 d h => by simpa using h

theorem execChangeDone_stays (p : Fin 64) (m : LinkMsg) (s : State) :
    Stays s (execChangeDone p m s) := by
  exact lift_stays fun f0 d h => by rw [onLink_hard (fun d => by simp)]; exact h

theorem execChangeReqTimeout_stays (p : Fin 64) (s : State) :
    Stays s (execChangeReqTimeout p s) := by
  exact lift_stays fun f0 d h => by dsimp only; (repeat' split) <;> simpa using h

theorem execLinkMode_stays (p : Fin 64) (m : LinkMsg) (s : State) :
    Stays s (execLinkMode p m s) := by
  exact lift_stays fun f0 d h => by
    rw [onLink_hard (fun d => by simp)]; exact h

theorem execPortEnable_keeps (m : Master) (p : Fin 64) (s : State) :
    Keeps s (execPortEnable m p s) := by
  refine fabRow_keeps ?_
  exact lift_keeps fun f0 d h => by (repeat' split) <;> simp [h]

theorem execPortDisable_keeps (m : Master) (p : Fin 64) (s : State) :
    Keeps s (execPortDisable m p s) := by
  refine fabRow_keeps ?_
  exact lift_keeps fun f0 d h => by (repeat' split) <;> simp [h]

theorem execNarrowLane0_stays (m : Master) (p : Fin 64) (s : State) :
    Stays s (execNarrowLane0 m p s) := by
  refine fabRow_stays ?_
  exact lift_stays fun f0 d h => by simpa using h

theorem execNarrowLane1_stays (m : Master) (p : Fin 64) (s : State) :
    Stays s (execNarrowLane1 m p s) := by
  refine fabRow_stays ?_
  exact lift_stays fun f0 d h => by simpa using h

theorem execWiden_stays (m : Master) (p : Fin 64) (s : State) :
    Stays s (execWiden m p s) := by
  refine fabRow_stays ?_
  exact lift_stays fun f0 d h => by simpa using h

theorem execRetrainLane0_stays (m : Master) (p : Fin 64) (s : State) :
    Stays s (execRetrainLane0 m p s) := by
  refine fabRow_stays ?_
  exact lift_stays fun f0 d h => by simpa using h

theorem execRetrainLane1_stays (m : Master) (p : Fin 64) (s : State) :
    Stays s (execRetrainLane1 m p s) := by
  refine fabRow_stays ?_
  exact lift_stays fun f0 d h => by simpa using h

theorem execPortRestart_stays (m : Master) (p : Fin 64) (s : State) :
    Stays s (execPortRestart m p s) := by
  refine fabRow_stays ?_
  exact lift_stays fun f0 d h => by simpa using h

theorem execRoutePacket_stays (ing : Fin 65) (it : Item) (resid : Nat) (s : State) :
    Stays s (execRoutePacket ing it resid s) := by
  exact lift_stays fun f0 d h => by simpa using h

theorem execPacketAgeExpiry_stays (it : Item) (s : State) :
    Stays s (execPacketAgeExpiry it s) := by
  exact lift0_stays fun f0 d h => by
    split
    · rename_i q; have r := dropWaiting_hard q; simpa [r] using h
    · exact h

theorem execNibStallDiscard_stays (p : Fin 64) (s : State) :
    Stays s (execNibStallDiscard p s) := by
  exact lift0_stays fun f0 d h => by dsimp only; (repeat' split) <;> simpa using h

theorem execArmA_keeps (m : Master) (w : Wr) (s : State) :
    Keeps s (execArmA m w s) := by
  refine fabRow_keeps ?_
  exact lift_keeps fun f0 d h => by (repeat' split) <;> simp [h]

theorem execArmB_keeps (m : Master) (w : Wr) (s : State) :
    Keeps s (execArmB m w s) := by
  refine fabRow_keeps ?_
  exact lift_keeps fun f0 d h => by (repeat' split) <;> simp [h]

theorem execRetireA_keeps (m : Master) (w : Wr) (s : State) :
    Keeps s (execRetireA m w s) := by
  refine fabRow_keeps ?_
  exact lift_keeps fun f0 d h => by (repeat' split) <;> simp [h]

theorem execRetireB_keeps (m : Master) (w : Wr) (s : State) :
    Keeps s (execRetireB m w s) := by
  refine fabRow_keeps ?_
  exact lift_keeps fun f0 d h => by (repeat' split) <;> simp [h]

theorem execStampWrite_keeps (m : Master) (w : Wr) (s : State) :
    Keeps s (execStampWrite m w s) := by
  refine fabRow_keeps ?_
  exact lift_keeps fun f0 d h => by (repeat' split) <;> simp [h]

theorem execTableRead_keeps (m : Master) (w : Wr) (s : State) :
    Keeps s (execTableRead m w s) := by
  refine fabRow_keeps ?_
  exact lift_keeps fun f0 d h => by (repeat' split) <;> simp [h]

theorem execTableWrite_keeps (m : Master) (w : Wr) (s : State) :
    Keeps s (execTableWrite m w s) := by
  refine fabRow_keeps ?_
  exact lift_keeps fun f0 d h => by (repeat' split) <;> simp [h]

theorem execForcedWrite_keeps (m : Master) (w : Wr) (s : State) :
    Keeps s (execForcedWrite m w s) := by
  refine fabRow_keeps ?_
  exact lift_keeps fun f0 d h => by (repeat' split) <;> simp [h]

theorem execRtCoordWrite_keeps (m : Master) (w : Wr) (s : State) :
    Keeps s (execRtCoordWrite m w s) := by
  refine fabRow_keeps ?_
  exact lift_keeps fun f0 d h => by (repeat' split) <;> simp [h]

theorem execRtHpDrainWrite_keeps (m : Master) (w : Wr) (s : State) :
    Keeps s (execRtHpDrainWrite m w s) := by
  refine fabRow_keeps ?_
  exact lift_keeps fun f0 d h => by (repeat' split) <;> simp [h]

theorem execDrainLimitExpiry_stays (p : Fin 4) (s : State) :
    Stays s (execDrainLimitExpiry p s) := by
  exact lift_stays fun f0 d h => by
    split
    · rw [foldl_hard _ (fun d f => by split <;> simp)]; exact h
    · exact h

theorem execShaperRefill_stays (s : State) :
    Stays s (execShaperRefill s) := by
  exact lift_stays fun f0 d h => by
    rw [foldl_hard _ (fun d f => by simp)]; exact h

theorem execGateEntryChange_stays (p : Fin 64) (starts : Bool) (s : State) :
    Stays s (execGateEntryChange p starts s) := by
  exact lift0_stays fun f0 d h => by dsimp only; (repeat' split) <;> simpa using h

theorem execGclRead_keeps (m : Master) (w : Wr) (s : State) :
    Keeps s (execGclRead m w s) := by
  refine fabRow_keeps ?_
  exact lift0_keeps fun f0 d h => by (repeat' split) <;> simp [h]

theorem execGclWrite_keeps (m : Master) (w : Wr) (s : State) :
    Keeps s (execGclWrite m w s) := by
  refine fabRow_keeps ?_
  exact lift0_keeps fun f0 d h => by (repeat' split) <;> simp [h]

theorem execReplayTimeout_stays (p : Fin 64) (s : State) :
    Stays s (execReplayTimeout p s) := by
  exact lift_stays fun f0 d h => by simpa using h

theorem execFlitReceive_stays (p : Fin 64) (a : Arrival) (slots : Fin 3) (s : State) :
    Stays s (execFlitReceive p a slots s) := by
  exact lift_stays fun f0 d h => by (repeat' split) <;> simpa using h

theorem execFlitSend_stays (p : Fin 64) (s : State) :
    Stays s (execFlitSend p s) := by
  exact lift_stays fun f0 d h => by (repeat' split) <;> simpa using h

theorem execTimeReq_stays (p : Fin 64) (m : LinkMsg) (s : State) :
    Stays s (execTimeReq p m s) := by
  exact lift_stays fun f0 d h => by rw [onLink_hard (fun d => by simp)]; exact h

theorem execTimeResp_stays (p : Fin 64) (m : LinkMsg) (s : State) :
    Stays s (execTimeResp p m s) := by
  exact lift_stays fun f0 d h => by rw [onLink_hard (fun d => by (repeat' split) <;> simp)]; exact h

theorem execTimeExchangeTimer_stays (s : State) :
    Stays s (execTimeExchangeTimer s) := by
  exact lift0_stays fun f0 d h => by simpa using h

theorem execPpsInEdge_stays (s : State) :
    Stays s (execPpsInEdge s) := by
  exact lift0_stays fun f0 d h => by simpa using h

theorem execFtSet_stays (m : Master) (w : Wr) (s : State) :
    Stays s (execFtSet m w s) := by
  refine fabRow_stays ?_
  exact lift0_stays fun f0 d h => by simpa using h

theorem execSvcLockGained_stays (n : Fin 4) (s : State) :
    Stays s (execSvcLockGained n s) := by
  exact lift0_stays fun f0 d h => by simpa using h

theorem execSvcLockLost_stays (x : CodeErrs) (s : State) :
    Stays s (execSvcLockLost x s) := by
  exact lift0_stays fun f0 d h => by simpa using h

theorem execSpeedSwitch_stays (n : Fin 4) (s : State) :
    Stays s (execSpeedSwitch n s) := by
  exact lift0_stays fun f0 d h => by dsimp only; (repeat' split) <;> simpa using h

theorem execSpeedLockTimeout_stays (n : Fin 4) (s : State) :
    Stays s (execSpeedLockTimeout n s) := by
  exact lift0_stays fun f0 d h => by dsimp only; (repeat' split) <;> simpa using h

theorem execSvcRestart_keeps (m : Master) (n : Fin 4) (w : Wr) (s : State) :
    Keeps s (execSvcRestart m n w s) := by
  refine fabRow_keeps ?_
  exact lift0_keeps fun f0 d h => by
    split
    · exact halfwise_ok (fun _ _ k => svcCtlWrite_ok k) w h
    · exact h

theorem execSvcLinkAck_stays (n : Fin 4) (f : Frame) (s : State) :
    Stays s (execSvcLinkAck n f s) := by
  exact lift0_stays fun f0 d h => by
    rw [svcArrive_hard (fun t d => by simp)]; exact h

theorem execSvcLinkAckTimer_stays (n : Fin 4) (s : State) :
    Stays s (execSvcLinkAckTimer n s) := by
  exact lift0_stays fun f0 d h => by simpa using h

theorem execSvcAckTimeout_stays (n : Fin 4) (s : State) :
    Stays s (execSvcAckTimeout n s) := by
  exact lift0_stays fun f0 d h => by dsimp only; (repeat' split) <;> simp [h, foldl_hard]

theorem execDiscoverReply_stays (n : Fin 4) (f : Frame) (s : State) :
    Stays s (execDiscoverReply n f s) := by
  unfold execDiscoverReply execUpFrame; exact lift0_stays fun f0 d h => by rw [svcFrame_hard (fun f d => by simp)]; exact h

theorem execResponse_stays (n : Fin 4) (f : Frame) (s : State) :
    Stays s (execResponse n f s) := by
  unfold execResponse execUpFrame; exact lift0_stays fun f0 d h => by rw [svcFrame_hard (fun f d => by simp)]; exact h

theorem execNotify_stays (n : Fin 4) (f : Frame) (s : State) :
    Stays s (execNotify n f s) := by
  unfold execNotify execUpFrame; exact lift0_stays fun f0 d h => by rw [svcFrame_hard (fun f d => by simp)]; exact h

theorem execSvcHello_stays (n : Fin 4) (f : Frame) (s : State) :
    Stays s (execSvcHello n f s) := by
  exact lift0_stays fun f0 d h => by
    rw [svcArrive_hard (fun t d => by simp)]; exact h

theorem execSvcHelloTimer_stays (n : Fin 4) (s : State) :
    Stays s (execSvcHelloTimer n s) := by
  exact lift0_stays fun f0 d h => by simpa using h

theorem execSpeed_stays (n : Fin 4) (f : Frame) (speed : Fin 3) (s : State) :
    Stays s (execSpeed n f speed s) := by
  exact lift0_stays fun f0 d h => by
    rw [svcArrive_hard (fun t d => by simp)]; exact h

theorem execHeartbeat_stays (n : Fin 4) (f : Frame) (s : State) :
    Stays s (execHeartbeat n f s) := by
  exact lift0_stays fun f0 d h => by
    rw [svcArrive_hard (fun t d => by simp)]; exact h

theorem execUpstreamTimeout_stays (s : State) :
    Stays s (execUpstreamTimeout s) := by
  exact lift0_stays fun f0 d h => by simpa using h

theorem execHeartbeatTimer_stays (s : State) :
    Stays s (execHeartbeatTimer s) := by
  exact lift0_stays fun f0 d h => by simpa using h

theorem execManagerListenEnd_keeps (s : State) :
    Keeps s (execManagerListenEnd s) := by
  exact lift0_keeps fun f0 d h => by (repeat' split) <;> simp [h]

theorem execTakeover_keeps (s : State) :
    Keeps s (execTakeover s) := by
  exact lift0_keeps fun f0 d h => by (repeat' split) <;> simp [h]

theorem execLeaseTimeout_stays (s : State) :
    Stays s (execLeaseTimeout s) := by
  exact lift0_stays fun f0 d h => by simpa using h

theorem execDiscover_stays (n : Fin 4) (f : Frame) (s : State) :
    Stays s (execDiscover n f s) := by
  exact lift0_stays fun f0 d h => by rw [svcFrame_hard (fun f d => by simp)]; exact h

theorem execSvcRtRead_keeps (m : Master) (w : Wr) (s : State) :
    Keeps s (execSvcRtRead m w s) := by
  refine fabRow_keeps ?_
  exact lift0_keeps fun f0 d h => by (repeat' split) <;> simp [h]

theorem execSvcRtWrite_keeps (m : Master) (w : Wr) (s : State) :
    Keeps s (execSvcRtWrite m w s) := by
  refine fabRow_keeps ?_
  exact lift0_keeps fun f0 d h => by (repeat' split) <;> simp [h]

theorem execMinuteBoundary_stays (s : State) :
    Stays s (execMinuteBoundary s) := by
  exact island_stays fun f0 d h => by simpa using h

theorem execBlockSigned_stays (s : State) :
    Stays s (execBlockSigned s) := by
  exact island_stays fun f0 d h => by (try dsimp only); (repeat' split) <;> simpa [updIsl_hard] using h

theorem execFlashWriteDone_stays (ok : Bool) (s : State) :
    Stays s (execFlashWriteDone ok s) := by
  exact island_stays fun f0 d h => by (try dsimp only); (repeat' split) <;> simpa [updIsl_hard] using h

theorem execTallyTapDelivery_stays (tap : Fin 8) (s : State) :
    Stays s (execTallyTapDelivery tap s) := by
  exact island_stays fun f0 d h => by simpa using h

theorem execTapSilence_stays (tap : Fin 8) (s : State) :
    Stays s (execTapSilence tap s) := by
  exact island_stays fun f0 d h => by
    split
    · exact h
    · dsimp only
      split
      · rw [updIsl_hard (fun _ => by rw [audit_acked])]; exact h
      · rw [reportError_hard, updIsl_hard (fun _ => by rw [audit_acked])]; exact h

theorem execMeterSample_stays (s : State) :
    Stays s (execMeterSample s) := by
  exact island_stays fun f0 d h => by (try dsimp only); (repeat' split) <;> simpa [updIsl_hard] using h

theorem execIslandPowerUp_stays (sealOpen : Bool) (s : State) :
    Stays s (execIslandPowerUp sealOpen s) := by
  exact island_stays fun f0 d h => by simpa using h

theorem execVddMtrLoss_stays (s : State) :
    Stays s (execVddMtrLoss s) := by
  exact island_stays fun f0 d h => (updIsl_hard (fun _ => by rfl) d) ▸ h

theorem execMeterXoLoss_stays (s : State) :
    Stays s (execMeterXoLoss s) := by
  exact island_stays fun f0 d h => by
    have k : hard (updIsl (fun i => { i with timeUnset := true }) d) = hard d := updIsl_hard (fun _ => rfl) d
    dsimp only
    (repeat' split) <;> simpa [k] using h

theorem execMtrTimeSet_stays (m : Master) (w : Wr) (s : State) :
    Stays s (execMtrTimeSet m w s) := by
  exact fabRow_stays (mtrWrite_stays (fun i => timeSet_acked _ i))

theorem execMtrTimeAdj_stays (m : Master) (w : Wr) (s : State) :
    Stays s (execMtrTimeAdj m w s) := by
  exact fabRow_stays (mtrWrite_stays (fun i => timeAdj_acked _ i))

theorem execSealSample_stays (opened : Bool) (s : State) :
    Stays s (execSealSample opened s) := by
  exact island_stays fun f0 d h => by
    split
    · exact h
    · rw [updIsl_hard (fun i => by dsimp only; rw [audit_acked]; split <;> rfl)]; exact h

theorem execTrimSet_stays (m : Master) (w : Wr) (s : State) :
    Stays s (execTrimSet m w s) := by
  exact fabRow_stays (mtrWrite_stays (sealed_acked fun i => trimWrite_acked _ i))

theorem execOperatorSet_stays (m : Master) (w : Wr) (s : State) :
    Stays s (execOperatorSet m w s) := by
  exact fabRow_stays (mtrWrite_stays (sealed_acked fun i => operatorWrite_acked _ i))

theorem execMtrFwBegin_stays (m : Master) (w : Wr) (s : State) :
    Stays s (execMtrFwBegin m w s) := by
  refine fabRow_stays ?_
  exact fwCtlRow_stays

theorem execMtrFwActivate_stays (m : Master) (w : Wr) (s : State) :
    Stays s (execMtrFwActivate m w s) := by
  refine fabRow_stays ?_
  exact fwCtlRow_stays

theorem execMtrFwData_stays (m : Master) (w : Wr) (s : State) :
    Stays s (execMtrFwData m w s) := by
  exact fabRow_stays (mtrWrite_stays (sealed_acked fun i => fwDataWrite_acked _ i))

theorem execMtrFwVerifyDone_stays (sig : List Byte) (version : Word32) (s : State) :
    Stays s (execMtrFwVerifyDone sig version s) := by
  exact island_stays fun f0 d h => by (try dsimp only); (repeat' split) <;> simpa [updIsl_hard] using h

theorem execMtrRdSel_stays (k : Fin 2) (m : Master) (w : Wr) (s : State) :
    Stays s (execMtrRdSel k m w s) := by
  exact fabRow_stays (mtrWrite_stays (fun i => rdSelWrite_acked _ _ i))

theorem execMtrWindowRead_stays (k : Fin 2) (m : Master) (n : Fin 512) (lo hi : Bool) (s : State) :
    Stays s (execMtrWindowRead k m n lo hi s) := by
  exact fabRow_stays (lift0_stays fun f0 d h => by (repeat' split) <;> simpa [updIsl_hard] using h)

theorem execMtrAck_firm (m : Master) (w : Wr) (s : State) : Firm s (execMtrAck m w s) := by
  refine fabRow_firm ⟨_, rfl, rfl, rfl, fun Q q k => ?_⟩
  dsimp only
  split
  · rw [meterNotify_hard]
    split
    · exact updIsl_tame q (fun i => ackWrite_acked _ _ i) k
    · exact k
  · exact k

theorem execPmuSelWrite_keeps (m : Master) (k : Fin 1024) (w : Wr) (s : State) :
    Keeps s (execPmuSelWrite m k w s) := by
  refine fabRow_keeps ?_
  exact lift0_keeps fun f0 d h => by (repeat' split) <;> simp [h]

theorem execPmuClear_keeps (m : Master) (w : Wr) (s : State) :
    Keeps s (execPmuClear m w s) := by
  refine fabRow_keeps ?_
  exact lift0_keeps fun f0 d h => by (repeat' split) <;> simp [h]

theorem execBwWindowEnd_stays (s : State) :
    Stays s (execBwWindowEnd s) := by
  refine lift0_stays fun P d h => ?_
  have k : ∀ (v : Pmu) (g : Nat × Port → Port), hard { d with pmu := v, ports := d.ports.map fun p => (p.1, g p) } = hard d :=
    fun v g => hard_eq rfl rfl Iff.rfl Iff.rfl (map_rising_iff _ _ fun _ => rfl) Iff.rfl
  exact (k _ _).symm ▸ h

theorem execDumpEnable_keeps (m : Master) (w : Wr) (s : State) :
    Keeps s (execDumpEnable m w s) := by
  refine fabRow_keeps ?_
  exact lift0_keeps fun f0 d h => by (repeat' split) <;> simp [h]

theorem execDumpBoundary_keeps (s : State) :
    Keeps s (execDumpBoundary s) := by
  exact lift0_keeps fun f0 d h => by (repeat' split) <;> simp [h]

theorem execGraftDone_stays (slot : Fin 32) (s : State) :
    Stays s (execGraftDone slot s) := by
  exact lift_stays fun f0 d h => by dsimp only; (repeat' split) <;> simp [h, foldl_hard]

theorem execFaultReport_stays (x : FltIn) (s : State) :
    Stays s (execFaultReport x s) := by
  exact lift_stays fun f0 d h => by simpa using h

theorem execHandshakeStall_stays (src : Fin 512) (s : State) :
    Stays s (execHandshakeStall src s) := by
  exact lift_stays fun f0 d h => by (repeat' split) <;> simpa using h

theorem execNotifyHoldoffEnd_stays (s : State) :
    Stays s (execNotifyHoldoffEnd s) := by
  exact lift0_stays fun f0 d h => by simpa using h

theorem execReportPathFailure_stays (src : Fin 512) (s : State) :
    Stays s (execReportPathFailure src s) := by
  exact lift_stays fun f0 d h => by simpa using h

theorem execFaultRecordClear_stays (m : Master) (src : Fin 512) (s : State) :
    Stays s (execFaultRecordClear m src s) := by
  refine fabRow_stays ?_
  exact lift0_stays fun f0 d h => by simpa using h

theorem execCorrClr_stays (m : Master) (src : Fin 512) (s : State) :
    Stays s (execCorrClr m src s) := by
  refine fabRow_stays ?_
  exact lift0_stays fun f0 d h => by simpa using h

theorem execFltForce_stays (m : Master) (src : Fin 512) (fc : Fin 4) (s : State) :
    Stays s (execFltForce m src fc s) := by
  refine fabRow_stays ?_
  exact lift_stays fun f0 d h => by simpa using h

theorem execFltBreak_stays (m : Master) (src : Fin 512) (s : State) :
    Stays s (execFltBreak m src s) := by
  refine fabRow_stays ?_
  exact lift_stays fun f0 d h => by simpa using h

theorem execFaultClear_stays (f : FnId) (e : Desc) (s : State) :
    Stays s (execFaultClear f e s) := by
  exact admin_stays fun t d => by
    dsimp only
    (repeat' split) <;> simp only [AdmRes.dev_done, say_dev]
    all_goals first
      | (rw [foldl_hard]; intro d k; (repeat' split) <;> simp)
      | rfl
      | simp

theorem execEccUncorrectable_stays (src : Fin 512) (detail : Byte) (object : BitVec 24) (s : State) :
    Stays s (execEccUncorrectable src detail object s) := by
  exact lift_stays fun f0 d h => by (repeat' split) <;> simpa using h

theorem execEccCorrected_stays (src : Fin 512) (s : State) :
    Stays s (execEccCorrected src s) := by
  exact lift0_stays fun f0 d h => by simpa using h

theorem execHbmStackFailure_stays (n : Fin 2) (s : State) :
    Stays s (execHbmStackFailure n s) := by
  exact lift_stays fun f0 d h => by simpa using h

theorem execInkStart_keeps (m : Master) (w : Wr) (s : State) :
    Keeps s (execInkStart m w s) := by
  refine fabRow_keeps ?_
  exact lift0_keeps fun f0 d h => by (repeat' split) <;> simp [h]

theorem execInkStop_keeps (m : Master) (w : Wr) (s : State) :
    Keeps s (execInkStop m w s) := by
  refine fabRow_keeps ?_
  exact lift0_keeps fun f0 d h => by (repeat' split) <;> simp [h]

theorem execInkDiscard_keeps (m : Master) (w : Wr) (s : State) :
    Keeps s (execInkDiscard m w s) := by
  refine fabRow_keeps ?_
  exact lift0_keeps fun f0 d h => by (repeat' split) <;> simp [h]

theorem execInkTransfer_keeps (m : Master) (w : Wr) (s : State) :
    Keeps s (execInkTransfer m w s) := by
  refine fabRow_keeps ?_
  exact lift0_keeps fun f0 d h => by (repeat' split) <;> simp [h]

theorem execInkReplay_keeps (m : Master) (w : Wr) (s : State) :
    Keeps s (execInkReplay m w s) := by
  refine fabRow_keeps ?_
  exact lift0_keeps fun f0 d h => by (repeat' split) <;> simp [h]

theorem execInkCheckpointDone_stays (s : State) :
    Stays s (execInkCheckpointDone s) := by
  exact lift0_stays fun f0 d h => by simpa using h

theorem execInkSegmentFull_stays (x : SegEnd) (s : State) :
    Stays s (execInkSegmentFull x s) := by
  exact lift0_stays fun f0 d h => by simpa using h

theorem execInkPostTriggerEnd_stays (s : State) :
    Stays s (execInkPostTriggerEnd s) := by
  exact lift0_stays fun f0 d h => by simpa using h

theorem execInkTransferDone_stays (segs : List (List Byte)) (s : State) :
    Stays s (execInkTransferDone segs s) := by
  exact lift0_stays fun f0 d h => by simpa using h

theorem execInkReplayDone_stays (r : InkEnd) (s : State) :
    Stays s (execInkReplayDone r s) := by
  exact lift0_stays fun f0 d h => by simpa using h

theorem execSetMode_stays (f : FnId) (e : Desc) (s : State) :
    Stays s (execSetMode f e s) := by
  unfold execSetMode; split <;> first | exact same_stays s | (refine admin_stays fun t d => ?_; dsimp only; (repeat' split) <;> simp)

theorem execSetModeDeviceReset_stays (f : FnId) (e : Desc) (s : State) :
    Stays s (execSetModeDeviceReset f e s) := by
  unfold execSetModeDeviceReset; split <;> first | exact same_stays s | (refine admin_stays fun t d => ?_; dsimp only; (repeat' split) <;> simp)

theorem execModeCtlReq_stays (m : Master) (w : Wr) (s : State) :
    Stays s (execModeCtlReq m w s) := by
  refine fabRow_stays ?_
  exact lift0_stays fun f0 d h => by simpa using h

theorem execModeCtlDeviceReset_stays (m : Master) (w : Wr) (s : State) :
    Stays s (execModeCtlDeviceReset m w s) := by
  refine fabRow_stays ?_
  exact lift0_stays fun f0 d h => by simpa using h

theorem execPowerOnReset_samples (role bootSrc : BitVec 2) (recovery : Bool) (s : State) :
    Samples s (execPowerOnReset role bootSrc recovery s) := by
  exact ⟨_, rfl, rfl, .inr rfl, fun f0 n k => powerOn_ok k n⟩

theorem execDeviceReset_keeps (recovery : Bool) (s : State) :
    Keeps s (execDeviceReset recovery s) := by
  unfold execDeviceReset; split <;> first | exact same_keeps s | exact resetTo_keeps fun f0 d h => deviceReset_ok h

theorem execSupplyBrownout_keeps (s : State) :
    Keeps s (execSupplyBrownout s) := by
  exact resetTo_keeps fun f0 d h => by (repeat' split) <;> simp [h]

theorem execMgmtXoLoss_keeps (s : State) :
    Keeps s (execMgmtXoLoss s) := by
  exact resetTo_keeps fun f0 d h => by (repeat' split) <;> simp [h]

theorem execInternalResetRelease_samples (role bootSrc : BitVec 2) (recovery : Bool) (s : State) :
    Samples s (execInternalResetRelease role bootSrc recovery s) := by
  unfold execInternalResetRelease; split
  · exact ⟨_, rfl, rfl, .inr rfl, fun f0 n k => powerOn_ok k n⟩
  · exact ⟨_, rfl, rfl, .inl rfl, fun f0 n k => k⟩

theorem execSlotVerifyDone_keeps (s : State) :
    Keeps s (execSlotVerifyDone s) := by
  unfold execSlotVerifyDone; split
  · exact resetTo_keeps fun f0 d h => slotVerified_ok h
  · exact lift0_keeps fun f0 d h => slotVerified_ok h

theorem execBootComplete_keeps (s : State) :
    Keeps s (execBootComplete s) := by
  exact lift_keeps fun f0 d h => by (repeat' split) <;> simp [h]

theorem execQuillWatchdog_keeps (s : State) :
    Keeps s (execQuillWatchdog s) := by
  unfold execQuillWatchdog; split
  · exact resetTo_keeps fun f0 d h => deviceReset_ok h
  · exact lift_keeps fun f0 d h => by simpa using h

theorem execImage_stays (n : Fin 4) (f : Frame) (s : State) :
    Stays s (execImage n f s) := by
  exact lift0_stays fun f0 d h => by rw [svcFrame_hard (fun f d => by simp)]; exact h

theorem execFwActivate_keeps (m : Master) (w : Wr) (s : State) :
    Keeps s (execFwActivate m w s) := by
  refine fabRow_keeps ?_
  exact lift0_keeps fun f0 d h => by (repeat' split) <;> simp [h]

theorem execFwCommit_keeps (m : Master) (w : Wr) (s : State) :
    Keeps s (execFwCommit m w s) := by
  refine fabRow_keeps ?_
  exact lift0_keeps fun f0 d h => by (repeat' split) <;> simp [h]

theorem execFwActivateDone_stays (s : State) :
    Stays s (execFwActivateDone s) := by
  exact lift0_stays fun f0 d h => by simpa using h

theorem execGetVersion_stays (p : Fin 4) (s : State) :
    Stays s (execGetVersion p s) := by
  exact spdm_stays

theorem execGetCapabilities_stays (p : Fin 4) (s : State) :
    Stays s (execGetCapabilities p s) := by
  exact spdm_stays

theorem execNegotiateAlgorithms_stays (p : Fin 4) (s : State) :
    Stays s (execNegotiateAlgorithms p s) := by
  exact spdm_stays

theorem execGetDigests_stays (p : Fin 4) (s : State) :
    Stays s (execGetDigests p s) := by
  exact spdm_stays

theorem execGetCertificate_stays (p : Fin 4) (slot : Fin 8) (off len : Word16) (s : State) :
    Stays s (execGetCertificate p slot off len s) := by
  exact spdm_stays

theorem execChallenge_stays (p : Fin 4) (req : List Byte) (s : State) :
    Stays s (execChallenge p req s) := by
  exact spdm_stays

theorem execGetMeasurements_stays (p : Fin 4) (req : List Byte) (s : State) :
    Stays s (execGetMeasurements p req s) := by
  exact spdm_stays

theorem execSpdmUnsupportedRequest_stays (p : Fin 4) (s : State) :
    Stays s (execSpdmUnsupportedRequest p s) := by
  exact spdm_stays

theorem execGovernorEvaluation_stays (s : State) :
    Stays s (execGovernorEvaluation s) := by
  exact lift0_stays fun f0 d h => by simpa using h

theorem execAvsRequestComplete_stays (s : State) :
    Stays s (execAvsRequestComplete s) := by
  exact lift0_stays fun f0 d h => by simpa using h

theorem execAvsTimeout_stays (status : Word16) (s : State) :
    Stays s (execAvsTimeout status s) := by
  exact lift0_stays fun f0 d h => by simpa using h

theorem execAvsFault_stays (status : Word16) (s : State) :
    Stays s (execAvsFault status s) := by
  exact lift0_stays fun f0 d h => by simpa using h

theorem execAvsRetry_stays (s : State) :
    Stays s (execAvsRetry s) := by
  exact lift0_stays fun f0 d h => by simpa using h

theorem execThermalSample_stays (raw : List Int) (hbm0 hbm1 : Int) (s : State) :
    Stays s (execThermalSample raw hbm0 hbm1 s) := by
  exact lift_stays fun f0 d h => by dsimp only; (repeat' split) <;> simp [h, foldl_hard]

theorem execThermtrip_stays (s : State) :
    Stays s (execThermtrip s) := by
  exact lift_stays fun f0 d h => by simpa using h

theorem execPaceEventHoldoffEnd_stays (k : Holdoff) (s : State) :
    Stays s (execPaceEventHoldoffEnd k s) := by
  exact lift0_stays fun f0 d h => by (repeat' split) <;> simpa using h

theorem execRefclkFabLoss_stays (q : Fin 4) (s : State) :
    Stays s (execRefclkFabLoss q s) := by
  exact lift_stays fun f0 d h => by dsimp only; (repeat' split) <;> simp [h, foldl_hard]

theorem execRegisterWrite_keeps (m : Master) (b : Bar) (off : Fin 0x200000) (w : Option Wr) (s : State) :
    Keeps s (execRegisterWrite m b off w s) := by
  have lw : ∀ m o w, Keeps s (lift (windowWrite m o w) s) := fun m o w => lift_keeps fun f0 d h => windowWrite_ok h
  have lb : ∀ f, Keeps s (lift (badDoorbell f) s) := fun f => lift_keeps fun f0 d h => by simpa using h
  have lm : ∀ f i w, Keeps s (lift (msixWrite f i w) s) := fun f i w => lift_keeps fun f0 d h => by simpa using h
  have lu : ∀ p, Keeps s (lift0 (emit (.unsupported p)) s) := fun p => lift0_keeps fun f0 d h => by simpa using h
  unfold execRegisterWrite
  refine fabRow_keeps ?_
  try dsimp only
  (repeat' split) <;> first
    | with_reducible exact same_keeps s
    | with_reducible exact (execAqDb_stays _ _ _).keeps
    | with_reducible exact (execAcqDb_stays _ _ _).keeps
    | with_reducible exact lw _ _ _
    | with_reducible exact (execSqDoorbell_stays _ _ _ _).keeps
    | with_reducible exact (execCqDoorbell_stays _ _ _ _).keeps
    | with_reducible exact (execEqDoorbell_stays _ _ _ _).keeps
    | with_reducible exact lb _
    | with_reducible exact lm _ _ _
    | with_reducible exact lu _

theorem execClearOnRead_stays (m : Master) (b : Bar) (off : Fin 0x200000) (a : Option Part) (s : State) :
    Stays s (execClearOnRead m b off a s) := by
  refine fabRow_stays ?_
  exact lift0_stays fun f0 d h => by (repeat' split) <;> simpa using h

theorem execCfgCommit_stays (m : Master) (w : Wr) (s : State) :
    Stays s (execCfgCommit m w s) := by
  refine fabRow_stays ?_
  exact lift0_stays fun f0 d h => by simpa using h

theorem execCommitEvaluation_keeps (s : State) :
    Keeps s (execCommitEvaluation s) := by
  exact lift_keeps fun f0 d h => by (repeat' split) <;> simp [h]

theorem execCrcSweepComplete_keeps (s : State) :
    Keeps s (execCrcSweepComplete s) := by
  exact lift_keeps fun f0 d h => by (repeat' split) <;> simp [h]

theorem execCrcCapture_keeps (m : Master) (w : Wr) (s : State) :
    Keeps s (execCrcCapture m w s) := by
  refine fabRow_keeps ?_
  exact lift0_keeps fun f0 d h => by (repeat' split) <;> simp [h]

theorem execCfgLock_keeps (m : Master) (w : Wr) (s : State) :
    Keeps s (execCfgLock m w s) := by
  refine fabRow_keeps ?_
  exact lift0_keeps fun f0 d h => by (repeat' split) <;> simp [h]

theorem execRegParityMismatch_stays (f : FnId) (off : Fin 0x80000) (s : State) :
    Stays s (execRegParityMismatch f off s) := by
  exact lift_stays fun f0 d h => by simpa using h

theorem execStagedParityMismatch_stays (off : Fin 0x80000) (s : State) :
    Stays s (execStagedParityMismatch off s) := by
  exact lift_stays fun f0 d h => by (repeat' split) <;> simpa using h

theorem execFabricMgmtRecv_stays (f : FnId) (e : Desc) (s : State) :
    Stays s (execFabricMgmtRecv f e s) := by
  unfold execFabricMgmtRecv; split <;> first | exact same_stays s | (refine admin_stays fun t d => ?_; dsimp only; (repeat' split) <;> simp)

theorem execBypass_stays (s : State) :
    Stays s (execBypass s) := by
  exact jtag_stays

theorem execIdcode_stays (s : State) :
    Stays s (execIdcode s) := by
  exact ⟨_, rfl, rfl, rfl, by simp⟩

theorem execSamplePreload_stays (s : State) :
    Stays s (execSamplePreload s) := by
  exact jtag_stays

theorem execExtest_stays (rstLow : Bool) (s : State) :
    Stays s (execExtest rstLow s) := by
  exact jtagAt_stays

theorem execExtestPulse_stays (rstLow : Bool) (s : State) :
    Stays s (execExtestPulse rstLow s) := by
  exact jtagAt_stays

theorem execExtestTrain_stays (rstLow : Bool) (s : State) :
    Stays s (execExtestTrain rstLow s) := by
  exact jtagAt_stays

theorem execClamp_stays (rstLow : Bool) (s : State) :
    Stays s (execClamp rstLow s) := by
  exact jtagAt_stays

theorem execHighz_stays (rstLow : Bool) (s : State) :
    Stays s (execHighz rstLow s) := by
  exact jtagAt_stays

theorem execSmbReadTjMax_stays (s : State) :
    Stays s (execSmbReadTjMax s) := by
  exact smbRead_stays

theorem execSmbReadHbm0Temp_stays (s : State) :
    Stays s (execSmbReadHbm0Temp s) := by
  exact smbRead_stays

theorem execSmbReadHbm1Temp_stays (s : State) :
    Stays s (execSmbReadHbm1Temp s) := by
  exact smbRead_stays

theorem execSmbReadStatus_stays (s : State) :
    Stays s (execSmbReadStatus s) := by
  exact smbRead_stays

theorem execSmbReadVddReq_stays (s : State) :
    Stays s (execSmbReadVddReq s) := by
  exact smbRead_stays

theorem execSmbReadPace_stays (s : State) :
    Stays s (execSmbReadPace s) := by
  exact smbRead_stays

theorem execSmbReadUnitId_stays (s : State) :
    Stays s (execSmbReadUnitId s) := by
  exact smbRead_stays

theorem execSmbWrite_stays (s : State) :
    Stays s (execSmbWrite s) := by
  exact lift0_stays fun f0 d h => by simpa using h

/-- A command that may wait its turn keeps what it keeps by itself. -/
theorem execRow_keeps (i : Instr) (s : State) : Keeps s (execRow i s) := by
  unfold execRow
  split
  · exact (execCreateSq_stays ..).keeps
  · exact (execDestroySq_stays ..).keeps
  · exact (execCreateCq_stays ..).keeps
  · exact (execDestroyCq_stays ..).keeps
  · exact (execCreateEq_stays ..).keeps
  · exact (execDestroyEq_stays ..).keeps
  · exact (execSubscribeEvents_stays ..).keeps
  · exact (execQueryQueue_stays ..).keeps
  · exact (execCreateConn_stays ..).keeps
  · exact (execDestroyConn_firm ..).keeps
  · exact (execModifyConn_stays ..).keeps
  · exact (execCreateMatchCtx_stays ..).keeps
  · exact (execDestroyMatchCtx_stays ..).keeps
  · exact (execRegisterRegion_stays ..).keeps
  · exact (execDeregisterRegion_stays ..).keeps
  · exact (execSetTranslationRoot_stays ..).keeps
  · exact (execInvalidate_stays ..).keeps
  · exact (execResumeMark_stays ..).keeps
  · exact (execJoinTree_stays ..).keeps
  · exact (execLeaveTree_stays ..).keeps
  · exact (execSetShaper_stays ..).keeps
  · exact (execSetPolicer_stays ..).keeps
  · exact (execParkFunction_stays ..).keeps
  · exact (execUnparkFunction_stays ..).keeps
  · exact (execSetFuncDomain_stays ..).keeps
  · exact (execSetFuncQuota_stays ..).keeps
  · exact (execQueryFunc_stays ..).keeps
  · exact (execSetMode_stays ..).keeps
  · exact (execSetModeDeviceReset_stays ..).keeps
  · exact (execFaultClear_stays ..).keeps
  · exact (execIdentify_stays ..).keeps
  · exact execOwnerCtlWrite_keeps ..
  · exact (execFaultRecordClear_stays ..).keeps
  · exact (execCorrClr_stays ..).keeps
  · exact (execFltForce_stays ..).keeps
  · exact (execFltBreak_stays ..).keeps
  · exact execArmA_keeps ..
  · exact execArmB_keeps ..
  · exact execRetireA_keeps ..
  · exact execRetireB_keeps ..
  · exact execStampWrite_keeps ..
  · exact execTableRead_keeps ..
  · exact execTableWrite_keeps ..
  · exact execForcedWrite_keeps ..
  · exact execRtCoordWrite_keeps ..
  · exact execRtHpDrainWrite_keeps ..
  · exact execPortEnable_keeps ..
  · exact execPortDisable_keeps ..
  · exact (execNarrowLane0_stays ..).keeps
  · exact (execNarrowLane1_stays ..).keeps
  · exact (execWiden_stays ..).keeps
  · exact (execRetrainLane0_stays ..).keeps
  · exact (execRetrainLane1_stays ..).keeps
  · exact (execPortRestart_stays ..).keeps
  · exact execGclRead_keeps ..
  · exact execGclWrite_keeps ..
  · exact execSvcRestart_keeps ..
  · exact execSvcRtRead_keeps ..
  · exact execSvcRtWrite_keeps ..
  · exact (execFtSet_stays ..).keeps
  · exact (execModeCtlReq_stays ..).keeps
  · exact (execModeCtlDeviceReset_stays ..).keeps
  · exact (execMtrTimeSet_stays ..).keeps
  · exact (execMtrTimeAdj_stays ..).keeps
  · exact (execMtrAck_firm ..).keeps
  · exact (execMtrRdSel_stays ..).keeps
  · exact (execMtrWindowRead_stays ..).keeps
  · exact (execTrimSet_stays ..).keeps
  · exact (execOperatorSet_stays ..).keeps
  · exact (execMtrFwBegin_stays ..).keeps
  · exact (execMtrFwData_stays ..).keeps
  · exact (execMtrFwActivate_stays ..).keeps
  · exact execFwActivate_keeps ..
  · exact execFwCommit_keeps ..
  · exact execPmuSelWrite_keeps ..
  · exact execPmuClear_keeps ..
  · exact execDumpEnable_keeps ..
  · exact execInkStart_keeps ..
  · exact execInkStop_keeps ..
  · exact execInkDiscard_keeps ..
  · exact execInkTransfer_keeps ..
  · exact execInkReplay_keeps ..
  · exact (execCfgCommit_stays ..).keeps
  · exact execCrcCapture_keeps ..
  · exact execCfgLock_keeps ..
  · exact (execClearOnRead_stays ..).keeps
  · exact execRegisterWrite_keeps ..
  · exact (lift_stays (g := fmSend _ _ _) fun _ d k => by rw [fmSend_hard]; exact k).keeps
  · exact (execFabricMgmtRecv_stays ..).keeps
  · exact (lift_stays (g := fmLocal _ _ _) fun _ d k => by rw [fmLocal_hard]; exact k).keeps
  · exact same_keeps _

@[simp] theorem runRow_ok {f0 : Base} {m : Dev} {i : Instr} {d : Dev} (h : okH f0 (hard d)) : okH f0 (hard (runRow m i d)) := by
  obtain ⟨t, q, -, -, e⟩ := execRow_keeps i { dev := d, mir := m }
  unfold runRow; rw [q]; exact e f0 h

@[simp] theorem runCmds_ok {f0 : Base} (m : Dev) :
    ∀ (n : Nat) (d : Dev), okH f0 (hard d) → okH f0 (hard (runCmds m n d)) := by
  intro n
  induction n with
  | zero => intro d h; exact h
  | succ n ih =>
    intro d h
    unfold runCmds
    dsimp only
    split
    · exact h
    · split
      · exact h
      · refine ih _ ?_
        split
        · exact runRow_ok (by exact h)
        · split
          · exact cmdEntries_ok _ _ _ _ h
          · exact cmdBegin_ok h

@[simp] theorem pumpCmds_ok {f0 : Base} {m d : Dev} (h : okH f0 (hard d)) :
    okH f0 (hard (pumpCmds m d)) := by
  exact runCmds_ok _ _ _ h

@[simp] theorem waitTick_ok {f0 : Base} {m : Dev} {d : Dev} (h : okH f0 (hard d)) :
    okH f0 (hard (waitTick m d)) := by
  unfold waitTick; dsimp only; (repeat' split) <;> simp [h]

@[simp] theorem arbitration_ok {f0 : Base} {m d : Dev} (h : okH f0 (hard d)) :
    okH f0 (hard (arbitration m d)) := by
  have k := arbitrate_ok h
  unfold arbitration; split
  · exact pumpCmds_ok (by simpa using h)
  split <;> rename_i q <;> rw [q] at k
  · exact k
  · exact pumpCmds_ok (by simpa using k)

@[simp] theorem closeTick_ok {f0 : Base} {counts : List Nat} {slots : List Int} {d : Dev} (h : okH f0 (hard d)) :
    okH f0 (hard (closeTick counts slots d)) := by
  unfold closeTick; dsimp only; refine waitTick_ok ?_; simp [h]

theorem execCommand_keeps (n : Fin 4) (f : Frame) (s : State) :
    Keeps s (execCommand n f s) := by
  exact lift_keeps fun f0 d h => by
    exact pumpCmds_ok (by rw [svcFrame_hard (fun f d => by simp)]; exact h)

theorem execModeArbitration_keeps (s : State) :
    Keeps s (execModeArbitration s) := by
  exact lift_keeps fun f0 d h => by (repeat' split) <;> simp [h]

theorem execFabricMgmtSend_keeps (f : FnId) (e : Desc) (buf : List Byte) (s : State) :
    Keeps s (execFabricMgmtSend f e buf s) := by
  unfold execFabricMgmtSend; split
  · exact same_keeps s
  · exact lift_keeps fun f0 d h => pumpCmds_ok (by rw [fmSend_hard]; exact h)

theorem execFabricMgmtLocal_keeps (f : FnId) (e : Desc) (buf : List Byte) (s : State) :
    Keeps s (execFabricMgmtLocal f e buf s) := by
  unfold execFabricMgmtLocal; split
  · exact same_keeps s
  · exact lift_keeps fun f0 d h => pumpCmds_ok (by rw [fmLocal_hard]; exact h)

theorem execPaceMeasurement_keeps (counts : List Nat) (slots : List Int) (s : State) :
    Keeps s (execPaceMeasurement counts slots s) := by
  unfold execPaceMeasurement; split
  · exact same_keeps s
  · exact ⟨_, rfl, rfl, .inr rfl, fun f0 h => by dsimp only; rw [rest_hard]; exact closeTick_ok h⟩

end Sys2Proof.Machine
end

