-- ==== Sys2Proof/Laws/State.lean ====
section
/-!
SUPPORT. What each shared update leaves: one lemma per field, and what posting an event and recording a contained error never
change.
-/
namespace Sys2Proof.Machine

open Sys2Proof

/-! ### emit changes `out` -/

@[simp] theorem emit_clk (o : Out) (d : Dev) : (emit o d).clk = d.clk := rfl
@[simp] theorem emit_fuse (o : Out) (d : Dev) : (emit o d).fuse = d.fuse := rfl
@[simp] theorem emit_strap (o : Out) (d : Dev) : (emit o d).strap = d.strap := rfl
@[simp] theorem emit_hp (o : Out) (d : Dev) : (emit o d).hp = d.hp := rfl
@[simp] theorem emit_fns (o : Out) (d : Dev) : (emit o d).fns = d.fns := rfl
@[simp] theorem emit_xl (o : Out) (d : Dev) : (emit o d).xl = d.xl := rfl
@[simp] theorem emit_xpt (o : Out) (d : Dev) : (emit o d).xpt = d.xpt := rfl
@[simp] theorem emit_mtc (o : Out) (d : Dev) : (emit o d).mtc = d.mtc := rfl
@[simp] theorem emit_eng (o : Out) (d : Dev) : (emit o d).eng = d.eng := rfl
@[simp] theorem emit_tre (o : Out) (d : Dev) : (emit o d).tre = d.tre := rfl
@[simp] theorem emit_rt (o : Out) (d : Dev) : (emit o d).rt = d.rt := rfl
@[simp] theorem emit_ports (o : Out) (d : Dev) : (emit o d).ports = d.ports := rfl
@[simp] theorem emit_tc (o : Out) (d : Dev) : (emit o d).tc = d.tc := rfl
@[simp] theorem emit_svc (o : Out) (d : Dev) : (emit o d).svc = d.svc := rfl
@[simp] theorem emit_ft (o : Out) (d : Dev) : (emit o d).ft = d.ft := rfl
@[simp] theorem emit_isl (o : Out) (d : Dev) : (emit o d).isl = d.isl := rfl
@[simp] theorem emit_flt (o : Out) (d : Dev) : (emit o d).flt = d.flt := rfl
@[simp] theorem emit_boot (o : Out) (d : Dev) : (emit o d).boot = d.boot := rfl
@[simp] theorem emit_mode (o : Out) (d : Dev) : (emit o d).mode = d.mode := rfl
@[simp] theorem emit_modeSt (o : Out) (d : Dev) : (emit o d).modeSt = d.modeSt := rfl
@[simp] theorem emit_pmu (o : Out) (d : Dev) : (emit o d).pmu = d.pmu := rfl
@[simp] theorem emit_ink (o : Out) (d : Dev) : (emit o d).ink = d.ink := rfl
@[simp] theorem emit_cfg (o : Out) (d : Dev) : (emit o d).cfg = d.cfg := rfl
@[simp] theorem emit_pace (o : Out) (d : Dev) : (emit o d).pace = d.pace := rfl
@[simp] theorem emit_therm (o : Out) (d : Dev) : (emit o d).therm = d.therm := rfl
@[simp] theorem emit_jtag (o : Out) (d : Dev) : (emit o d).jtag = d.jtag := rfl
@[simp] theorem emit_regs (o : Out) (d : Dev) : (emit o d).regs = d.regs := rfl
@[simp] theorem emit_stg (o : Out) (d : Dev) : (emit o d).stg = d.stg := rfl
@[simp] theorem emit_free (o : Out) (d : Dev) : (emit o d).free = d.free := rfl
@[simp] theorem emit_ownerPort (o : Out) (d : Dev) : (emit o d).ownerPort = d.ownerPort := rfl

/-! ### setFn changes `fns` -/

@[simp] theorem setFn_clk (f : FnId) (x : Fn) (d : Dev) : (setFn f x d).clk = d.clk := rfl
@[simp] theorem setFn_fuse (f : FnId) (x : Fn) (d : Dev) : (setFn f x d).fuse = d.fuse := rfl
@[simp] theorem setFn_strap (f : FnId) (x : Fn) (d : Dev) : (setFn f x d).strap = d.strap := rfl
@[simp] theorem setFn_hp (f : FnId) (x : Fn) (d : Dev) : (setFn f x d).hp = d.hp := rfl
@[simp] theorem setFn_xl (f : FnId) (x : Fn) (d : Dev) : (setFn f x d).xl = d.xl := rfl
@[simp] theorem setFn_xpt (f : FnId) (x : Fn) (d : Dev) : (setFn f x d).xpt = d.xpt := rfl
@[simp] theorem setFn_mtc (f : FnId) (x : Fn) (d : Dev) : (setFn f x d).mtc = d.mtc := rfl
@[simp] theorem setFn_eng (f : FnId) (x : Fn) (d : Dev) : (setFn f x d).eng = d.eng := rfl
@[simp] theorem setFn_tre (f : FnId) (x : Fn) (d : Dev) : (setFn f x d).tre = d.tre := rfl
@[simp] theorem setFn_rt (f : FnId) (x : Fn) (d : Dev) : (setFn f x d).rt = d.rt := rfl
@[simp] theorem setFn_ports (f : FnId) (x : Fn) (d : Dev) : (setFn f x d).ports = d.ports := rfl
@[simp] theorem setFn_tc (f : FnId) (x : Fn) (d : Dev) : (setFn f x d).tc = d.tc := rfl
@[simp] theorem setFn_svc (f : FnId) (x : Fn) (d : Dev) : (setFn f x d).svc = d.svc := rfl
@[simp] theorem setFn_ft (f : FnId) (x : Fn) (d : Dev) : (setFn f x d).ft = d.ft := rfl
@[simp] theorem setFn_isl (f : FnId) (x : Fn) (d : Dev) : (setFn f x d).isl = d.isl := rfl
@[simp] theorem setFn_flt (f : FnId) (x : Fn) (d : Dev) : (setFn f x d).flt = d.flt := rfl
@[simp] theorem setFn_boot (f : FnId) (x : Fn) (d : Dev) : (setFn f x d).boot = d.boot := rfl
@[simp] theorem setFn_mode (f : FnId) (x : Fn) (d : Dev) : (setFn f x d).mode = d.mode := rfl
@[simp] theorem setFn_modeSt (f : FnId) (x : Fn) (d : Dev) : (setFn f x d).modeSt = d.modeSt := rfl
@[simp] theorem setFn_pmu (f : FnId) (x : Fn) (d : Dev) : (setFn f x d).pmu = d.pmu := rfl
@[simp] theorem setFn_ink (f : FnId) (x : Fn) (d : Dev) : (setFn f x d).ink = d.ink := rfl
@[simp] theorem setFn_cfg (f : FnId) (x : Fn) (d : Dev) : (setFn f x d).cfg = d.cfg := rfl
@[simp] theorem setFn_pace (f : FnId) (x : Fn) (d : Dev) : (setFn f x d).pace = d.pace := rfl
@[simp] theorem setFn_therm (f : FnId) (x : Fn) (d : Dev) : (setFn f x d).therm = d.therm := rfl
@[simp] theorem setFn_jtag (f : FnId) (x : Fn) (d : Dev) : (setFn f x d).jtag = d.jtag := rfl
@[simp] theorem setFn_regs (f : FnId) (x : Fn) (d : Dev) : (setFn f x d).regs = d.regs := rfl
@[simp] theorem setFn_stg (f : FnId) (x : Fn) (d : Dev) : (setFn f x d).stg = d.stg := rfl
@[simp] theorem setFn_out (f : FnId) (x : Fn) (d : Dev) : (setFn f x d).out = d.out := rfl
@[simp] theorem setFn_free (f : FnId) (x : Fn) (d : Dev) : (setFn f x d).free = d.free := rfl
@[simp] theorem setFn_ownerPort (f : FnId) (x : Fn) (d : Dev) : (setFn f x d).ownerPort = d.ownerPort := rfl

/-! ### updFn changes `fns` -/

@[simp] theorem updFn_clk (f : FnId) (g : Fn → Fn) (d : Dev) : (updFn f g d).clk = d.clk := rfl
@[simp] theorem updFn_fuse (f : FnId) (g : Fn → Fn) (d : Dev) : (updFn f g d).fuse = d.fuse := rfl
@[simp] theorem updFn_strap (f : FnId) (g : Fn → Fn) (d : Dev) : (updFn f g d).strap = d.strap := rfl
@[simp] theorem updFn_hp (f : FnId) (g : Fn → Fn) (d : Dev) : (updFn f g d).hp = d.hp := rfl
@[simp] theorem updFn_xl (f : FnId) (g : Fn → Fn) (d : Dev) : (updFn f g d).xl = d.xl := rfl
@[simp] theorem updFn_xpt (f : FnId) (g : Fn → Fn) (d : Dev) : (updFn f g d).xpt = d.xpt := rfl
@[simp] theorem updFn_mtc (f : FnId) (g : Fn → Fn) (d : Dev) : (updFn f g d).mtc = d.mtc := rfl
@[simp] theorem updFn_eng (f : FnId) (g : Fn → Fn) (d : Dev) : (updFn f g d).eng = d.eng := rfl
@[simp] theorem updFn_tre (f : FnId) (g : Fn → Fn) (d : Dev) : (updFn f g d).tre = d.tre := rfl
@[simp] theorem updFn_rt (f : FnId) (g : Fn → Fn) (d : Dev) : (updFn f g d).rt = d.rt := rfl
@[simp] theorem updFn_ports (f : FnId) (g : Fn → Fn) (d : Dev) : (updFn f g d).ports = d.ports := rfl
@[simp] theorem updFn_tc (f : FnId) (g : Fn → Fn) (d : Dev) : (updFn f g d).tc = d.tc := rfl
@[simp] theorem updFn_svc (f : FnId) (g : Fn → Fn) (d : Dev) : (updFn f g d).svc = d.svc := rfl
@[simp] theorem updFn_ft (f : FnId) (g : Fn → Fn) (d : Dev) : (updFn f g d).ft = d.ft := rfl
@[simp] theorem updFn_isl (f : FnId) (g : Fn → Fn) (d : Dev) : (updFn f g d).isl = d.isl := rfl
@[simp] theorem updFn_flt (f : FnId) (g : Fn → Fn) (d : Dev) : (updFn f g d).flt = d.flt := rfl
@[simp] theorem updFn_boot (f : FnId) (g : Fn → Fn) (d : Dev) : (updFn f g d).boot = d.boot := rfl
@[simp] theorem updFn_mode (f : FnId) (g : Fn → Fn) (d : Dev) : (updFn f g d).mode = d.mode := rfl
@[simp] theorem updFn_modeSt (f : FnId) (g : Fn → Fn) (d : Dev) : (updFn f g d).modeSt = d.modeSt := rfl
@[simp] theorem updFn_pmu (f : FnId) (g : Fn → Fn) (d : Dev) : (updFn f g d).pmu = d.pmu := rfl
@[simp] theorem updFn_ink (f : FnId) (g : Fn → Fn) (d : Dev) : (updFn f g d).ink = d.ink := rfl
@[simp] theorem updFn_cfg (f : FnId) (g : Fn → Fn) (d : Dev) : (updFn f g d).cfg = d.cfg := rfl
@[simp] theorem updFn_pace (f : FnId) (g : Fn → Fn) (d : Dev) : (updFn f g d).pace = d.pace := rfl
@[simp] theorem updFn_therm (f : FnId) (g : Fn → Fn) (d : Dev) : (updFn f g d).therm = d.therm := rfl
@[simp] theorem updFn_jtag (f : FnId) (g : Fn → Fn) (d : Dev) : (updFn f g d).jtag = d.jtag := rfl
@[simp] theorem updFn_regs (f : FnId) (g : Fn → Fn) (d : Dev) : (updFn f g d).regs = d.regs := rfl
@[simp] theorem updFn_stg (f : FnId) (g : Fn → Fn) (d : Dev) : (updFn f g d).stg = d.stg := rfl
@[simp] theorem updFn_out (f : FnId) (g : Fn → Fn) (d : Dev) : (updFn f g d).out = d.out := rfl
@[simp] theorem updFn_free (f : FnId) (g : Fn → Fn) (d : Dev) : (updFn f g d).free = d.free := rfl
@[simp] theorem updFn_ownerPort (f : FnId) (g : Fn → Fn) (d : Dev) : (updFn f g d).ownerPort = d.ownerPort := rfl

/-! ### occur changes `pmu` -/

@[simp] theorem occur_clk (o : Occ) (d : Dev) : (occur o d).clk = d.clk := rfl
@[simp] theorem occur_fuse (o : Occ) (d : Dev) : (occur o d).fuse = d.fuse := rfl
@[simp] theorem occur_strap (o : Occ) (d : Dev) : (occur o d).strap = d.strap := rfl
@[simp] theorem occur_hp (o : Occ) (d : Dev) : (occur o d).hp = d.hp := rfl
@[simp] theorem occur_fns (o : Occ) (d : Dev) : (occur o d).fns = d.fns := rfl
@[simp] theorem occur_xl (o : Occ) (d : Dev) : (occur o d).xl = d.xl := rfl
@[simp] theorem occur_xpt (o : Occ) (d : Dev) : (occur o d).xpt = d.xpt := rfl
@[simp] theorem occur_mtc (o : Occ) (d : Dev) : (occur o d).mtc = d.mtc := rfl
@[simp] theorem occur_eng (o : Occ) (d : Dev) : (occur o d).eng = d.eng := rfl
@[simp] theorem occur_tre (o : Occ) (d : Dev) : (occur o d).tre = d.tre := rfl
@[simp] theorem occur_rt (o : Occ) (d : Dev) : (occur o d).rt = d.rt := rfl
@[simp] theorem occur_ports (o : Occ) (d : Dev) : (occur o d).ports = d.ports := rfl
@[simp] theorem occur_tc (o : Occ) (d : Dev) : (occur o d).tc = d.tc := rfl
@[simp] theorem occur_svc (o : Occ) (d : Dev) : (occur o d).svc = d.svc := rfl
@[simp] theorem occur_ft (o : Occ) (d : Dev) : (occur o d).ft = d.ft := rfl
@[simp] theorem occur_isl (o : Occ) (d : Dev) : (occur o d).isl = d.isl := rfl
@[simp] theorem occur_flt (o : Occ) (d : Dev) : (occur o d).flt = d.flt := rfl
@[simp] theorem occur_boot (o : Occ) (d : Dev) : (occur o d).boot = d.boot := rfl
@[simp] theorem occur_mode (o : Occ) (d : Dev) : (occur o d).mode = d.mode := rfl
@[simp] theorem occur_modeSt (o : Occ) (d : Dev) : (occur o d).modeSt = d.modeSt := rfl
@[simp] theorem occur_ink (o : Occ) (d : Dev) : (occur o d).ink = d.ink := rfl
@[simp] theorem occur_cfg (o : Occ) (d : Dev) : (occur o d).cfg = d.cfg := rfl
@[simp] theorem occur_pace (o : Occ) (d : Dev) : (occur o d).pace = d.pace := rfl
@[simp] theorem occur_therm (o : Occ) (d : Dev) : (occur o d).therm = d.therm := rfl
@[simp] theorem occur_jtag (o : Occ) (d : Dev) : (occur o d).jtag = d.jtag := rfl
@[simp] theorem occur_regs (o : Occ) (d : Dev) : (occur o d).regs = d.regs := rfl
@[simp] theorem occur_stg (o : Occ) (d : Dev) : (occur o d).stg = d.stg := rfl
@[simp] theorem occur_out (o : Occ) (d : Dev) : (occur o d).out = d.out := rfl
@[simp] theorem occur_free (o : Occ) (d : Dev) : (occur o d).free = d.free := rfl
@[simp] theorem occur_ownerPort (o : Occ) (d : Dev) : (occur o d).ownerPort = d.ownerPort := rfl

/-! ### tally changes `isl` -/

@[simp] theorem tally_clk (f : FnId) (w n : Nat) (d : Dev) : (tally f w n d).clk = d.clk := rfl
@[simp] theorem tally_fuse (f : FnId) (w n : Nat) (d : Dev) : (tally f w n d).fuse = d.fuse := rfl
@[simp] theorem tally_strap (f : FnId) (w n : Nat) (d : Dev) : (tally f w n d).strap = d.strap := rfl
@[simp] theorem tally_hp (f : FnId) (w n : Nat) (d : Dev) : (tally f w n d).hp = d.hp := rfl
@[simp] theorem tally_fns (f : FnId) (w n : Nat) (d : Dev) : (tally f w n d).fns = d.fns := rfl
@[simp] theorem tally_xl (f : FnId) (w n : Nat) (d : Dev) : (tally f w n d).xl = d.xl := rfl
@[simp] theorem tally_xpt (f : FnId) (w n : Nat) (d : Dev) : (tally f w n d).xpt = d.xpt := rfl
@[simp] theorem tally_mtc (f : FnId) (w n : Nat) (d : Dev) : (tally f w n d).mtc = d.mtc := rfl
@[simp] theorem tally_eng (f : FnId) (w n : Nat) (d : Dev) : (tally f w n d).eng = d.eng := rfl
@[simp] theorem tally_tre (f : FnId) (w n : Nat) (d : Dev) : (tally f w n d).tre = d.tre := rfl
@[simp] theorem tally_rt (f : FnId) (w n : Nat) (d : Dev) : (tally f w n d).rt = d.rt := rfl
@[simp] theorem tally_ports (f : FnId) (w n : Nat) (d : Dev) : (tally f w n d).ports = d.ports := rfl
@[simp] theorem tally_tc (f : FnId) (w n : Nat) (d : Dev) : (tally f w n d).tc = d.tc := rfl
@[simp] theorem tally_svc (f : FnId) (w n : Nat) (d : Dev) : (tally f w n d).svc = d.svc := rfl
@[simp] theorem tally_ft (f : FnId) (w n : Nat) (d : Dev) : (tally f w n d).ft = d.ft := rfl
@[simp] theorem tally_flt (f : FnId) (w n : Nat) (d : Dev) : (tally f w n d).flt = d.flt := rfl
@[simp] theorem tally_boot (f : FnId) (w n : Nat) (d : Dev) : (tally f w n d).boot = d.boot := rfl
@[simp] theorem tally_mode (f : FnId) (w n : Nat) (d : Dev) : (tally f w n d).mode = d.mode := rfl
@[simp] theorem tally_modeSt (f : FnId) (w n : Nat) (d : Dev) : (tally f w n d).modeSt = d.modeSt := rfl
@[simp] theorem tally_pmu (f : FnId) (w n : Nat) (d : Dev) : (tally f w n d).pmu = d.pmu := rfl
@[simp] theorem tally_ink (f : FnId) (w n : Nat) (d : Dev) : (tally f w n d).ink = d.ink := rfl
@[simp] theorem tally_cfg (f : FnId) (w n : Nat) (d : Dev) : (tally f w n d).cfg = d.cfg := rfl
@[simp] theorem tally_pace (f : FnId) (w n : Nat) (d : Dev) : (tally f w n d).pace = d.pace := rfl
@[simp] theorem tally_therm (f : FnId) (w n : Nat) (d : Dev) : (tally f w n d).therm = d.therm := rfl
@[simp] theorem tally_jtag (f : FnId) (w n : Nat) (d : Dev) : (tally f w n d).jtag = d.jtag := rfl
@[simp] theorem tally_regs (f : FnId) (w n : Nat) (d : Dev) : (tally f w n d).regs = d.regs := rfl
@[simp] theorem tally_stg (f : FnId) (w n : Nat) (d : Dev) : (tally f w n d).stg = d.stg := rfl
@[simp] theorem tally_out (f : FnId) (w n : Nat) (d : Dev) : (tally f w n d).out = d.out := rfl
@[simp] theorem tally_free (f : FnId) (w n : Nat) (d : Dev) : (tally f w n d).free = d.free := rfl
@[simp] theorem tally_ownerPort (f : FnId) (w n : Nat) (d : Dev) : (tally f w n d).ownerPort = d.ownerPort := rfl

/-! ### setConn changes `xpt` -/

@[simp] theorem setConn_clk (n : Nat) (c : Conn) (d : Dev) : (setConn n c d).clk = d.clk := rfl
@[simp] theorem setConn_fuse (n : Nat) (c : Conn) (d : Dev) : (setConn n c d).fuse = d.fuse := rfl
@[simp] theorem setConn_strap (n : Nat) (c : Conn) (d : Dev) : (setConn n c d).strap = d.strap := rfl
@[simp] theorem setConn_hp (n : Nat) (c : Conn) (d : Dev) : (setConn n c d).hp = d.hp := rfl
@[simp] theorem setConn_fns (n : Nat) (c : Conn) (d : Dev) : (setConn n c d).fns = d.fns := rfl
@[simp] theorem setConn_xl (n : Nat) (c : Conn) (d : Dev) : (setConn n c d).xl = d.xl := rfl
@[simp] theorem setConn_mtc (n : Nat) (c : Conn) (d : Dev) : (setConn n c d).mtc = d.mtc := rfl
@[simp] theorem setConn_eng (n : Nat) (c : Conn) (d : Dev) : (setConn n c d).eng = d.eng := rfl
@[simp] theorem setConn_tre (n : Nat) (c : Conn) (d : Dev) : (setConn n c d).tre = d.tre := rfl
@[simp] theorem setConn_rt (n : Nat) (c : Conn) (d : Dev) : (setConn n c d).rt = d.rt := rfl
@[simp] theorem setConn_ports (n : Nat) (c : Conn) (d : Dev) : (setConn n c d).ports = d.ports := rfl
@[simp] theorem setConn_tc (n : Nat) (c : Conn) (d : Dev) : (setConn n c d).tc = d.tc := rfl
@[simp] theorem setConn_svc (n : Nat) (c : Conn) (d : Dev) : (setConn n c d).svc = d.svc := rfl
@[simp] theorem setConn_ft (n : Nat) (c : Conn) (d : Dev) : (setConn n c d).ft = d.ft := rfl
@[simp] theorem setConn_isl (n : Nat) (c : Conn) (d : Dev) : (setConn n c d).isl = d.isl := rfl
@[simp] theorem setConn_flt (n : Nat) (c : Conn) (d : Dev) : (setConn n c d).flt = d.flt := rfl
@[simp] theorem setConn_boot (n : Nat) (c : Conn) (d : Dev) : (setConn n c d).boot = d.boot := rfl
@[simp] theorem setConn_mode (n : Nat) (c : Conn) (d : Dev) : (setConn n c d).mode = d.mode := rfl
@[simp] theorem setConn_modeSt (n : Nat) (c : Conn) (d : Dev) : (setConn n c d).modeSt = d.modeSt := rfl
@[simp] theorem setConn_pmu (n : Nat) (c : Conn) (d : Dev) : (setConn n c d).pmu = d.pmu := rfl
@[simp] theorem setConn_ink (n : Nat) (c : Conn) (d : Dev) : (setConn n c d).ink = d.ink := rfl
@[simp] theorem setConn_cfg (n : Nat) (c : Conn) (d : Dev) : (setConn n c d).cfg = d.cfg := rfl
@[simp] theorem setConn_pace (n : Nat) (c : Conn) (d : Dev) : (setConn n c d).pace = d.pace := rfl
@[simp] theorem setConn_therm (n : Nat) (c : Conn) (d : Dev) : (setConn n c d).therm = d.therm := rfl
@[simp] theorem setConn_jtag (n : Nat) (c : Conn) (d : Dev) : (setConn n c d).jtag = d.jtag := rfl
@[simp] theorem setConn_regs (n : Nat) (c : Conn) (d : Dev) : (setConn n c d).regs = d.regs := rfl
@[simp] theorem setConn_stg (n : Nat) (c : Conn) (d : Dev) : (setConn n c d).stg = d.stg := rfl
@[simp] theorem setConn_out (n : Nat) (c : Conn) (d : Dev) : (setConn n c d).out = d.out := rfl
@[simp] theorem setConn_free (n : Nat) (c : Conn) (d : Dev) : (setConn n c d).free = d.free := rfl
@[simp] theorem setConn_ownerPort (n : Nat) (c : Conn) (d : Dev) : (setConn n c d).ownerPort = d.ownerPort := rfl

/-! ### setMctx changes `mtc` -/

@[simp] theorem setMctx_clk (m : Nat) (x : Mctx) (d : Dev) : (setMctx m x d).clk = d.clk := rfl
@[simp] theorem setMctx_fuse (m : Nat) (x : Mctx) (d : Dev) : (setMctx m x d).fuse = d.fuse := rfl
@[simp] theorem setMctx_strap (m : Nat) (x : Mctx) (d : Dev) : (setMctx m x d).strap = d.strap := rfl
@[simp] theorem setMctx_hp (m : Nat) (x : Mctx) (d : Dev) : (setMctx m x d).hp = d.hp := rfl
@[simp] theorem setMctx_fns (m : Nat) (x : Mctx) (d : Dev) : (setMctx m x d).fns = d.fns := rfl
@[simp] theorem setMctx_xl (m : Nat) (x : Mctx) (d : Dev) : (setMctx m x d).xl = d.xl := rfl
@[simp] theorem setMctx_xpt (m : Nat) (x : Mctx) (d : Dev) : (setMctx m x d).xpt = d.xpt := rfl
@[simp] theorem setMctx_eng (m : Nat) (x : Mctx) (d : Dev) : (setMctx m x d).eng = d.eng := rfl
@[simp] theorem setMctx_tre (m : Nat) (x : Mctx) (d : Dev) : (setMctx m x d).tre = d.tre := rfl
@[simp] theorem setMctx_rt (m : Nat) (x : Mctx) (d : Dev) : (setMctx m x d).rt = d.rt := rfl
@[simp] theorem setMctx_ports (m : Nat) (x : Mctx) (d : Dev) : (setMctx m x d).ports = d.ports := rfl
@[simp] theorem setMctx_tc (m : Nat) (x : Mctx) (d : Dev) : (setMctx m x d).tc = d.tc := rfl
@[simp] theorem setMctx_svc (m : Nat) (x : Mctx) (d : Dev) : (setMctx m x d).svc = d.svc := rfl
@[simp] theorem setMctx_ft (m : Nat) (x : Mctx) (d : Dev) : (setMctx m x d).ft = d.ft := rfl
@[simp] theorem setMctx_isl (m : Nat) (x : Mctx) (d : Dev) : (setMctx m x d).isl = d.isl := rfl
@[simp] theorem setMctx_flt (m : Nat) (x : Mctx) (d : Dev) : (setMctx m x d).flt = d.flt := rfl
@[simp] theorem setMctx_boot (m : Nat) (x : Mctx) (d : Dev) : (setMctx m x d).boot = d.boot := rfl
@[simp] theorem setMctx_mode (m : Nat) (x : Mctx) (d : Dev) : (setMctx m x d).mode = d.mode := rfl
@[simp] theorem setMctx_modeSt (m : Nat) (x : Mctx) (d : Dev) : (setMctx m x d).modeSt = d.modeSt := rfl
@[simp] theorem setMctx_pmu (m : Nat) (x : Mctx) (d : Dev) : (setMctx m x d).pmu = d.pmu := rfl
@[simp] theorem setMctx_ink (m : Nat) (x : Mctx) (d : Dev) : (setMctx m x d).ink = d.ink := rfl
@[simp] theorem setMctx_cfg (m : Nat) (x : Mctx) (d : Dev) : (setMctx m x d).cfg = d.cfg := rfl
@[simp] theorem setMctx_pace (m : Nat) (x : Mctx) (d : Dev) : (setMctx m x d).pace = d.pace := rfl
@[simp] theorem setMctx_therm (m : Nat) (x : Mctx) (d : Dev) : (setMctx m x d).therm = d.therm := rfl
@[simp] theorem setMctx_jtag (m : Nat) (x : Mctx) (d : Dev) : (setMctx m x d).jtag = d.jtag := rfl
@[simp] theorem setMctx_regs (m : Nat) (x : Mctx) (d : Dev) : (setMctx m x d).regs = d.regs := rfl
@[simp] theorem setMctx_stg (m : Nat) (x : Mctx) (d : Dev) : (setMctx m x d).stg = d.stg := rfl
@[simp] theorem setMctx_out (m : Nat) (x : Mctx) (d : Dev) : (setMctx m x d).out = d.out := rfl
@[simp] theorem setMctx_free (m : Nat) (x : Mctx) (d : Dev) : (setMctx m x d).free = d.free := rfl
@[simp] theorem setMctx_ownerPort (m : Nat) (x : Mctx) (d : Dev) : (setMctx m x d).ownerPort = d.ownerPort := rfl

/-! ### setRec changes `flt` -/

@[simp] theorem setRec_clk (n : Nat) (r : FltRec) (d : Dev) : (setRec n r d).clk = d.clk := rfl
@[simp] theorem setRec_fuse (n : Nat) (r : FltRec) (d : Dev) : (setRec n r d).fuse = d.fuse := rfl
@[simp] theorem setRec_strap (n : Nat) (r : FltRec) (d : Dev) : (setRec n r d).strap = d.strap := rfl
@[simp] theorem setRec_hp (n : Nat) (r : FltRec) (d : Dev) : (setRec n r d).hp = d.hp := rfl
@[simp] theorem setRec_fns (n : Nat) (r : FltRec) (d : Dev) : (setRec n r d).fns = d.fns := rfl
@[simp] theorem setRec_xl (n : Nat) (r : FltRec) (d : Dev) : (setRec n r d).xl = d.xl := rfl
@[simp] theorem setRec_xpt (n : Nat) (r : FltRec) (d : Dev) : (setRec n r d).xpt = d.xpt := rfl
@[simp] theorem setRec_mtc (n : Nat) (r : FltRec) (d : Dev) : (setRec n r d).mtc = d.mtc := rfl
@[simp] theorem setRec_eng (n : Nat) (r : FltRec) (d : Dev) : (setRec n r d).eng = d.eng := rfl
@[simp] theorem setRec_tre (n : Nat) (r : FltRec) (d : Dev) : (setRec n r d).tre = d.tre := rfl
@[simp] theorem setRec_rt (n : Nat) (r : FltRec) (d : Dev) : (setRec n r d).rt = d.rt := rfl
@[simp] theorem setRec_ports (n : Nat) (r : FltRec) (d : Dev) : (setRec n r d).ports = d.ports := rfl
@[simp] theorem setRec_tc (n : Nat) (r : FltRec) (d : Dev) : (setRec n r d).tc = d.tc := rfl
@[simp] theorem setRec_svc (n : Nat) (r : FltRec) (d : Dev) : (setRec n r d).svc = d.svc := rfl
@[simp] theorem setRec_ft (n : Nat) (r : FltRec) (d : Dev) : (setRec n r d).ft = d.ft := rfl
@[simp] theorem setRec_isl (n : Nat) (r : FltRec) (d : Dev) : (setRec n r d).isl = d.isl := rfl
@[simp] theorem setRec_boot (n : Nat) (r : FltRec) (d : Dev) : (setRec n r d).boot = d.boot := rfl
@[simp] theorem setRec_mode (n : Nat) (r : FltRec) (d : Dev) : (setRec n r d).mode = d.mode := rfl
@[simp] theorem setRec_modeSt (n : Nat) (r : FltRec) (d : Dev) : (setRec n r d).modeSt = d.modeSt := rfl
@[simp] theorem setRec_pmu (n : Nat) (r : FltRec) (d : Dev) : (setRec n r d).pmu = d.pmu := rfl
@[simp] theorem setRec_ink (n : Nat) (r : FltRec) (d : Dev) : (setRec n r d).ink = d.ink := rfl
@[simp] theorem setRec_cfg (n : Nat) (r : FltRec) (d : Dev) : (setRec n r d).cfg = d.cfg := rfl
@[simp] theorem setRec_pace (n : Nat) (r : FltRec) (d : Dev) : (setRec n r d).pace = d.pace := rfl
@[simp] theorem setRec_therm (n : Nat) (r : FltRec) (d : Dev) : (setRec n r d).therm = d.therm := rfl
@[simp] theorem setRec_jtag (n : Nat) (r : FltRec) (d : Dev) : (setRec n r d).jtag = d.jtag := rfl
@[simp] theorem setRec_regs (n : Nat) (r : FltRec) (d : Dev) : (setRec n r d).regs = d.regs := rfl
@[simp] theorem setRec_stg (n : Nat) (r : FltRec) (d : Dev) : (setRec n r d).stg = d.stg := rfl
@[simp] theorem setRec_out (n : Nat) (r : FltRec) (d : Dev) : (setRec n r d).out = d.out := rfl
@[simp] theorem setRec_free (n : Nat) (r : FltRec) (d : Dev) : (setRec n r d).free = d.free := rfl
@[simp] theorem setRec_ownerPort (n : Nat) (r : FltRec) (d : Dev) : (setRec n r d).ownerPort = d.ownerPort := rfl

/-! ### setPort changes `ports` -/

@[simp] theorem setPort_clk (p : Nat) (x : Port) (d : Dev) : (setPort p x d).clk = d.clk := rfl
@[simp] theorem setPort_fuse (p : Nat) (x : Port) (d : Dev) : (setPort p x d).fuse = d.fuse := rfl
@[simp] theorem setPort_strap (p : Nat) (x : Port) (d : Dev) : (setPort p x d).strap = d.strap := rfl
@[simp] theorem setPort_hp (p : Nat) (x : Port) (d : Dev) : (setPort p x d).hp = d.hp := rfl
@[simp] theorem setPort_fns (p : Nat) (x : Port) (d : Dev) : (setPort p x d).fns = d.fns := rfl
@[simp] theorem setPort_xl (p : Nat) (x : Port) (d : Dev) : (setPort p x d).xl = d.xl := rfl
@[simp] theorem setPort_xpt (p : Nat) (x : Port) (d : Dev) : (setPort p x d).xpt = d.xpt := rfl
@[simp] theorem setPort_mtc (p : Nat) (x : Port) (d : Dev) : (setPort p x d).mtc = d.mtc := rfl
@[simp] theorem setPort_eng (p : Nat) (x : Port) (d : Dev) : (setPort p x d).eng = d.eng := rfl
@[simp] theorem setPort_tre (p : Nat) (x : Port) (d : Dev) : (setPort p x d).tre = d.tre := rfl
@[simp] theorem setPort_rt (p : Nat) (x : Port) (d : Dev) : (setPort p x d).rt = d.rt := rfl
@[simp] theorem setPort_tc (p : Nat) (x : Port) (d : Dev) : (setPort p x d).tc = d.tc := rfl
@[simp] theorem setPort_svc (p : Nat) (x : Port) (d : Dev) : (setPort p x d).svc = d.svc := rfl
@[simp] theorem setPort_ft (p : Nat) (x : Port) (d : Dev) : (setPort p x d).ft = d.ft := rfl
@[simp] theorem setPort_isl (p : Nat) (x : Port) (d : Dev) : (setPort p x d).isl = d.isl := rfl
@[simp] theorem setPort_flt (p : Nat) (x : Port) (d : Dev) : (setPort p x d).flt = d.flt := rfl
@[simp] theorem setPort_boot (p : Nat) (x : Port) (d : Dev) : (setPort p x d).boot = d.boot := rfl
@[simp] theorem setPort_mode (p : Nat) (x : Port) (d : Dev) : (setPort p x d).mode = d.mode := rfl
@[simp] theorem setPort_modeSt (p : Nat) (x : Port) (d : Dev) : (setPort p x d).modeSt = d.modeSt := rfl
@[simp] theorem setPort_pmu (p : Nat) (x : Port) (d : Dev) : (setPort p x d).pmu = d.pmu := rfl
@[simp] theorem setPort_ink (p : Nat) (x : Port) (d : Dev) : (setPort p x d).ink = d.ink := rfl
@[simp] theorem setPort_cfg (p : Nat) (x : Port) (d : Dev) : (setPort p x d).cfg = d.cfg := rfl
@[simp] theorem setPort_pace (p : Nat) (x : Port) (d : Dev) : (setPort p x d).pace = d.pace := rfl
@[simp] theorem setPort_therm (p : Nat) (x : Port) (d : Dev) : (setPort p x d).therm = d.therm := rfl
@[simp] theorem setPort_jtag (p : Nat) (x : Port) (d : Dev) : (setPort p x d).jtag = d.jtag := rfl
@[simp] theorem setPort_regs (p : Nat) (x : Port) (d : Dev) : (setPort p x d).regs = d.regs := rfl
@[simp] theorem setPort_stg (p : Nat) (x : Port) (d : Dev) : (setPort p x d).stg = d.stg := rfl
@[simp] theorem setPort_out (p : Nat) (x : Port) (d : Dev) : (setPort p x d).out = d.out := rfl
@[simp] theorem setPort_free (p : Nat) (x : Port) (d : Dev) : (setPort p x d).free = d.free := rfl
@[simp] theorem setPort_ownerPort (p : Nat) (x : Port) (d : Dev) : (setPort p x d).ownerPort = d.ownerPort := rfl

/-! ### setSvc changes `svc` -/

@[simp] theorem setSvc_clk (n : Nat) (x : SvcPort) (d : Dev) : (setSvc n x d).clk = d.clk := rfl
@[simp] theorem setSvc_fuse (n : Nat) (x : SvcPort) (d : Dev) : (setSvc n x d).fuse = d.fuse := rfl
@[simp] theorem setSvc_strap (n : Nat) (x : SvcPort) (d : Dev) : (setSvc n x d).strap = d.strap := rfl
@[simp] theorem setSvc_hp (n : Nat) (x : SvcPort) (d : Dev) : (setSvc n x d).hp = d.hp := rfl
@[simp] theorem setSvc_fns (n : Nat) (x : SvcPort) (d : Dev) : (setSvc n x d).fns = d.fns := rfl
@[simp] theorem setSvc_xl (n : Nat) (x : SvcPort) (d : Dev) : (setSvc n x d).xl = d.xl := rfl
@[simp] theorem setSvc_xpt (n : Nat) (x : SvcPort) (d : Dev) : (setSvc n x d).xpt = d.xpt := rfl
@[simp] theorem setSvc_mtc (n : Nat) (x : SvcPort) (d : Dev) : (setSvc n x d).mtc = d.mtc := rfl
@[simp] theorem setSvc_eng (n : Nat) (x : SvcPort) (d : Dev) : (setSvc n x d).eng = d.eng := rfl
@[simp] theorem setSvc_tre (n : Nat) (x : SvcPort) (d : Dev) : (setSvc n x d).tre = d.tre := rfl
@[simp] theorem setSvc_rt (n : Nat) (x : SvcPort) (d : Dev) : (setSvc n x d).rt = d.rt := rfl
@[simp] theorem setSvc_ports (n : Nat) (x : SvcPort) (d : Dev) : (setSvc n x d).ports = d.ports := rfl
@[simp] theorem setSvc_tc (n : Nat) (x : SvcPort) (d : Dev) : (setSvc n x d).tc = d.tc := rfl
@[simp] theorem setSvc_ft (n : Nat) (x : SvcPort) (d : Dev) : (setSvc n x d).ft = d.ft := rfl
@[simp] theorem setSvc_isl (n : Nat) (x : SvcPort) (d : Dev) : (setSvc n x d).isl = d.isl := rfl
@[simp] theorem setSvc_flt (n : Nat) (x : SvcPort) (d : Dev) : (setSvc n x d).flt = d.flt := rfl
@[simp] theorem setSvc_boot (n : Nat) (x : SvcPort) (d : Dev) : (setSvc n x d).boot = d.boot := rfl
@[simp] theorem setSvc_mode (n : Nat) (x : SvcPort) (d : Dev) : (setSvc n x d).mode = d.mode := rfl
@[simp] theorem setSvc_modeSt (n : Nat) (x : SvcPort) (d : Dev) : (setSvc n x d).modeSt = d.modeSt := rfl
@[simp] theorem setSvc_pmu (n : Nat) (x : SvcPort) (d : Dev) : (setSvc n x d).pmu = d.pmu := rfl
@[simp] theorem setSvc_ink (n : Nat) (x : SvcPort) (d : Dev) : (setSvc n x d).ink = d.ink := rfl
@[simp] theorem setSvc_cfg (n : Nat) (x : SvcPort) (d : Dev) : (setSvc n x d).cfg = d.cfg := rfl
@[simp] theorem setSvc_pace (n : Nat) (x : SvcPort) (d : Dev) : (setSvc n x d).pace = d.pace := rfl
@[simp] theorem setSvc_therm (n : Nat) (x : SvcPort) (d : Dev) : (setSvc n x d).therm = d.therm := rfl
@[simp] theorem setSvc_jtag (n : Nat) (x : SvcPort) (d : Dev) : (setSvc n x d).jtag = d.jtag := rfl
@[simp] theorem setSvc_regs (n : Nat) (x : SvcPort) (d : Dev) : (setSvc n x d).regs = d.regs := rfl
@[simp] theorem setSvc_stg (n : Nat) (x : SvcPort) (d : Dev) : (setSvc n x d).stg = d.stg := rfl
@[simp] theorem setSvc_out (n : Nat) (x : SvcPort) (d : Dev) : (setSvc n x d).out = d.out := rfl
@[simp] theorem setSvc_free (n : Nat) (x : SvcPort) (d : Dev) : (setSvc n x d).free = d.free := rfl
@[simp] theorem setSvc_ownerPort (n : Nat) (x : SvcPort) (d : Dev) : (setSvc n x d).ownerPort = d.ownerPort := rfl

/-! ### setNode changes `tre` -/

@[simp] theorem setNode_clk (n : Nat) (x : TreeNode) (d : Dev) : (setNode n x d).clk = d.clk := rfl
@[simp] theorem setNode_fuse (n : Nat) (x : TreeNode) (d : Dev) : (setNode n x d).fuse = d.fuse := rfl
@[simp] theorem setNode_strap (n : Nat) (x : TreeNode) (d : Dev) : (setNode n x d).strap = d.strap := rfl
@[simp] theorem setNode_hp (n : Nat) (x : TreeNode) (d : Dev) : (setNode n x d).hp = d.hp := rfl
@[simp] theorem setNode_fns (n : Nat) (x : TreeNode) (d : Dev) : (setNode n x d).fns = d.fns := rfl
@[simp] theorem setNode_xl (n : Nat) (x : TreeNode) (d : Dev) : (setNode n x d).xl = d.xl := rfl
@[simp] theorem setNode_xpt (n : Nat) (x : TreeNode) (d : Dev) : (setNode n x d).xpt = d.xpt := rfl
@[simp] theorem setNode_mtc (n : Nat) (x : TreeNode) (d : Dev) : (setNode n x d).mtc = d.mtc := rfl
@[simp] theorem setNode_eng (n : Nat) (x : TreeNode) (d : Dev) : (setNode n x d).eng = d.eng := rfl
@[simp] theorem setNode_rt (n : Nat) (x : TreeNode) (d : Dev) : (setNode n x d).rt = d.rt := rfl
@[simp] theorem setNode_ports (n : Nat) (x : TreeNode) (d : Dev) : (setNode n x d).ports = d.ports := rfl
@[simp] theorem setNode_tc (n : Nat) (x : TreeNode) (d : Dev) : (setNode n x d).tc = d.tc := rfl
@[simp] theorem setNode_svc (n : Nat) (x : TreeNode) (d : Dev) : (setNode n x d).svc = d.svc := rfl
@[simp] theorem setNode_ft (n : Nat) (x : TreeNode) (d : Dev) : (setNode n x d).ft = d.ft := rfl
@[simp] theorem setNode_isl (n : Nat) (x : TreeNode) (d : Dev) : (setNode n x d).isl = d.isl := rfl
@[simp] theorem setNode_flt (n : Nat) (x : TreeNode) (d : Dev) : (setNode n x d).flt = d.flt := rfl
@[simp] theorem setNode_boot (n : Nat) (x : TreeNode) (d : Dev) : (setNode n x d).boot = d.boot := rfl
@[simp] theorem setNode_mode (n : Nat) (x : TreeNode) (d : Dev) : (setNode n x d).mode = d.mode := rfl
@[simp] theorem setNode_modeSt (n : Nat) (x : TreeNode) (d : Dev) : (setNode n x d).modeSt = d.modeSt := rfl
@[simp] theorem setNode_pmu (n : Nat) (x : TreeNode) (d : Dev) : (setNode n x d).pmu = d.pmu := rfl
@[simp] theorem setNode_ink (n : Nat) (x : TreeNode) (d : Dev) : (setNode n x d).ink = d.ink := rfl
@[simp] theorem setNode_cfg (n : Nat) (x : TreeNode) (d : Dev) : (setNode n x d).cfg = d.cfg := rfl
@[simp] theorem setNode_pace (n : Nat) (x : TreeNode) (d : Dev) : (setNode n x d).pace = d.pace := rfl
@[simp] theorem setNode_therm (n : Nat) (x : TreeNode) (d : Dev) : (setNode n x d).therm = d.therm := rfl
@[simp] theorem setNode_jtag (n : Nat) (x : TreeNode) (d : Dev) : (setNode n x d).jtag = d.jtag := rfl
@[simp] theorem setNode_regs (n : Nat) (x : TreeNode) (d : Dev) : (setNode n x d).regs = d.regs := rfl
@[simp] theorem setNode_stg (n : Nat) (x : TreeNode) (d : Dev) : (setNode n x d).stg = d.stg := rfl
@[simp] theorem setNode_out (n : Nat) (x : TreeNode) (d : Dev) : (setNode n x d).out = d.out := rfl
@[simp] theorem setNode_free (n : Nat) (x : TreeNode) (d : Dev) : (setNode n x d).free = d.free := rfl
@[simp] theorem setNode_ownerPort (n : Nat) (x : TreeNode) (d : Dev) : (setNode n x d).ownerPort = d.ownerPort := rfl

/-! ### Reading back -/

@[simp] theorem emit_out (o : Out) (d : Dev) : (emit o d).out = d.out ++ [o] := rfl
@[simp] theorem getFn_setFn (f : FnId) (x : Fn) (d : Dev) : getFn (setFn f x d) f = x := by simp [getFn, setFn]
@[simp] theorem getFn_updFn (f : FnId) (g : Fn → Fn) (d : Dev) : getFn (updFn f g d) f = g (getFn d f) := by simp [updFn]
@[simp] theorem getRec_setRec (n : Nat) (r : FltRec) (d : Dev) : getRec (setRec n r d) n = r := by simp [getRec, setRec]
@[simp] theorem getPort_setPort (p : Nat) (x : Port) (d : Dev) : getPort (setPort p x d) p = x := by simp [getPort, setPort]
@[simp] theorem getSvc_setSvc (n : Nat) (x : SvcPort) (d : Dev) : getSvc (setSvc n x d) n = x := by simp [getSvc, setSvc]
@[simp] theorem getNode_setNode (n : Nat) (x : TreeNode) (d : Dev) : getNode (setNode n x d) n = x := by simp [getNode, setNode]

/-! ### Events and contained errors -/

/-- The data path's state: translations, connections, matching, trees, routing, ports, time and the island. -/
def dataSide (d : Dev) : Xl × Xpt × Mtc × Tre × Rt × Tbl Port × Ft × Isl := (d.xl, d.xpt, d.mtc, d.tre, d.rt, d.ports, d.ft, d.isl)

@[simp] theorem dataSide_ite (c : Prop) [Decidable c] (a b : Dev) : dataSide (if c then a else b) = if c then dataSide a else dataSide b :=
  apply_ite _ _ _ _

@[simp] theorem emit_dataSide (o : Out) (d : Dev) : dataSide (emit o d) = dataSide d := rfl
@[simp] theorem setFn_dataSide (f : FnId) (x : Fn) (d : Dev) : dataSide (setFn f x d) = dataSide d := rfl
@[simp] theorem updFn_dataSide (f : FnId) (g : Fn → Fn) (d : Dev) : dataSide (updFn f g d) = dataSide d := rfl
@[simp] theorem setRec_dataSide (n : Nat) (r : FltRec) (d : Dev) : dataSide (setRec n r d) = dataSide d := rfl
@[simp] theorem setSvc_dataSide (n : Nat) (x : SvcPort) (d : Dev) : dataSide (setSvc n x d) = dataSide d := rfl

@[simp] theorem hostWrite_dataSide (f : FnId) (half : Bool) (addr : Nat) (bs : List Byte) (r : Bool) (d : Dev) :
    dataSide (hostWrite f half addr bs r d) = dataSide d := by
  unfold hostWrite; simp

@[simp] theorem fire_dataSide (f : FnId) (v : Nat) (d : Dev) : dataSide (fire f v d) = dataSide d := by
  unfold fire; simp

@[simp] theorem mergeEvent_dataSide (f : FnId) (c : Nat) (d : Dev) : dataSide (mergeEvent f c d) = dataSide d := by
  unfold mergeEvent; simp

@[simp] theorem writeEqe_dataSide (f : FnId) (q : Nat) (e : Eqe) (d : Dev) : dataSide (writeEqe f q e d) = dataSide d := by
  unfold writeEqe; dsimp only; split <;> simp

/-- Posting an event changes nothing of the data path. -/
@[simp] theorem postEvent_dataSide (f : FnId) (code : EvCode) (object : Word32) (a b : Word64) (d : Dev) :
    dataSide (postEvent f code object a b d) = dataSide d := by
  unfold postEvent; dsimp only; (repeat' split) <;> simp

@[simp] theorem postOwner_dataSide (code : EvCode) (object : Word32) (a b : Word64) (d : Dev) :
    dataSide (postOwner code object a b d) = dataSide d := by
  unfold postOwner; simp

theorem foldl_dataSide {α : Type} (g : Dev → α → Dev) (h : ∀ d x, dataSide (g d x) = dataSide d) (l : List α) (d : Dev) :
    dataSide (l.foldl g d) = dataSide d := by
  induction l generalizing d with
  | nil => rfl
  | cons x l ih => simp only [List.foldl_cons, ih, h]

@[simp] theorem postSubscribed_dataSide (code : EvCode) (object : Word32) (a b : Word64) (d : Dev) :
    dataSide (postSubscribed code object a b d) = dataSide d := by
  unfold postSubscribed; exact foldl_dataSide _ (fun d x => by simp) _ _

@[simp] theorem putFrame_dataSide (n : Nat) (f : Frame) (d : Dev) : dataSide (putFrame n f d) = dataSide d := by
  unfold putFrame; simp

@[simp] theorem svcPump_dataSide (n : Nat) : ∀ (k : Nat) (d : Dev), dataSide (svcPump n k d) = dataSide d := by
  intro k
  induction k with
  | zero => exact fun d => rfl
  | succ k ih => intro d; unfold svcPump; dsimp only; (repeat' split) <;> simp [ih]

@[simp] theorem svcSend_dataSide (n : Nat) (f : Frame) (d : Dev) : dataSide (svcSend n f d) = dataSide d := by
  unfold svcSend svcQueue; simp

@[simp] theorem sendNotify_dataSide (d : Dev) : dataSide (sendNotify d) = dataSide d := by
  unfold sendNotify
  split
  · rfl
  · unfold sendUpFrame
    split
    · rename_i h; split at h <;> cases h; rfl
    · rename_i h; split at h <;> cases h
      exact svcSend_dataSide _ _ d

@[simp] theorem inkFault_dataSide (n : Nat) (fresh : Bool) (d : Dev) : dataSide (inkFault n fresh d) = dataSide d := by
  unfold inkFault inkTrigger; dsimp only; (repeat' split) <;> rfl

@[simp] theorem newRec_dataSide (n : Nat) (r : FltRec) (d : Dev) : dataSide (newRec n r d) = dataSide d := by
  unfold newRec postRecorded; dsimp only; split
  · rw [postOwner_dataSide]; rfl
  · rfl

/-- Recording a contained error changes nothing of the data path. -/
@[simp] theorem report_contained_dataSide (n : Nat) (cause : Nat) (detail : Byte) (object : BitVec 24) (k : Nat) (d : Dev) :
    dataSide (report n .contained cause detail object k d) = dataSide d := by
  rw [show report n .contained cause detail object k d = reportError n .contained cause detail object k d from rfl]
  unfold reportError; dsimp only; split <;> rfl

/-! ### Storing a register leaves every unit alone -/

@[simp] theorem putReg_clk (o r : Nat) (v : Word64) (d : Dev) : (putReg o r v d).clk = d.clk := by unfold putReg; dsimp only; split <;> rfl
@[simp] theorem putReg_fuse (o r : Nat) (v : Word64) (d : Dev) : (putReg o r v d).fuse = d.fuse := by unfold putReg; dsimp only; split <;> rfl
@[simp] theorem putReg_strap (o r : Nat) (v : Word64) (d : Dev) : (putReg o r v d).strap = d.strap := by unfold putReg; dsimp only; split <;> rfl
@[simp] theorem putReg_hp (o r : Nat) (v : Word64) (d : Dev) : (putReg o r v d).hp = d.hp := by unfold putReg; dsimp only; split <;> rfl
@[simp] theorem putReg_fns (o r : Nat) (v : Word64) (d : Dev) : (putReg o r v d).fns = d.fns := by unfold putReg; dsimp only; split <;> rfl
@[simp] theorem putReg_xl (o r : Nat) (v : Word64) (d : Dev) : (putReg o r v d).xl = d.xl := by unfold putReg; dsimp only; split <;> rfl
@[simp] theorem putReg_xpt (o r : Nat) (v : Word64) (d : Dev) : (putReg o r v d).xpt = d.xpt := by unfold putReg; dsimp only; split <;> rfl
@[simp] theorem putReg_mtc (o r : Nat) (v : Word64) (d : Dev) : (putReg o r v d).mtc = d.mtc := by unfold putReg; dsimp only; split <;> rfl
@[simp] theorem putReg_eng (o r : Nat) (v : Word64) (d : Dev) : (putReg o r v d).eng = d.eng := by unfold putReg; dsimp only; split <;> rfl
@[simp] theorem putReg_tre (o r : Nat) (v : Word64) (d : Dev) : (putReg o r v d).tre = d.tre := by unfold putReg; dsimp only; split <;> rfl
@[simp] theorem putReg_rt (o r : Nat) (v : Word64) (d : Dev) : (putReg o r v d).rt = d.rt := by unfold putReg; dsimp only; split <;> rfl
@[simp] theorem putReg_ports (o r : Nat) (v : Word64) (d : Dev) : (putReg o r v d).ports = d.ports := by unfold putReg; dsimp only; split <;> rfl
@[simp] theorem putReg_tc (o r : Nat) (v : Word64) (d : Dev) : (putReg o r v d).tc = d.tc := by unfold putReg; dsimp only; split <;> rfl
@[simp] theorem putReg_svc (o r : Nat) (v : Word64) (d : Dev) : (putReg o r v d).svc = d.svc := by unfold putReg; dsimp only; split <;> rfl
@[simp] theorem putReg_ft (o r : Nat) (v : Word64) (d : Dev) : (putReg o r v d).ft = d.ft := by unfold putReg; dsimp only; split <;> rfl
@[simp] theorem putReg_isl (o r : Nat) (v : Word64) (d : Dev) : (putReg o r v d).isl = d.isl := by unfold putReg; dsimp only; split <;> rfl
@[simp] theorem putReg_flt (o r : Nat) (v : Word64) (d : Dev) : (putReg o r v d).flt = d.flt := by unfold putReg; dsimp only; split <;> rfl
@[simp] theorem putReg_boot (o r : Nat) (v : Word64) (d : Dev) : (putReg o r v d).boot = d.boot := by unfold putReg; dsimp only; split <;> rfl
@[simp] theorem putReg_mode (o r : Nat) (v : Word64) (d : Dev) : (putReg o r v d).mode = d.mode := by unfold putReg; dsimp only; split <;> rfl
@[simp] theorem putReg_pace (o r : Nat) (v : Word64) (d : Dev) : (putReg o r v d).pace = d.pace := by unfold putReg; dsimp only; split <;> rfl
@[simp] theorem putReg_therm (o r : Nat) (v : Word64) (d : Dev) : (putReg o r v d).therm = d.therm := by unfold putReg; dsimp only; split <;> rfl

end Sys2Proof.Machine
end

