-- ==== Sys2Proof/WellFormed.lean ====
section
/-!
DEFINITION. What a command must be to spell its row: the opcode or type it carries and the lengths its fields allow. Values the
specification has the device check and answer with a status are not checked here: such a command is well formed.
-/
namespace Sys2Proof

/-- A ring entry carries the opcode of its row in bits [7:0] of its first word (R59, R72). -/
def Desc.hasOp (op : Nat) (e : Desc) : Bool := e.w0.toNat % 256 == op

/-- FM_OP of a FABRIC_MGMT entry (R363). -/
def Desc.fmOp (e : Desc) : Nat := e.w2.toNat / 65536 % 4

/-- SKIND of a SEND packet (R166). -/
def Packet.skind (p : Packet) : Nat := p.key.toNat / 65536 % 4

/-- A data packet of its type, whose length the 13 bits of LEN can say (R119, R121). -/
def Packet.hasType (t : Byte) (p : Packet) : Bool := p.ptype == t && decide (52 + p.payload.length < 8192)

/-- A tree packet of its type, whose length the 13 bits of LEN can say (R209, R210). -/
def TreePkt.hasType (t : Byte) (p : TreePkt) : Bool := p.ptype == t && decide (52 + p.payload.length < 8192)

/-- A flit has 240 payload bytes, of which the model keeps those VALID says are in use (R287). -/
def Flit.sized (f : Flit) : Bool := f.payload.length == min f.valid.toNat 240

/-- A flit, or a frame of 1,088 symbols a lane at two-lane width and of 2,176 on one lane at one-lane width (R281, R282). -/
def Arrival.sized : Arrival → Bool
  | .flit f _ => f.sized
  | .frame a b => (a.length, b.length) == (1088, 1088) || (a.length, b.length) == (2176, 0) || (a.length, b.length) == (0, 2176)

/-- A service frame of its type, with a payload of at most 1,024 bytes (R351, R352). -/
def Frame.hasType (t : BitVec 4) (f : Frame) : Bool := f.ftype == t && decide (f.payload.length ≤ 1024)

/-- A read of an 8-byte register word takes its low half, its high half or both (R13). -/
def anyHalf (lo hi : Bool) : Bool := lo || hi

/-- The command spells its row. (DESIGN CHOICE, log entry 126) -/
def Instr.wellFormed (i : Instr) : Bool :=
  match i with
  | .createSq _ e => e.hasOp 0x01
  | .destroySq _ e => e.hasOp 0x02
  | .createCq _ e => e.hasOp 0x03
  | .destroyCq _ e => e.hasOp 0x04
  | .createEq _ e => e.hasOp 0x05
  | .destroyEq _ e => e.hasOp 0x06
  | .subscribeEvents _ e => e.hasOp 0x07
  | .queryQueue _ e => e.hasOp 0x08
  | .createConn _ e => e.hasOp 0x10
  | .destroyConn _ e => e.hasOp 0x11
  | .modifyConn _ e => e.hasOp 0x12
  | .createMatchCtx _ e => e.hasOp 0x18
  | .destroyMatchCtx _ e => e.hasOp 0x19
  | .registerRegion _ e => e.hasOp 0x20
  | .deregisterRegion _ e => e.hasOp 0x21
  | .deregisterRegionDone _ => true
  | .setTranslationRoot _ e => e.hasOp 0x22
  | .setTranslationRootDone _ => true
  | .invalidate _ e => e.hasOp 0x23
  | .invalidateDone _ => true
  | .resumeMark _ e => e.hasOp 0x24
  | .joinTree _ e => e.hasOp 0x28
  | .leaveTree _ e => e.hasOp 0x29
  | .setShaper _ e => e.hasOp 0x30
  | .setPolicer _ e => e.hasOp 0x31
  | .parkFunction _ e => e.hasOp 0x38
  | .parkFunctionDone _ => true
  | .unparkFunction _ e => e.hasOp 0x39
  | .unparkFunctionDone _ _ => true
  | .setFuncDomain _ e => e.hasOp 0x40
  | .setFuncQuota _ e _ => e.hasOp 0x41
  | .queryFunc _ e => e.hasOp 0x42
  | .setMode _ e => e.hasOp 0x48 && !e.w1.getLsbD 8
  | .setModeDeviceReset _ e => e.hasOp 0x48 && e.w1.getLsbD 8
  | .fabricMgmtSend _ e buf => e.hasOp 0x49 && e.fmOp != 1 && e.fmOp != 2 && decide (buf.length = 1024)
  | .fabricMgmtRecv _ e => e.hasOp 0x49 && e.fmOp == 1
  | .fabricMgmtLocal _ e buf => e.hasOp 0x49 && e.fmOp == 2 && decide (buf.length = 1024)
  | .faultClear _ e => e.hasOp 0x4A
  | .identify _ e => e.hasOp 0x50
  | .descriptorFetch _ _ _ => true
  | .nop _ _ e => e.hasOp 0x00
  | .put _ _ e => e.hasOp 0x01
  | .putFlag _ _ e => e.hasOp 0x02
  | .get _ _ e => e.hasOp 0x03
  | .atomic _ _ e => e.hasOp 0x04
  | .sendTagged _ _ e => e.hasOp 0x05
  | .postRecv _ _ e => e.hasOp 0x06
  | .note _ _ e => e.hasOp 0x07
  | .coll _ _ e => e.hasOp 0x08
  | .fence _ _ e => e.hasOp 0x09
  | .sqDoorbell _ _ _ => true
  | .aqDb _ _ => true
  | .acqDb _ _ => true
  | .cqDoorbell _ _ _ => true
  | .eqDoorbell _ _ _ => true
  | .aqCfgWrite _ _ => true
  | .acqCfgWrite _ _ => true
  | .ownerCtlWrite _ _ => true
  | .cqStallTimeout _ _ => true
  | .coalTimeExpiry _ _ => true
  | .functionLevelReset _ => true
  | .flrComplete _ => true
  | .vfDisable _ _ _ => true
  | .vfTeardownDone _ => true
  | .hostLinkDown _ => true
  | .hostPortReset _ => true
  | .tlpDiscard _ _ => true
  | .hostReadFailure _ _ => true
  | .pcieCompletionTimeout _ => true
  | .payloadReadDone _ _ => true
  | .walkReadResponse _ _ => true
  | .markRereadResponse _ _ => true
  | .getTargetReadDone _ _ => true
  | .atomicTargetReadDone _ _ => true
  | .putPacket p => p.hasType 0x01
  | .putFlagPacket p => p.hasType 0x02
  | .getReq p => p.hasType 0x03
  | .getResp p => p.hasType 0x04
  | .atomicReq p => p.hasType 0x05
  | .sendPacket p => p.hasType 0x06 && p.skind != 2
  | .rendezvousFinish p => p.hasType 0x06 && p.skind == 2
  | .notePacket p => p.hasType 0x07
  | .stagedCopyDone _ => true
  | .ack m => m.ntype == 0x80
  | .nak m => m.ntype == 0x81
  | .rnrNak m => m.ntype == 0x82
  | .accessNak m => m.ntype == 0x83
  | .atomicResp m => m.ntype == 0x84
  | .connReset m => m.ntype == 0x85
  | .funcReset m => m.ntype == 0x86
  | .destDown m => m.ntype == 0x87
  | .retransmitTimeout _ => true
  | .rnrWaitEnd _ => true
  | .ackTimer _ => true
  | .contextFetchDone _ => true
  | .contextWriteoutDone _ => true
  | .missWaitTimeout _ => true
  | .handshakeStall _ => true
  | .faultReport _ => true
  | .graftDone _ => true
  | .notifyHoldoffEnd => true
  | .reportPathFailure _ => true
  | .faultRecordClear _ _ => true
  | .corrClr _ _ => true
  | .fltForce _ _ _ => true
  | .fltBreak _ _ => true
  | .eccUncorrectable _ _ _ => true
  | .eccCorrected _ => true
  | .quillWatchdog => true
  | .hbmStackFailure _ => true
  | .treeUp _ p => p.hasType 0x10
  | .treeDown _ p => p.hasType 0x11
  | .upCredit _ p => p.hasType 0x12
  | .downCredit _ p => p.hasType 0x13
  | .treeAck _ p => p.hasType 0x14
  | .treeDone _ p => p.hasType 0x15
  | .treeAbort _ p => p.hasType 0x16
  | .treeTimeout _ => true
  | .treeContribReadDone _ _ => true
  | .routePacket _ _ _ => true
  | .packetAgeExpiry _ => true
  | .nibStallDiscard _ => true
  | .armA _ _ => true
  | .armB _ _ => true
  | .retireA _ _ => true
  | .retireB _ _ => true
  | .stampWrite _ _ => true
  | .tableRead _ _ => true
  | .tableWrite _ _ => true
  | .forcedWrite _ _ => true
  | .rtCoordWrite _ _ => true
  | .rtHpDrainWrite _ _ => true
  | .drainLimitExpiry _ => true
  | .flitReceive _ a _ => a.sized
  | .replayTimeout _ => true
  | .linkHello _ m => m.ntype == 0x01
  | .linkHelloTimer _ => true
  | .changeReq _ m => m.ntype == 0x02
  | .changeAck _ m => m.ntype == 0x03
  | .changeGo _ m => m.ntype == 0x04
  | .changeBusy _ m => m.ntype == 0x05
  | .changeBusyWaitEnd _ => true
  | .changeDone _ m => m.ntype == 0x06
  | .changeReqTimeout _ => true
  | .linkMode _ m => m.ntype == 0x07
  | .timeReq _ m => m.ntype == 0x10
  | .timeResp _ m => m.ntype == 0x11
  | .timeExchangeTimer => true
  | .laneHealthWindow _ _ _ _ _ => true
  | .laneSignalLoss _ _ _ => true
  | .frameLockGained _ _ _ _ => true
  | .frameLockLost _ => true
  | .frameLockTimeout _ => true
  | .trainLockTimeout _ _ => true
  | .rateLockTimeout _ => true
  | .portDownDwellEnd _ => true
  | .laneRestoreTimer _ _ => true
  | .laneSoakEnd _ _ => true
  | .portEnable _ _ => true
  | .portDisable _ _ => true
  | .narrowLane0 _ _ => true
  | .narrowLane1 _ _ => true
  | .widen _ _ => true
  | .retrainLane0 _ _ => true
  | .retrainLane1 _ _ => true
  | .portRestart _ _ => true
  | .paceMeasurement counts slots => counts.length == 64 && slots.length == 136
  | .paceEventHoldoffEnd _ => true
  | .governorEvaluation => true
  | .avsRequestComplete => true
  | .avsTimeout _ => true
  | .avsFault _ => true
  | .avsRetry => true
  | .thermalSample raw _ _ => raw.length == 16
  | .thermtrip => true
  | .shaperRefill => true
  | .gateEntryChange _ _ => true
  | .gclRead _ _ => true
  | .gclWrite _ _ => true
  | .svcLinkAck _ f => f.hasType 0x0
  | .svcHello _ f => f.hasType 0x1
  | .svcHelloTimer _ => true
  | .speed _ f _ => f.hasType 0x2
  | .speedSwitch _ => true
  | .speedLockTimeout _ => true
  | .discover _ f => f.hasType 0x3
  | .discoverReply _ f => f.hasType 0x4
  | .command _ f => f.hasType 0x5
  | .response _ f => f.hasType 0x6
  | .heartbeat _ f => f.hasType 0x7
  | .notify _ f => f.hasType 0x8
  | .image _ f => f.hasType 0x9
  | .svcLockGained _ => true
  | .svcLockLost _ => true
  | .svcAckTimeout _ => true
  | .svcLinkAckTimer _ => true
  | .svcRestart _ _ _ => true
  | .svcRtRead _ _ => true
  | .svcRtWrite _ _ => true
  | .upstreamTimeout => true
  | .heartbeatTimer => true
  | .managerListenEnd => true
  | .takeover => true
  | .leaseTimeout => true
  | .ppsInEdge => true
  | .ftSet _ _ => true
  | .modeArbitration => true
  | .modeCtlReq _ _ => true
  | .modeCtlDeviceReset _ _ => true
  | .tallyTapDelivery _ => true
  | .tapSilence _ => true
  | .meterSample => true
  | .minuteBoundary => true
  | .blockSigned => true
  | .flashWriteDone _ => true
  | .sealSample _ => true
  | .islandPowerUp _ => true
  | .mtrTimeSet _ _ => true
  | .mtrTimeAdj _ _ => true
  | .mtrAck _ _ => true
  | .mtrRdSel _ _ _ => true
  | .mtrWindowRead _ _ _ lo hi => anyHalf lo hi
  | .trimSet _ _ => true
  | .operatorSet _ _ => true
  | .mtrFwBegin _ _ => true
  | .mtrFwData _ _ => true
  | .mtrFwActivate _ _ => true
  | .meterXoLoss => true
  | .vddMtrLoss => true
  | .powerOnReset _ _ _ => true
  | .deviceReset _ => true
  | .bootComplete => true
  | .fwActivate _ _ => true
  | .fwActivateDone => true
  | .fwCommit _ _ => true
  | .getVersion _ => true
  | .getCapabilities _ => true
  | .negotiateAlgorithms _ => true
  | .getDigests _ => true
  | .getCertificate _ _ _ _ => true
  | .challenge _ _ => true
  | .getMeasurements _ _ => true
  | .spdmUnsupportedRequest _ => true
  | .supplyBrownout => true
  | .mgmtXoLoss => true
  | .refclkFabLoss _ => true
  | .bypass => true
  | .idcode => true
  | .samplePreload => true
  | .extest _ => true
  | .extestPulse _ => true
  | .extestTrain _ => true
  | .clamp _ => true
  | .highz _ => true
  | .smbReadTjMax => true
  | .smbReadHbm0Temp => true
  | .smbReadHbm1Temp => true
  | .smbReadStatus => true
  | .smbReadVddReq => true
  | .smbReadPace => true
  | .smbReadUnitId => true
  | .smbWrite => true
  | .pmuSelWrite _ _ _ => true
  | .pmuClear _ _ => true
  | .bwWindowEnd => true
  | .dumpEnable _ _ => true
  | .dumpBoundary => true
  | .inkStart _ _ => true
  | .inkStop _ _ => true
  | .inkDiscard _ _ => true
  | .inkTransfer _ _ => true
  | .inkReplay _ _ => true
  | .inkCheckpointDone => true
  | .inkSegmentFull _ => true
  | .inkPostTriggerEnd => true
  | .inkTransferDone heads => decide (heads.length ≤ 8)
  | .inkReplayDone _ => true
  | .cfgCommit _ _ => true
  | .commitEvaluation => true
  | .crcSweepComplete => true
  | .crcCapture _ _ => true
  | .cfgLock _ _ => true
  | .regParityMismatch _ _ => true
  | .stagedParityMismatch _ => true
  | .clearOnRead _ _ _ _ => true
  | .registerWrite _ _ _ _ => true
  | .hostLinkUp _ => true
  | .pcieConfigWrite _ _ => true
  | .flitSend _ => true
  | .slotVerifyDone => true
  | .internalResetRelease _ _ _ => true
  | .mtrFwVerifyDone _ _ => true

end Sys2Proof
end

