-- ==== Sys2Proof/Tests/Slice0.lean ====
section
/-! SUPPORT. Tests of the model and, for every statement with hypotheses, a state and operands that meet them all. -/

namespace Sys2Proof.Tests

set_option Elab.async false
set_option linter.unusedVariables false

open Sys2Proof
open Sys2Proof.Machine

/-! ### States the witnesses use -/

/-- A device that runs, in Worker mode, its meter absent, its host port 0 up. -/
def wDev : Dev := { State.reset.dev with
  boot := { State.reset.dev.boot with phase := .running }
  fuse := { State.reset.dev.fuse with meter := false }
  mode := .worker
  hp := [(0, { linkUp := true })] }

/-- A state of a device. -/
def wS (d : Dev) : State := { State.reset with dev := d }

/-- Function 0 with state x, an entry next in its admin ring. -/
def wAdm (e : Desc) (x : Fn) : State := wS { wDev with fns := [(0, { x with admFetched := [e], busMaster := true })] }

/-- The same with one connection. -/
def wConn (e : Desc) (x : Fn) (n : Nat) (c : Conn) : State := wS { wDev with
  fns := [(0, { x with admFetched := [e], busMaster := true })], xpt := { conns := [(n, c)], onDie := [n] } }

/-- The same with one match context. -/
def wMctx (e : Desc) (x : Fn) (m : Nat) (c : Mctx) : State := wS { wDev with
  fns := [(0, { x with admFetched := [e], busMaster := true })], mtc := { ctxs := [(m, c)] } }

/-- The same with a translation unit's state. -/
def wXl (e : Desc) (x : Fn) (l : Xl) : State := wS { wDev with
  fns := [(0, { x with admFetched := [e], busMaster := true })], xl := l }

/-- The same with a tree's entry that names host port 0 as a child. -/
def wTree (e : Desc) (x : Fn) (n : Nat) : State := wS { wDev with
  fns := [(0, { x with admFetched := [e], busMaster := true })], rt := { wDev.rt with bankA := .armed, trA := [(n, { w0 := 0x100000001, w2 := 1 })] } }

/-- Where the other functions hold nothing and the function has no quota, its objects fit the whole function partition. -/
theorem roomy (d : Dev) (t : FnId) (c m r q : Nat) (h : hbmOthers d t = 0) (hq : (quotaOf d t).hbm = none)
    (hp : funcPart d = 2 ^ 36) : overHbm d t (hbmOf c m r q) = false := by
  have b : hbmOf c m r q < 2 ^ 36 := by
    unfold hbmOf; split
    · omega
    · exact (Config.hbmBytes c m r q).isLt
  simp only [overHbm, h, hq, hp]
  simp; omega

/-- PARK_FUNCTION of function 0 with the largest backing area. -/
def wPark : Desc := { w0 := 0x38, w2 := 0xFFFFFFFFFFFFFFFF }

/-- The same with the active manager, HOST_FM set, and a frame waiting for the host. -/
def wMgr (e : Desc) : State := wS { wDev with
  fns := [(0, { admFetched := [e], busMaster := true })]
  svc := { wDev.svc with role := 2, rx := [{}] }
  regs := [(0x60100, 0x8000000000000000)] }

/-- A submission queue with one descriptor fetched. -/
def wSq (e : Desc) : Sq := { cq := 5, p := 1, c := 1, fetched := [{ d := e }] }

/-- A connection to endpoint 0x400. -/
def wC : Conn := { peer := 0x400, cq := 5 }

/-- A region of 64 KiB that grants everything. -/
def wR : Region := { len := 0x10000, lw := true, rr := true, rw := true, ra := true }

/-- A barrier on tree 9. -/
def wColl : Desc := { w0 := 0x08, w5 := 0x800000000000000, w6 := 9 }

/-- A message that has come and waits for its receive. -/
def wMsg : MsgRec := { id := 1, mctx := 3, tag := 9, st := .unexpected }

/-- A function with a descriptor fetched, a connection, a region, a match context, and a tree. -/
def wWork (e : Desc) : State := wS { wDev with
  fns := [(0, { domain := 1, sqs := [(1, wSq e)], cqs := [(5, {})], roots := [(0, 0x4000)], trees := [(9, {})] })]
  xpt := { wDev.xpt with conns := [(7, wC)], onDie := [7] }
  xl := { wDev.xl with regions := [(2, wR)] }
  mtc := { wDev.mtc with ctxs := [(3, {})] }
  rt := { wDev.rt with bankA := .armed, trA := [(9, { w0 := 0x100000001, w2 := 1 })], reach := [(0, 0x10)] } }

/-- The same with a message that waits. -/
def wMsgs (e : Desc) : State := wS { (wWork e).dev with mtc := { ctxs := [(3, {})], recs := [wMsg] } }

/-- The same with a match context of the caller's. -/
def wMctxs (e : Desc) (x : Mctx) : State := wS { (wWork e).dev with mtc := { ctxs := [(3, x)] } }

/-- Function 0 waiting for the later completion of a command. -/
def wWait (w : AdmWait) : State := wS { wDev with fns := [(0, { admWait := some w, busMaster := true })] }

/-- A packet of a type for connection 7, its CRC right. -/
def wPkt (t : Byte) (key aux : Word32) (psn : Psn) (void : Bool) : Packet := sealPkt
  { rh := { dest := selfEp wDev {}, src := 0x400, domain := 1 }, ptype := t, conn := 7, psn := psn, first := true, last := true, void := void
    va := 0x100, key := key, aux := aux, payload := [1, 2, 3, 4] }

/-- A transport message of a type for connection 7, its CRC right. -/
def wNib (t : Byte) : Nib := sealNib { dest := selfEp wDev {}, domain := 1, ntype := t, conn := 7 }

/-- A state whose connection 7 has an operation outstanding. -/
def wOp (o : Op) : State := wS { (wWork {}).dev with
  xpt := { (wWork {}).dev.xpt with conns := [(7, { wC with ops := [o], next := 1 })] } }

/-- A tree packet of a type for tree 9, its CRC right. -/
def wTp (t : Byte) : TreePkt := sealTree { rh := { domain := 1 }, ptype := t, tree := 9 }

/-- A state whose tree 9 has the entry given, its operation running. -/
def wNode (t : TreeWords) : State := wS { (wWork {}).dev with
  rt := { (wWork {}).dev.rt with trA := [(9, t)] }
  tre := { (wWork {}).dev.tre with nodes := [(9, { op := some {} })] } }

/-- A root with port 5 as child, and an interior node whose parent is port 5. -/
def wRoot : TreeWords := { w0 := 0x100010001, w1 := 0x20 }
def wInner : TreeWords := { w0 := 0x100010016, w2 := 1 }

/-- A state whose fabric port 3 stands as given. -/
def wPort (x : Port) : State := wS { wDev with ports := [(3, x)] }

/-- A lane locked at rung 1. -/
def wLane : LaneSt := { locked := true, rung := 1 }

/-- A port that is UP on both lanes at rung 1. -/
def wUp : Port := { st := .up, rung := 1, width := 2, frameLock := true, l0 := wLane, l1 := wLane, info := 0x100000, unitId := 2 }

/-- A link-local message of a type, its CRC right. -/
def wLl (t : Byte) : LinkMsg :=
  let m : LinkMsg := { ntype := t, token := 1, unitId := 2, kind := 1 }
  { m with crc := linkCrc m }

/-- A state whose service port 1 has its link up. -/
def wSvc (x : SvcPort) : State := wS { wDev with svc := { wDev.svc with ports := [(1, { x with link := 2 })] } }

/-- A frame of a code, first in sequence, its CRC right. -/
def wFrame (c : BitVec 4) : Frame := sealFrame { ftype := c }

/-- One that goes up, and one whose PATH leads on by port 1. -/
def wFrameUp (c : BitVec 4) (coord : Word16) : Frame := sealFrame { ftype := c, up := true, coord := coord }
def wFramePath (c : BitVec 4) : Frame := sealFrame { ftype := c, path := 1, pathLen := 1 }

/-- The active manager, the link of its service port 1 up. -/
def wSvcMgr : State := wS { (wSvc {}).dev with svc := { (wSvc {}).dev.svc with role := 2 } }

/-- A metered device whose island is powered and stands as given. -/
def wIsl (i : Isl) : State := wS { wDev with fuse := { wDev.fuse with meter := true }, isl := { i with powered := true } }

/-- A block of minute 1 with no records. -/
def wBlk : MBlock := { seq := 1, signed := true }

/-- A state with an outstanding host read for a payload. -/
def wRead (a : Access) : State := wS { (wWork {}).dev with
  xpt := { (wWork {}).dev.xpt with reads := [{ id := 3, len := a.len, why := .payload a }] } }

/-- The walk of an access, its read outstanding. -/
def wWalk (r : Option Leaf) : State := wS { (wWork {}).dev with
  xpt := { (wWork {}).dev.xpt with reads := [{ id := 3, len := 8, why := .walk 4 }] }
  xl := { (wWork {}).dev.xl with walks := [{ id := 4, reread := r }] } }

/-! ### What the statements ask is met -/

/-- IdleStepIsOneCycle: a state with no command that takes commands, and one held in reset. -/
theorem witness_IdleStepIsOneCycle : (wS wDev).pending = [] ∧ listens (wS wDev) ∧
  ¬ listens (wS { wDev with boot := { wDev.boot with phase := .held } }) := by decide +kernel

/-- SoundKeptByEveryStep: a sound state with a step. -/
theorem witness_SoundKeptByEveryStep : Sound (wS wDev) ∧ step (wS wDev) = .next (idle (wS wDev)) := by
  refine ⟨?_, rfl⟩
  simp only [Sound, soundDev, ordered]
  decide +kernel

/-- FusesOnlyRiseInEveryStep: a sound state with a step. -/
theorem witness_FusesOnlyRiseInEveryStep : Sound (wS wDev) ∧ step (wS wDev) = .next (idle (wS wDev)) := witness_SoundKeptByEveryStep

/-- RegistersChangeOnlyByTheirCommands: a command that answers. -/
theorem witness_RegistersChangeOnlyByTheirCommands : setsRegs (.smbWrite) = false ∧ ∃ t, exec .smbWrite (wS wDev) = .next t :=
  ⟨rfl, _, rfl⟩

/-- MirrorsMoveOnlyAtTheTick: a command that answers, and an idle step. -/
theorem witness_MirrorsMoveOnlyAtTheTick : (∃ t, exec .smbWrite (wS wDev) = .next t) ∧ (wS wDev).pending = [] ∧ step (wS wDev) = .next (idle (wS wDev)) :=
  ⟨⟨_, rfl⟩, rfl, rfl⟩

/-- AdminChecksComeInOrder: for each check an entry it turns away. -/
theorem witness_AdminChecksComeInOrder :
    (adminOf (.setMode {} { w0 := 0x48 }) = some (0x48, .owner, {}, { w0 := 0x48 }) ∧ nextEntry 0x48 {} { w0 := 0x48 } (wAdm { w0 := 0x48 } {}) ∧
      permitted (entryTaken {} (wAdm { w0 := 0x100000048 } {}).dev) { num := 1 } { w0 := 0x100000048 } .any = false) ∧
    (nextEntry 0x50 {} { w0 := 0x700000050 } (wAdm { w0 := 0x700000050 } {}) ∧
      permitted (entryTaken {} (wAdm { w0 := 0x700000050 } {}).dev) {} { w0 := 0x700000050 } .any = true ∧
      fnExists (entryTaken {} (wAdm { w0 := 0x700000050 } {}).dev) (targetOf {} { w0 := 0x700000050 }) = false) ∧
    (nextEntry 0x01 {} { w0 := 0x01 } (wS { (wAdm { w0 := 0x01 } {}).dev with mode := .drain }) ∧
      permitted (entryTaken {} { (wAdm { w0 := 0x01 } {}).dev with mode := .drain }) {} { w0 := 0x01 } .any = true ∧
      fnExists (entryTaken {} { (wAdm { w0 := 0x01 } {}).dev with mode := .drain }) (targetOf {} { w0 := 0x01 }) = true ∧
      admState (entryTaken {} { (wAdm { w0 := 0x01 } {}).dev with mode := .drain }) (targetOf {} { w0 := 0x01 }) 0x01 = some .modeRefused) ∧
    (nextEntry 0x01 {} { w0 := 0x01 } (wAdm { w0 := 0x01 } { park := .parked }) ∧
      permitted (entryTaken {} (wAdm { w0 := 0x01 } { park := .parked }).dev) {} { w0 := 0x01 } .any = true ∧
      fnExists (entryTaken {} (wAdm { w0 := 0x01 } { park := .parked }).dev) (targetOf {} { w0 := 0x01 }) = true ∧
      admState (entryTaken {} (wAdm { w0 := 0x01 } { park := .parked }).dev) (targetOf {} { w0 := 0x01 }) 0x01 = none ∧
      (getFn (entryTaken {} (wAdm { w0 := 0x01 } { park := .parked }).dev) (targetOf {} { w0 := 0x01 })).park ≠ .no ∧ parkAdmits 0x01 = false) := by
  and_intros <;> decide +kernel

/-- DoorbellsTakeCountAndArmWhole: a state that takes commands. -/
theorem witness_DoorbellsTakeCountAndArmWhole : listens (wS wDev) := by decide +kernel

/-- RingSlotsAndLapsGoOn: a ring of 16 entries. -/
theorem witness_RingSlotsAndLapsGoOn : (4 : Nat) ≤ 20 := by decide

/-- IntegerCombiningIsOrderFree: operands that meet what its clauses ask. -/
theorem witness_IntegerCombiningIsOrderFree : (0x02 : Nat) ∈ [0x01, 0x02, 0x03, 0x04, 0x05, 0x06] ∧ (1 : Nat) ∈ [1, 2] ∧ [1#64, 2#64].Perm [2#64, 1#64] := by decide

/-- ExactSumIsOrderFree: values whose sum fits, and a permutation. -/
theorem witness_ExactSumIsOrderFree : -(2 ^ 255 : Int) ≤ (1#256).toInt + ([-1#256, 5#256].map (·.toInt)).sum ∧
  (1#256).toInt + ([-1#256, 5#256].map (·.toInt)).sum < 2 ^ 255 ∧ [-1#256, 5#256].Perm [5#256, -1#256] := by decide

/-- UnmeteredDeviceHasNoIsland: a device without metering, and an offset of the export block. -/
theorem witness_UnmeteredDeviceHasNoIsland : (wS wDev).dev.fuse.meter = false ∧ listens (wS wDev) ∧ baseOf 0x80008 = some 0x80008 ∧
    badAccess (wS wDev).dev (.fn {}) 0x80008 false = false ∧ atOnce .fabricManager (wS wDev) := by decide +kernel

/-- HomeSlotsOfConnectionsAndContexts: numbers assigned, and a state that can be reset. -/
theorem witness_HomeSlotsOfConnectionsAndContexts : freeConn wDev = some 0 ∧ freeMctx wDev = some 0 ∧ listens (wS wDev) := by decide +kernel

/-- PaceSetOutOfRangeIsRefused: a commit of block 0 with VMIN 0. -/
theorem witness_PaceSetOutOfRangeIsRefused : listens (wS { wDev with cfg := { wDev.cfg with commit := some 1, snap := [(0x38, 0)] } }) ∧
  (wS { wDev with cfg := { wDev.cfg with commit := some 1, snap := [(0x38, 0)] } }).dev.cfg.commit = some 1 ∧ (1 : Nat).testBit 0 = true ∧
  fld (snapOf { wDev with cfg := { wDev.cfg with commit := some 1, snap := [(0x38, 0)] } } 0x38) 24 12 < 550 := by decide +kernel

/-- MeterAcknowledgeReleasesUpTo: an acknowledgement of an unread block, and one of a block beyond the last. -/
theorem witness_MeterAcknowledgeReleasesUpTo : (wIsl { blocks := [wBlk] }).dev.fuse.meter = true ∧ (wIsl { blocks := [wBlk] }).dev.isl.powered = true ∧
  mayWrite (wIsl { blocks := [wBlk] }).dev .fabricManager = true ∧ (0 : Nat) < fld 5 0 48 ∧ atOnce .fabricManager (wIsl { blocks := [wBlk] }) := by decide +kernel

/-- DomainFilterDropsForeignPackets: a packet of another domain, and a device in Quarantine. -/
theorem witness_DomainFilterDropsForeignPackets : listens (wS { wDev with fns := [(0, { domain := 2 })] }) ∧
  wDev.mode ≠ .quarantine ∧ (pktRecorded wDev (wPkt ptPut 0 0 0 false) && inkHolds wDev) = false ∧
  pktCrc (wPkt ptPut 0 0 0 false) = (wPkt ptPut 0 0 0 false).crc ∧ epFn (wPkt ptPut 0 0 0 false).rh.dest = {} ∧
  fnExists { wDev with fns := [(0, { domain := 2 })] } {} = true ∧ ((wPkt ptPut 0 0 0 false).ptype == ptPut) = true ∧
  (wPkt ptPut 0 0 0 false).rh.domain ≠ (getFn { wDev with fns := [(0, { domain := 2 })] } {}).domain ∧
  (getRec wDev (srcDomain 0)).masked = false ∧
  (getRec { wDev with flt := { recs := [(0xF4, { masked := true })] } } (srcDomain 0)).masked = true ∧
  listens (wS { wDev with mode := .quarantine }) := by decide +kernel

/-- HoldRefusesActivations: a hold, a write that would enable, and an UNPARK_FUNCTION. -/
theorem witness_HoldRefusesActivations :
  let s := wS { (wIsl { silent := [1] }).dev with mode := .worker, fns := [(0, { acqEnable := true, busMaster := true, admFetched := [{ w0 := 0x39 }], park := .parked })] }
  meterHold s.dev = true ∧ listens s ∧ fnExists s.dev {} = true ∧ wouldEnable (.high 0x80000000) (getFn s.dev {}) = true ∧
  nextEntry 0x39 {} { w0 := 0x39 } s ∧ permitted (entryTaken {} s.dev) {} { w0 := 0x39 } .pfForItsFns = true ∧
  fnExists (entryTaken {} s.dev) (targetOf {} { w0 := 0x39 }) = true ∧ (entryTaken {} s.dev).mode ≠ .configure ∧ (entryTaken {} s.dev).mode ≠ .replay := by
  decide +kernel

/-- CommandsAreIgnoredInQuarantineAndWaitWhileHeld: a device in Quarantine, an admin command, a COMMAND that holds the sequencer, an access of the
fabric manager, an entry next in its ring, and a command that waited. -/
theorem witness_CommandsAreIgnoredInQuarantineAndWaitWhileHeld : listens (wS { wDev with mode := .quarantine }) ∧
    (wS { wDev with mode := .quarantine }).dev.mode = .quarantine ∧ adminOf (.identify {} {}) = some (0x50, .any, {}, {}) ∧
    masterOf (.stampWrite .fabricManager (.full 0)) = some .fabricManager ∧
    (let e : Desc := { w0 := 0x50 }
     let s := wAdm e {}
     listens s ∧ adminOf (.identify {} e) = some (e.opcode, .any, {}, e) ∧ admTurn s.dev {} e = true) ∧
    ([{ hold := true }] : List CmdRun).any (·.hold) = true ∧ ([{ row := some (.identify {} {}) }] : List CmdRun).any (·.hold) = false := by decide +kernel

/-- RecordsKeepNewErrorsAndCounts: sources that are masked, that have captured nothing, something and corrected errors, of records that are
valid and not, and clears of a fatal record in Quarantine and of another. -/
theorem witness_RecordsKeepNewErrorsAndCounts :
  let s := wS { wDev with mode := .quarantine, flt := { recs := [(0xC0, { masked := true }), (0xC1, { valid := true, cls := .fatal }), (0xC2, { valid := true, cap := some {} }), (0xC3, { capCorr := 3, cap := some {} })] } }
  listens s ∧ atOnce .fabricManager s ∧ mayWrite s.dev .fabricManager = true ∧ (∀ n ∈ [0xC0, 0xC1, 0xC2, 0xC3], knownSource s.dev n = true) ∧
  (getRec s.dev 0xC0).masked = true ∧ (getRec s.dev 0xC1).cls = .fatal ∧ (getRec s.dev 0xC1).valid = true ∧ (getRec s.dev 0xC1).cap = none ∧
  (getRec s.dev 0xC1).masked = false ∧ (getRec s.dev 0xC2).valid = true ∧ (getRec s.dev 0xC2).cls ≠ .fatal ∧ (getRec s.dev 0xC2).cap = some {} ∧
  (getRec s.dev 0xC2).masked = false ∧ (getRec s.dev 0xC3).valid = false ∧ (getRec s.dev 0xC3).cap = some {} ∧ (getRec s.dev 0xC3).capCorr ≠ 0 ∧
  rising s.dev.flt.recs ∧ ∀ x ∈ s.dev.flt.recs, x.2.broken = 0 := by decide +kernel

/-- StrapsAreSampledByTheirResets: states that can be reset and released, and a step. -/
theorem witness_StrapsAreSampledByTheirResets : listens (wS wDev) ∧ asleep { wDev with boot := { wDev.boot with phase := .held } } = true ∧ Sound (wS wDev) ∧
    (wS wDev).pending.head? = none ∧ step (wS wDev) = .next (idle (wS wDev)) := by
  refine ⟨by decide +kernel, by decide +kernel, ?_, rfl, rfl⟩
  simp only [Sound, soundDev, ordered]
  decide +kernel

/-- QueueCommandsComplete: a state and operands that meet what it asks of createSq. -/
theorem witness_createSq : ∃ (f : FnId) (e : Desc) (s : State),
    (admitted 0x01 .any f e s) ∧
    (4 ≤ e.f 0x18 16 5 ∧ e.f 0x18 16 5 ≤ 16) ∧
    (e.w1.toNat % 4096 = 0 ∧ e.w2.toNat % 8 = 0) ∧
    (bit e.w3 40 = true → (getHp (entryTaken f s.dev) (targetOf f e).port).bifurcated = true) ∧
    (thas (getFn (entryTaken f s.dev) (targetOf f e)).sqs (e.f 0x18 0 16) = false ∧ thas (getFn (entryTaken f s.dev) (targetOf f e)).cqs (e.f 0x18 24 16) = true) ∧
    (overQuota (quotaOf (entryTaken f s.dev) (targetOf f e)).sq (getFn (entryTaken f s.dev) (targetOf f e)).sqs.length = false ∧ totalOf (entryTaken f s.dev) (·.sqs.length) < 65536 ∧ overHbmQ (entryTaken f s.dev) (targetOf f e) = false) :=
  ⟨{}, { w0 := 0x01, w1 := 0x1000, w2 := 8, w3 := 0x2040005 }, wAdm { w0 := 0x01, w1 := 0x1000, w2 := 8, w3 := 0x2040005 } { cqs := [(2, {})] }, by and_intros <;> first | decide +kernel | exact roomy _ _ _ _ _ _ (by decide +kernel) (by decide +kernel) (by decide +kernel)⟩

/-- QueueCommandsComplete: a state and operands that meet what it asks of destroySq. -/
theorem witness_destroySq : ∃ (f : FnId) (e : Desc) (q : Sq) (s : State),
    (admitted 0x02 .any f e s) ∧
    (tget (getFn (entryTaken f s.dev) (targetOf f e)).sqs (e.f 0x18 0 16) = some q) ∧
    (q.halted = none ∧ q.c = q.p ∧ q.fetched = [] ∧ q.inflight = []) :=
  ⟨{}, { w0 := 0x02, w3 := 5 }, { log2 := 4 }, wAdm { w0 := 0x02, w3 := 5 } { sqs := [(5, { log2 := 4 })] }, by decide +kernel⟩

/-- QueueCommandsComplete: a state and operands that meet what it asks of createCq. -/
theorem witness_createCq : ∃ (f : FnId) (e : Desc) (s : State),
    (admitted 0x03 .any f e s) ∧
    (4 ≤ e.f 0x18 16 5 ∧ e.f 0x18 16 5 ≤ 20) ∧
    (e.w1.toNat % 4096 = 0) ∧
    (e.f 0x18 48 16 = 0 ∨ 98 ≤ e.f 0x18 48 16) ∧
    (bit e.w4 1 = true → (getHp (entryTaken f s.dev) (targetOf f e).port).bifurcated = true) ∧
    (thas (getFn (entryTaken f s.dev) (targetOf f e)).cqs (e.f 0x18 0 16) = false) ∧
    (overQuota (quotaOf (entryTaken f s.dev) (targetOf f e)).cq (getFn (entryTaken f s.dev) (targetOf f e)).cqs.length = false ∧ totalOf (entryTaken f s.dev) (·.cqs.length) < 65536 ∧ overHbmQ (entryTaken f s.dev) (targetOf f e) = false) :=
  ⟨{}, { w0 := 0x03, w1 := 0x1000, w3 := 0x140005 }, wAdm { w0 := 0x03, w1 := 0x1000, w3 := 0x140005 } {}, by and_intros <;> first | decide +kernel | exact roomy _ _ _ _ _ _ (by decide +kernel) (by decide +kernel) (by decide +kernel)⟩

/-- QueueCommandsComplete: a state and operands that meet what it asks of destroyCq. -/
theorem witness_destroyCq : ∃ (f : FnId) (e : Desc) (s : State),
    (admitted 0x04 .any f e s) ∧
    (thas (getFn (entryTaken f s.dev) (targetOf f e)).cqs (e.f 0x18 0 16) = true ∧ cqBound (entryTaken f s.dev) (targetOf f e) (e.f 0x18 0 16) = false) :=
  ⟨{}, { w0 := 0x04, w3 := 5 }, wAdm { w0 := 0x04, w3 := 5 } { cqs := [(5, {})] }, by decide +kernel⟩

/-- QueueCommandsComplete: a state and operands that meet what it asks of createEq. -/
theorem witness_createEq : ∃ (f : FnId) (e : Desc) (s : State),
    (admitted 0x05 .any f e s) ∧
    (4 ≤ e.f 0x18 16 5 ∧ e.f 0x18 16 5 ≤ 16) ∧
    (e.w1.toNat % 4096 = 0) ∧
    (bit e.w3 33 = true → (getHp (entryTaken f s.dev) (targetOf f e).port).bifurcated = true) ∧
    (thas (getFn (entryTaken f s.dev) (targetOf f e)).eqs (e.f 0x18 0 12) = false) ∧
    (overQuota (quotaOf (entryTaken f s.dev) (targetOf f e)).eq (getFn (entryTaken f s.dev) (targetOf f e)).eqs.length = false ∧ totalOf (entryTaken f s.dev) (·.eqs.length) < 4096 ∧ overHbmQ (entryTaken f s.dev) (targetOf f e) = false) :=
  ⟨{}, { w0 := 0x05, w1 := 0x1000, w3 := 0x40005 }, wAdm { w0 := 0x05, w1 := 0x1000, w3 := 0x40005 } {}, by and_intros <;> first | decide +kernel | exact roomy _ _ _ _ _ _ (by decide +kernel) (by decide +kernel) (by decide +kernel)⟩

/-- QueueCommandsComplete: a state and operands that meet what it asks of destroyEq. -/
theorem witness_destroyEq : ∃ (f : FnId) (e : Desc) (s : State),
    (admitted 0x06 .any f e s) ∧
    (thas (getFn (entryTaken f s.dev) (targetOf f e)).eqs (e.f 0x18 0 16) = true ∧ ∀ c ∈ (getFn (entryTaken f s.dev) (targetOf f e)).subs, c.2 ≠ e.f 0x18 0 16) :=
  ⟨{}, { w0 := 0x06, w3 := 5 }, wAdm { w0 := 0x06, w3 := 5 } { eqs := [(5, {})] }, by decide +kernel⟩

/-- ConnectionAndContextCommandsComplete: a state and operands that meet what it asks of subscribeEvents. -/
theorem witness_subscribeEvents : ∃ (f : FnId) (e : Desc) (s : State),
    (admitted 0x07 .any f e s) ∧
    (bit e.w3 23 = true ∨ thas (getFn (entryTaken f s.dev) (targetOf f e)).eqs (e.f 0x18 0 12) = true) :=
  ⟨{}, { w0 := 0x07, w3 := 0x10005 }, wAdm { w0 := 0x07, w3 := 0x10005 } { eqs := [(5, {})] }, by decide +kernel⟩

/-- ConnectionAndContextCommandsComplete: a state and operands that meet what it asks of queryQueue. -/
theorem witness_queryQueue : ∃ (f : FnId) (e : Desc) (q : Sq) (s : State),
    (admitted 0x08 .any f e s) ∧
    (e.f 0x18 16 2 = 0) ∧
    (tget (getFn (entryTaken f s.dev) (targetOf f e)).sqs (e.f 0x18 0 16) = some q) :=
  ⟨{}, { w0 := 0x08, w3 := 5 }, { p := 3 }, wAdm { w0 := 0x08, w3 := 5 } { sqs := [(5, { p := 3 })] }, by decide +kernel⟩

/-- ConnectionAndContextCommandsComplete: a state and operands that meet what it asks of queryQueue. -/
theorem witness_queryQueue_cq : ∃ (f : FnId) (e : Desc) (q : Cq) (s : State),
    (admitted 0x08 .any f e s) ∧
    (e.f 0x18 16 2 = 1) ∧
    (tget (getFn (entryTaken f s.dev) (targetOf f e)).cqs (e.f 0x18 0 16) = some q) :=
  ⟨{}, { w0 := 0x08, w3 := 0x10005 }, { w := 3 }, wAdm { w0 := 0x08, w3 := 0x10005 } { cqs := [(5, { w := 3 })] }, by decide +kernel⟩

/-- ConnectionAndContextCommandsComplete: a state and operands that meet what it asks of queryQueue. -/
theorem witness_queryQueue_eq : ∃ (f : FnId) (e : Desc) (q : Eq) (s : State),
    (admitted 0x08 .any f e s) ∧
    (e.f 0x18 16 2 = 2) ∧
    (tget (getFn (entryTaken f s.dev) (targetOf f e)).eqs (e.f 0x18 0 16) = some q) :=
  ⟨{}, { w0 := 0x08, w3 := 0x20005 }, { w := 3 }, wAdm { w0 := 0x08, w3 := 0x20005 } { eqs := [(5, { w := 3 })] }, by decide +kernel⟩

/-- ConnectionAndContextCommandsComplete: a state and operands that meet what it asks of createConn. -/
theorem witness_createConn : ∃ (f : FnId) (e : Desc) (n : Nat) (s : State),
    (admitted 0x10 .any f e s) ∧
    (e.f 0x18 32 16 = 0 ∨ 60 ≤ e.f 0x18 32 16) ∧
    ((getFn (entryTaken f s.dev) (targetOf f e)).domain ≠ 0) ∧
    (thas (getFn (entryTaken f s.dev) (targetOf f e)).cqs (e.f 0x18 0 16) = true) ∧
    (overQuota (quotaOf (entryTaken f s.dev) (targetOf f e)).conn (connsOf (entryTaken f s.dev) (targetOf f e)) = false) ∧
    (overHbm (entryTaken f s.dev) (targetOf f e) (hbmOf (connsOf (entryTaken f s.dev) (targetOf f e) + 1) (mctxsOf (entryTaken f s.dev) (targetOf f e)) (regionsOf (entryTaken f s.dev) (targetOf f e)) (queuesOf (entryTaken f s.dev) (targetOf f e))) = false) ∧
    (freeConn (entryTaken f s.dev) = some n) :=
  ⟨{}, { w0 := 0x10, w1 := 0x100000400, w3 := 5 }, 0, wAdm { w0 := 0x10, w1 := 0x100000400, w3 := 5 } { domain := 1, cqs := [(5, {})] }, by and_intros <;> first | decide +kernel | exact roomy _ _ _ _ _ _ (by decide +kernel) (by decide +kernel) (by decide +kernel)⟩

/-- ConnectionAndContextCommandsComplete: a state and operands that meet what it asks of destroyConn. -/
theorem witness_destroyConn : ∃ (f : FnId) (e : Desc) (c : Conn) (s : State),
    (admitted 0x11 .any f e s) ∧
    (connFor (entryTaken f s.dev) (targetOf f e) (e.f 0x08 0 24) = some c ∧ connIdle (entryTaken f s.dev) (e.f 0x08 0 24) c = true) :=
  ⟨{}, { w0 := 0x11, w1 := 7 }, { tc := 1 }, wConn { w0 := 0x11, w1 := 7 } {} 7 { tc := 1 }, by decide +kernel⟩

/-- ConnectionAndContextCommandsComplete: a state and operands that meet what it asks of modifyConn. -/
theorem witness_modifyConn : ∃ (f : FnId) (e : Desc) (c : Conn) (s : State),
    (admitted 0x12 .any f e s) ∧
    (connFor (entryTaken f s.dev) (targetOf f e) (e.f 0x08 0 24) = some c) ∧
    ((e.f 0x20 0 6).testBit 4 = true → e.f 0x18 32 16 = 0 ∨ 60 ≤ e.f 0x18 32 16) ∧
    ((e.f 0x20 0 6).testBit 0 = true ∨ (e.f 0x20 0 6).testBit 1 = true → c.una = c.next) :=
  ⟨{}, { w0 := 0x12, w1 := 7, w3 := 0x40000, w4 := 2 }, { tc := 1 }, wConn { w0 := 0x12, w1 := 7, w3 := 0x40000, w4 := 2 } {} 7 { tc := 1 }, by decide +kernel⟩

/-- ConnectionAndContextCommandsComplete: a state and operands that meet what it asks of createMatchCtx. -/
theorem witness_createMatchCtx : ∃ (f : FnId) (e : Desc) (m : Nat) (s : State),
    (admitted 0x18 .any f e s) ∧
    (e.f 0x08 0 23 ≤ 4194304 ∧ e.f 0x10 0 23 ≤ 4194304 ∧ e.f 0x10 24 24 ≤ 8388608) ∧
    ((getFn (entryTaken f s.dev) (targetOf f e)).domain ≠ 0) ∧
    (overQuota (quotaOf (entryTaken f s.dev) (targetOf f e)).mctx (mctxsOf (entryTaken f s.dev) (targetOf f e)) = false ∧ (entryTaken f s.dev).mtc.ctxs.length < 65536) ∧
    (overHbm (entryTaken f s.dev) (targetOf f e) (hbmOf (connsOf (entryTaken f s.dev) (targetOf f e)) (mctxsOf (entryTaken f s.dev) (targetOf f e) + 1) (regionsOf (entryTaken f s.dev) (targetOf f e)) (queuesOf (entryTaken f s.dev) (targetOf f e))) = false) ∧
    (freeMctx (entryTaken f s.dev) = some m) :=
  ⟨{}, { w0 := 0x18, w1 := 4 }, 0, wAdm { w0 := 0x18, w1 := 4 } { domain := 1 }, by and_intros <;> first | decide +kernel | exact roomy _ _ _ _ _ _ (by decide +kernel) (by decide +kernel) (by decide +kernel)⟩

/-- ConnectionAndContextCommandsComplete: a state and operands that meet what it asks of destroyMatchCtx. -/
theorem witness_destroyMatchCtx : ∃ (f : FnId) (e : Desc) (x : Mctx) (s : State),
    (admitted 0x19 .any f e s) ∧
    (getMctx (entryTaken f s.dev) (e.f 0x08 0 16) = some x ∧ x.fn = (targetOf f e)) ∧
    (∀ r ∈ (entryTaken f s.dev).mtc.recs, r.mctx = e.f 0x08 0 16 → r.st = .matched → r.closed = true) :=
  ⟨{}, { w0 := 0x19, w1 := 3 }, { maxPosted := 4 }, wMctx { w0 := 0x19, w1 := 3 } {} 3 { maxPosted := 4 }, by decide +kernel⟩

/-- RegionAndTranslationCommandsComplete: a state and operands that meet what it asks of registerRegion. -/
theorem witness_registerRegion : ∃ (f : FnId) (e : Desc) (i : Nat) (s : State),
    (admitted 0x20 .any f e s) ∧
    (e.w1.toNat < 2 ^ 48 ∧ e.w2.toNat ≠ 0 ∧ e.w1.toNat + e.w2.toNat ≤ 2 ^ 48) ∧
    (thas (getFn (entryTaken f s.dev) (targetOf f e)).roots (e.f 0x18 0 8) = true) ∧
    (overQuota (quotaOf (entryTaken f s.dev) (targetOf f e)).region (regionsOf (entryTaken f s.dev) (targetOf f e)) = false) ∧
    (overHbm (entryTaken f s.dev) (targetOf f e) (hbmOf (connsOf (entryTaken f s.dev) (targetOf f e)) (mctxsOf (entryTaken f s.dev) (targetOf f e)) (regionsOf (entryTaken f s.dev) (targetOf f e) + 1) (queuesOf (entryTaken f s.dev) (targetOf f e))) = false) ∧
    (nextIndex (entryTaken f s.dev) = some i) :=
  ⟨{}, { w0 := 0x20, w1 := 0x1000, w2 := 0x1000, w3 := 0x103 }, 0, wAdm { w0 := 0x20, w1 := 0x1000, w2 := 0x1000, w3 := 0x103 } { roots := [(3, 0x4000)] }, by and_intros <;> first | decide +kernel | exact roomy _ _ _ _ _ _ (by decide +kernel) (by decide +kernel) (by decide +kernel)⟩

/-- RegionAndTranslationCommandsComplete: a state and operands that meet what it asks of deregisterRegion. -/
theorem witness_deregisterRegion : ∃ (f : FnId) (e : Desc) (r : Region) (s : State),
    (admitted 0x21 .any f e s) ∧
    (regionOf (entryTaken f s.dev) (targetOf f e) (e.w1.setWidth 32) = some r) :=
  ⟨{}, { w0 := 0x21, w1 := 0x201 }, { va := 0x1000, len := 0x1000, gen := 1 }, wXl { w0 := 0x21, w1 := 0x201 } {} { regions := [(2, { va := 0x1000, len := 0x1000, gen := 1 })] }, by decide +kernel⟩

/-- RegionAndTranslationCommandsComplete: a state and operands that meet what it asks of deregisterRegionDone. -/
theorem witness_deregisterRegionDone : ∃ (f : FnId) (w : AdmWait) (s : State),
    (awaited 0x21 f w s ∧ allEnded s.dev w.ids = true) :=
  ⟨{}, { op := 0x21 }, wWait { op := 0x21 }, by decide +kernel⟩

/-- RegionAndTranslationCommandsComplete: a state and operands that meet what it asks of setTranslationRoot. -/
theorem witness_setTranslationRoot : ∃ (f : FnId) (e : Desc) (s : State),
    (admitted 0x22 .any f e s) ∧
    ((fld e.w1 12 52 * 4096) < 2 ^ 52) ∧
    ((fld e.w1 12 52 * 4096) = 0 → ∀ r ∈ (entryTaken f s.dev).xl.regions, r.2.fn = (targetOf f e) → r.2.asn ≠ (e.f 0x18 0 8)) :=
  ⟨{}, { w0 := 0x22, w1 := 0x5000, w3 := 3 }, wAdm { w0 := 0x22, w1 := 0x5000, w3 := 3 } {}, by decide +kernel⟩

/-- RegionAndTranslationCommandsComplete: a state and operands that meet what it asks of setTranslationRootDone. -/
theorem witness_setTranslationRootDone : ∃ (f : FnId) (w : AdmWait) (s : State),
    (awaited 0x22 f w s ∧ allEnded s.dev w.ids = true) :=
  ⟨{}, { op := 0x22 }, wWait { op := 0x22 }, by decide +kernel⟩

/-- RegionAndTranslationCommandsComplete: a state and operands that meet what it asks of invalidate. -/
theorem witness_invalidate : ∃ (f : FnId) (e : Desc) (s : State),
    (admitted 0x23 (if decide (e.f 0x18 8 2 = 3) then .owner else .any) f e s) ∧
    (e.f 0x18 8 2 = 0 → e.w2 ≠ 0) ∧
    (e.f 0x18 8 2 = 1 → (regionOf (entryTaken f s.dev) (targetOf f e) (e.w4.setWidth 32)) ≠ none) :=
  ⟨{}, { w0 := 0x23, w3 := 0x203 }, wAdm { w0 := 0x23, w3 := 0x203 } {}, by decide +kernel⟩

/-- RegionAndTranslationCommandsComplete: a state and operands that meet what it asks of invalidateDone. -/
theorem witness_invalidateDone : ∃ (f : FnId) (w : AdmWait) (s : State),
    (awaited 0x23 f w s ∧ allEnded s.dev w.ids = true) :=
  ⟨{}, { op := 0x23 }, wWait { op := 0x23 }, by decide +kernel⟩

/-- RegionAndTranslationCommandsComplete: a state and operands that meet what it asks of resumeMark. -/
theorem witness_resumeMark : ∃ (f : FnId) (e : Desc) (tr : Trap) (s : State),
    (admitted 0x24 .any f e s) ∧
    (tget (getFn (entryTaken f s.dev) (targetOf f e)).traps (e.f 0x18 0 4) = some tr) :=
  ⟨{}, { w0 := 0x24, w3 := 4 }, { asn := 3 }, wAdm { w0 := 0x24, w3 := 4 } { traps := [(4, { asn := 3 })] }, by decide +kernel⟩

/-- TreeShaperAndParkCommandsComplete: a state and operands that meet what it asks of joinTree. -/
theorem witness_joinTree : ∃ (f : FnId) (e : Desc) (s : State),
    (admitted 0x28 .any f e s) ∧
    ((getFn (entryTaken f s.dev) (targetOf f e)).domain ≠ 0) ∧
    (thas (getFn (entryTaken f s.dev) (targetOf f e)).trees (e.f 0x08 0 14) = false) ∧
    (treeRefuses (entryTaken f s.dev) (targetOf f e) (e.f 0x08 0 14) = false) :=
  ⟨{}, { w0 := 0x28, w1 := 9 }, wTree { w0 := 0x28, w1 := 9 } { domain := 1 } 9, by decide +kernel⟩

/-- TreeShaperAndParkCommandsComplete: a state and operands that meet what it asks of leaveTree. -/
theorem witness_leaveTree : ∃ (f : FnId) (e : Desc) (m : Member) (s : State),
    (admitted 0x29 .any f e s) ∧
    (tget (getFn (entryTaken f s.dev) (targetOf f e)).trees (e.f 0x08 0 14) = some m) ∧
    (m.cur = none ∧ m.waitQ = []) :=
  ⟨{}, { w0 := 0x29, w1 := 9 }, {}, wAdm { w0 := 0x29, w1 := 9 } { trees := [(9, {})] }, by decide +kernel⟩

/-- TreeShaperAndParkCommandsComplete: a state and operands that meet what it asks of setShaper. -/
theorem witness_setShaper : ∃ (f : FnId) (e : Desc) (s : State),
    (admitted 0x30 .pfForItsFns f e s) ∧
    (bit e.w1 8 = true → 1 ≤ (e.f 0x10 0 19) ∧ (e.f 0x10 0 19) ≤ 400000 ∧ 1 ≤ (e.f 0x10 32 14) ∧ (e.f 0x10 32 14) ≤ 16384) :=
  ⟨{}, { w0 := 0x30, w1 := 0x102, w2 := 0x400000064 }, wAdm { w0 := 0x30, w1 := 0x102, w2 := 0x400000064 } {}, by decide +kernel⟩

/-- TreeShaperAndParkCommandsComplete: a state and operands that meet what it asks of setPolicer. -/
theorem witness_setPolicer : ∃ (f : FnId) (e : Desc) (s : State),
    (admitted 0x31 .pfForItsFns f e s) ∧
    (bit e.w1 2 = false) ∧
    (bit e.w1 0 = true → 1 ≤ e.f 0x10 0 19 ∧ e.f 0x10 0 19 ≤ 400000 ∧ 5 ≤ e.f 0x10 32 14 ∧ e.f 0x10 32 14 ≤ 16384) ∧
    (bit e.w1 1 = true → 1 ≤ e.f 0x18 0 19 ∧ e.f 0x18 0 19 ≤ 400000 ∧ 5 ≤ e.f 0x18 32 14 ∧ e.f 0x18 32 14 ≤ 16384) :=
  ⟨{}, { w0 := 0x31, w1 := 1, w2 := 0x800000064 }, wAdm { w0 := 0x31, w1 := 1, w2 := 0x800000064 } { polInDrop := 2 }, by decide +kernel⟩

/-- TreeShaperAndParkCommandsComplete: a state and operands that meet what it asks of setPolicer. -/
theorem witness_setPolicer_keep : ∃ (f : FnId) (e : Desc) (s : State),
    (admitted 0x31 .pfForItsFns f e s) ∧
    (bit e.w1 2 = true) :=
  ⟨{}, { w0 := 0x31, w1 := 5 }, wAdm { w0 := 0x31, w1 := 5 } { polInDrop := 2 }, by decide +kernel⟩

/-- TreeShaperAndParkCommandsComplete: a state and operands that meet what it asks of parkFunction. -/
theorem witness_parkFunction : ∃ (f : FnId) (e : Desc) (s : State),
    (admitted 0x38 .pfForItsFns f e s) ∧
    (∀ q ∈ (getFn (entryTaken f s.dev) (targetOf f e)).sqs, q.2.inflight = []) ∧
    ((backingNeed (entryTaken f s.dev) (targetOf f e)) ≤ e.w2.toNat) :=
  ⟨{}, wPark, wAdm wPark {}, by and_intros <;> decide +kernel⟩

/-- TreeShaperAndParkCommandsComplete: a state and operands that meet what it asks of parkFunctionDone. -/
theorem witness_parkFunctionDone : ∃ (f : FnId) (w : AdmWait) (s : State),
    (awaited 0x38 f w s) ∧
    ((getFn (waitEnded f s.dev) (w.target)).park = .parking ∧ allWritten s.dev (w.target) = true) :=
  ⟨{}, { op := 0x38, target := { port := 1 } }, wS { wDev with fns := [(0, { admWait := some { op := 0x38, target := { port := 1 } } }), (256, { park := .parking })] }, by decide +kernel⟩

/-- TreeShaperAndParkCommandsComplete: a state and operands that meet what it asks of unparkFunction. -/
theorem witness_unparkFunction : ∃ (f : FnId) (e : Desc) (s : State),
    (admitted 0x39 .pfForItsFns f e s) ∧
    ((getFn (entryTaken f s.dev) (targetOf f e)).park = .parked) :=
  ⟨{}, { w0 := 0x39 }, wAdm { w0 := 0x39 } { park := .parked }, by decide +kernel⟩

/-- TreeShaperAndParkCommandsComplete: a state and operands that meet what it asks of unparkFunctionDone. -/
theorem witness_unparkFunctionDone : ∃ (f : FnId) (w : AdmWait) (crcOk : Bool) (s : State),
    (awaited 0x39 f w s) ∧
    ((getFn (waitEnded f s.dev) (w.target)).park = .unparking) :=
  ⟨{}, { op := 0x39, target := { port := 1 } }, true, wS { wDev with fns := [(0, { admWait := some { op := 0x39, target := { port := 1 } } }), (256, { park := .unparking })] }, by decide +kernel⟩

/-- FunctionAndModeCommandsComplete: a state and operands that meet what it asks of setFuncDomain. -/
theorem witness_setFuncDomain : ∃ (f : FnId) (e : Desc) (s : State),
    (admitted 0x40 .pfForItsFns f e s) ∧
    (holdsDomain (entryTaken f s.dev) (targetOf f e) = false) ∧
    (splitInBlock (entryTaken f s.dev) (targetOf f e) = false) :=
  ⟨{}, { w0 := 0x40, w1 := 7 }, wAdm { w0 := 0x40, w1 := 7 } {}, by decide +kernel⟩

/-- FunctionAndModeCommandsComplete: a state and operands that meet what it asks of setFuncQuota. -/
theorem witness_setFuncQuota : ∃ (f : FnId) (e : Desc) (q : QuotaArg) (s : State),
    (admitted 0x41 .pfForItsVfs f e s) :=
  ⟨{}, { w0 := 0x200000041 }, {}, wS { wDev with fns := [(0, { admFetched := [{ w0 := 0x200000041 }] })], hp := [(0, { linkUp := true, vfEnable := true, numVfs := 3 })] }, by decide +kernel⟩

/-- FunctionAndModeCommandsComplete: a state and operands that meet what it asks of queryFunc. -/
theorem witness_queryFunc : ∃ (f : FnId) (e : Desc) (s : State),
    (admitted 0x42 .pfOrSelf f e s) :=
  ⟨{}, { w0 := 0x42 }, wAdm { w0 := 0x42 } {}, by decide +kernel⟩

/-- FunctionAndModeCommandsComplete: a state and operands that meet what it asks of identify. -/
theorem witness_identify : ∃ (f : FnId) (e : Desc) (s : State),
    (admitted 0x50 .any f e s) :=
  ⟨{}, { w0 := 0x50 }, wAdm { w0 := 0x50 } {}, by decide +kernel⟩

/-- FunctionAndModeCommandsComplete: a state and operands that meet what it asks of setMode. -/
theorem witness_setMode : ∃ (f : FnId) (e : Desc) (s : State),
    (admitted 0x48 .owner f e s) ∧
    (bit e.w1 8 = false) ∧
    (modeCheck (entryTaken f s.dev) true (modeOf (e.f 0x08 0 3)) = none) :=
  ⟨{}, { w0 := 0x48, w1 := 5 }, wAdm { w0 := 0x48, w1 := 5 } {}, by decide +kernel⟩

/-- FunctionAndModeCommandsComplete: a state and operands that meet what it asks of setModeDeviceReset. -/
theorem witness_setModeDeviceReset : ∃ (f : FnId) (e : Desc) (s : State),
    (admitted 0x48 .owner f e s) ∧
    (bit e.w1 8 = true) ∧
    ((entryTaken f s.dev).svc.lease = false) :=
  ⟨{}, { w0 := 0x48, w1 := 0x105 }, wAdm { w0 := 0x48, w1 := 0x105 } {}, by decide +kernel⟩

/-- FunctionAndModeCommandsComplete: a state and operands that meet what it asks of modeArbitration. -/
theorem witness_modeArbitration : ∃ (r : ModeReq) (s : State),
    (listens s ∧ s.dev.mode ≠ .quarantine) ∧
    (winner s.dev.modeSt.reqs = some r) :=
  ⟨{ mode := .drain }, wS { wDev with modeSt := { reqs := [{ mode := .drain }] } }, by decide +kernel⟩

/-- FunctionAndModeCommandsComplete: a state and operands that meet what it asks of modeArbitration. -/
theorem witness_modeArbitration_quarantine : ∃ (s : State),
    (listens s ∧ s.dev.mode = .quarantine) :=
  ⟨wS { wDev with mode := .quarantine, modeSt := { reqs := [{ mode := .quarantine }] } }, by decide +kernel⟩

/-- FunctionAndModeCommandsComplete: a state and operands that meet what it asks of faultClear. -/
theorem witness_faultClear : ∃ (f : FnId) (e : Desc) (s : State),
    (admitted 0x4A .owner f e s) ∧
    (bit e.w1 16 = false) ∧
    (knownSource (entryTaken f s.dev) (e.f 0x08 0 9) = true ∧ clearBarred (entryTaken f s.dev) (e.f 0x08 0 9) = false) :=
  ⟨{}, { w0 := 0x4A, w1 := 0x20005 }, wAdm { w0 := 0x4A, w1 := 0x20005 } {}, by decide +kernel⟩

/-- FabricMgmtAndFetchComplete: a state and operands that meet what it asks of fabricMgmtSend. -/
theorem witness_fabricMgmtSend : ∃ (f : FnId) (e : Desc) (buf : List Byte) (s : State),
    (admitted 0x49 .owner f e s) ∧
    (fmOp e = 0) ∧
    (hostFm (entryTaken f s.dev) = true) ∧
    (e.f 0x10 0 11 ≤ 1024 ∧ e.f 0x08 0 3 = 0) :=
  ⟨{}, { w0 := 0x49, w2 := 4 }, [1, 2, 3, 4], wMgr { w0 := 0x49, w2 := 4 }, by decide +kernel⟩

/-- FabricMgmtAndFetchComplete: a state and operands that meet what it asks of fabricMgmtRecv. -/
theorem witness_fabricMgmtRecv : ∃ (f : FnId) (e : Desc) (fr : Frame) (more : List Frame) (s : State),
    (admitted 0x49 .owner f e s) ∧
    (fmOp e = 1) ∧
    (e.f 0x08 0 3 = 0) ∧
    ((entryTaken f s.dev).svc.rx = fr :: more) :=
  ⟨{}, { w0 := 0x49, w2 := 0x10000 }, {}, [], wMgr { w0 := 0x49, w2 := 0x10000 }, by decide +kernel⟩

/-- FabricMgmtAndFetchComplete: a state and operands that meet what it asks of fabricMgmtRecv. -/
theorem witness_fabricMgmtRecv_none : ∃ (f : FnId) (e : Desc) (s : State),
    (admitted 0x49 .owner f e s) ∧
    (fmOp e = 1) ∧
    (e.f 0x08 0 3 = 0) ∧
    ((entryTaken f s.dev).svc.rx = []) :=
  ⟨{}, { w0 := 0x49, w2 := 0x10000 }, wAdm { w0 := 0x49, w2 := 0x10000 } {}, by decide +kernel⟩

/-- FabricMgmtAndFetchComplete: a state and operands that meet what it asks of fabricMgmtLocal. -/
theorem witness_fabricMgmtLocal : ∃ (f : FnId) (e : Desc) (buf : List Byte) (s : State),
    (admitted 0x49 .owner f e s) ∧
    (fmOp e = 2) ∧
    (hostFm (entryTaken f s.dev) = true) ∧
    (e.f 0x08 0 3 = 0) :=
  ⟨{}, { w0 := 0x49, w2 := 0x20000 }, [], wMgr { w0 := 0x49, w2 := 0x20000 }, by decide +kernel⟩

/-- FabricMgmtAndFetchComplete: a state and operands that meet what it asks of fabricMgmtLocal. -/
theorem witness_fabricMgmtLocal_begins : ∃ (f : FnId) (e : Desc) (buf : List Byte) (s : State),
    (admitted 0x49 .owner f e s) ∧
    (fmOp e = 2) ∧
    (hostFm (entryTaken f s.dev) = true) ∧
    (e.f 0x08 0 3 = 0 ∧ (entryTaken f s.dev).svc.cmds = []) :=
  ⟨{}, { w0 := 0x49, w2 := 0x20000 }, [], wMgr { w0 := 0x49, w2 := 0x20000 }, by decide +kernel⟩

/-- FabricMgmtAndFetchComplete: a state and operands that meet what it asks of descriptorFetch. -/
theorem witness_descriptorFetch_sq : ∃ (f : FnId) (n : Fin 65536) (r : Desc) (q : Sq) (s : State),
    (listens s) ∧
    (tget (getFn s.dev f).sqs n.val = some q) ∧
    (q.halted = none ∧ fnSuspended s.dev f = false ∧ q.c ≠ q.p) ∧
    (r.seq = q.c.toNat % 256 ∧ q.c + 1 ≠ q.p ∧ (q.c + 1 - q.lastWb).toNat < 16) :=
  ⟨{}, 5, {}, { p := 2 }, wS { wDev with fns := [(0, { sqs := [(5, { p := 2 })] })] }, by decide +kernel⟩

/-- FabricMgmtAndFetchComplete: a state and operands that meet what it asks of descriptorFetch. -/
theorem witness_descriptorFetch_mismatch : ∃ (f : FnId) (n : Fin 65536) (r : Desc) (q : Sq) (s : State),
    (listens s) ∧
    (tget (getFn s.dev f).sqs n.val = some q) ∧
    (q.halted = none ∧ fnSuspended s.dev f = false ∧ q.c ≠ q.p) ∧
    (r.seq ≠ q.c.toNat % 256) :=
  ⟨{}, 5, { w0 := 0x700 }, { p := 2 }, wS { wDev with fns := [(0, { sqs := [(5, { p := 2 })] })] }, by decide +kernel⟩

/-- FabricMgmtAndFetchComplete: a state and operands that meet what it asks of descriptorFetch. -/
theorem witness_descriptorFetch_failed : ∃ (f : FnId) (n : Fin 65536) (aer : Fin 32) (q : Sq) (s : State),
    (listens s) ∧
    (tget (getFn s.dev f).sqs n.val = some q) ∧
    (q.halted = none ∧ fnSuspended s.dev f = false ∧ q.c ≠ q.p) :=
  ⟨{}, 5, 0, { p := 2 }, wS { wDev with fns := [(0, { sqs := [(5, { p := 2 })] })] }, by decide +kernel⟩

/-- FabricMgmtAndFetchComplete: a state and operands that meet what it asks of descriptorFetch. -/
theorem witness_descriptorFetch : ∃ (f : FnId) (n : Fin 65536) (res : List FetchRes) (q : Sq) (s : State),
    (listens s) ∧
    (tget (getFn s.dev f).sqs n.val = some q) ∧
    (q.halted = none ∧ fnSuspended s.dev f = false) :=
  ⟨{}, 5, [.entry {}], { p := 1 }, wS { wDev with fns := [(0, { sqs := [(5, { p := 1 })] })] }, by decide +kernel⟩

/-- FabricMgmtAndFetchComplete: a state and operands that meet what it asks of descriptorFetch. -/
theorem witness_descriptorFetch_adminEntry : ∃ (f : FnId) (r : Desc) (s : State),
    (listens s) ∧
    ((getFn s.dev f).aqEnable = true ∧ (getFn s.dev f).aqHalted = none ∧ (getFn s.dev f).inFlr = false ∧ (getFn s.dev f).fenced = false ∧ (getFn s.dev f).acqSlot = []) ∧
    (fnExists s.dev f = true ∧ s.dev.mode ≠ .quarantine ∧ s.dev.boot.phase = .running) ∧
    ((getFn s.dev f).aqC ≠ (getFn s.dev f).aqP ∧ r.seq = (getFn s.dev f).aqC.toNat % 256 ∧ (getFn s.dev f).aqC + 1 ≠ (getFn s.dev f).aqP ∧ ((getFn s.dev f).aqC + 1 - (getFn s.dev f).aqLastWb).toNat < 16) :=
  ⟨{}, {}, wS { wDev with fns := [(0, { aqEnable := true, aqP := 2 })] }, by decide +kernel⟩

/-- FabricMgmtAndFetchComplete: a state and operands that meet what it asks of descriptorFetch. -/
theorem witness_descriptorFetch_adminMismatch : ∃ (f : FnId) (r : Desc) (s : State),
    (listens s) ∧
    ((getFn s.dev f).aqEnable = true ∧ (getFn s.dev f).aqHalted = none ∧ (getFn s.dev f).inFlr = false ∧ (getFn s.dev f).fenced = false ∧ (getFn s.dev f).acqSlot = []) ∧
    (fnExists s.dev f = true ∧ s.dev.mode ≠ .quarantine ∧ s.dev.boot.phase = .running) ∧
    ((getFn s.dev f).aqC ≠ (getFn s.dev f).aqP ∧ r.seq ≠ (getFn s.dev f).aqC.toNat % 256) :=
  ⟨{}, { w0 := 0x700 }, wS { wDev with fns := [(0, { aqEnable := true, aqP := 2 })] }, by decide +kernel⟩

/-- FabricMgmtAndFetchComplete: a state and operands that meet what it asks of descriptorFetch. -/
theorem witness_descriptorFetch_admin : ∃ (f : FnId) (res : List FetchRes) (s : State),
    (listens s) ∧
    ((getFn s.dev f).aqEnable = true ∧ (getFn s.dev f).aqHalted = none ∧ (getFn s.dev f).inFlr = false ∧ (getFn s.dev f).fenced = false ∧ (getFn s.dev f).acqSlot = []) ∧
    (fnExists s.dev f = true ∧ s.dev.mode ≠ .quarantine ∧ s.dev.boot.phase = .running) :=
  ⟨{}, [.entry {}], wS { wDev with fns := [(0, { aqEnable := true, aqP := 1 })] }, by decide +kernel⟩

/-- WorkOnConnectionsComplete: a state and operands that meet what it asks of put. -/
theorem witness_put : ∃ (f : FnId) (sq : Fin 65536) (e : Desc) (q : Sq) (y : Fetched) (c : Conn) (s : State),
    (starts 0x01 f sq e q y s) ∧
    (connStatus (descTaken 0x01 f sq e q y s.dev) f e = .ok c) ∧
    (reachable (descTaken 0x01 f sq e q y s.dev) c.peer = true) :=
  ⟨{}, 1, { w0 := 0x700000001, w2 := 0x100, w3 := 0x4000000201 }, wSq { w0 := 0x700000001, w2 := 0x100, w3 := 0x4000000201 }, { d := { w0 := 0x700000001, w2 := 0x100, w3 := 0x4000000201 } }, wC, wWork { w0 := 0x700000001, w2 := 0x100, w3 := 0x4000000201 }, by and_intros <;> first | decide +kernel | rfl⟩

/-- WorkOnConnectionsComplete: a state and operands that meet what it asks of putFlag. -/
theorem witness_putFlag : ∃ (f : FnId) (sq : Fin 65536) (e : Desc) (q : Sq) (y : Fetched) (c : Conn) (s : State),
    (starts 0x02 f sq e q y s) ∧
    (connStatus (descTaken 0x02 f sq e q y s.dev) f e = .ok c) ∧
    (reachable (descTaken 0x02 f sq e q y s.dev) c.peer = true) :=
  ⟨{}, 1, { w0 := 0x700000002, w2 := 0x100, w3 := 0x4000000201 }, wSq { w0 := 0x700000002, w2 := 0x100, w3 := 0x4000000201 }, { d := { w0 := 0x700000002, w2 := 0x100, w3 := 0x4000000201 } }, wC, wWork { w0 := 0x700000002, w2 := 0x100, w3 := 0x4000000201 }, by and_intros <;> first | decide +kernel | rfl⟩

/-- WorkOnConnectionsComplete: a state and operands that meet what it asks of get. -/
theorem witness_get : ∃ (f : FnId) (sq : Fin 65536) (e : Desc) (q : Sq) (y : Fetched) (c : Conn) (s : State),
    (starts 0x03 f sq e q y s) ∧
    (connStatus (descTaken 0x03 f sq e q y s.dev) f e = .ok c) ∧
    (reachable (descTaken 0x03 f sq e q y s.dev) c.peer = true) :=
  ⟨{}, 1, { w0 := 0x700000003, w2 := 0x100, w3 := 0x4000000201 }, wSq { w0 := 0x700000003, w2 := 0x100, w3 := 0x4000000201 }, { d := { w0 := 0x700000003, w2 := 0x100, w3 := 0x4000000201 } }, wC, wWork { w0 := 0x700000003, w2 := 0x100, w3 := 0x4000000201 }, by and_intros <;> first | decide +kernel | rfl⟩

/-- WorkOnConnectionsComplete: a state and operands that meet what it asks of atomic. -/
theorem witness_atomic : ∃ (f : FnId) (sq : Fin 65536) (e : Desc) (q : Sq) (y : Fetched) (c : Conn) (s : State),
    (starts 0x04 f sq e q y s) ∧
    (connStatus (descTaken 0x04 f sq e q y s.dev) f e = .ok c) ∧
    (reachable (descTaken 0x04 f sq e q y s.dev) c.peer = true) :=
  ⟨{}, 1, { w0 := 0x700000004, w2 := 0x100, w3 := 0x201 }, wSq { w0 := 0x700000004, w2 := 0x100, w3 := 0x201 }, { d := { w0 := 0x700000004, w2 := 0x100, w3 := 0x201 } }, wC, wWork { w0 := 0x700000004, w2 := 0x100, w3 := 0x201 }, by and_intros <;> first | decide +kernel | rfl⟩

/-- WorkOnConnectionsComplete: a state and operands that meet what it asks of sendTagged. -/
theorem witness_sendTagged : ∃ (f : FnId) (sq : Fin 65536) (e : Desc) (q : Sq) (y : Fetched) (c : Conn) (s : State),
    (starts 0x05 f sq e q y s) ∧
    (connStatus (descTaken 0x05 f sq e q y s.dev) f e = .ok c) ∧
    (reachable (descTaken 0x05 f sq e q y s.dev) c.peer = true) :=
  ⟨{}, 1, { w0 := 0x700000005, w2 := 0x100, w3 := 0x4000000201 }, wSq { w0 := 0x700000005, w2 := 0x100, w3 := 0x4000000201 }, { d := { w0 := 0x700000005, w2 := 0x100, w3 := 0x4000000201 } }, wC, wWork { w0 := 0x700000005, w2 := 0x100, w3 := 0x4000000201 }, by and_intros <;> first | decide +kernel | rfl⟩

/-- WorkOnConnectionsComplete: a state and operands that meet what it asks of nop. -/
theorem witness_nop : ∃ (f : FnId) (sq : Fin 65536) (e : Desc) (q : Sq) (y : Fetched) (s : State),
    (starts 0x00 f sq e q y s) :=
  ⟨{}, 1, { w0 := 0x00 }, wSq { w0 := 0x00 }, { d := { w0 := 0x00 } }, wWork { w0 := 0x00 }, by decide +kernel⟩

/-- WorkOnConnectionsComplete: a state and operands that meet what it asks of fence. -/
theorem witness_fence : ∃ (f : FnId) (sq : Fin 65536) (e : Desc) (q : Sq) (y : Fetched) (s : State),
    (starts 0x09 f sq e q y s) :=
  ⟨{}, 1, { w0 := 0x09 }, wSq { w0 := 0x09 }, { d := { w0 := 0x09 } }, wWork { w0 := 0x09 }, by decide +kernel⟩

/-- WorkOnContextsComplete: a state and operands that meet what it asks of postRecv. -/
theorem witness_postRecv_matched : ∃ (f : FnId) (sq : Fin 65536) (e : Desc) (q : Sq) (y : Fetched) (x : Mctx) (r : MsgRec) (s : State),
    (starts 0x06 f sq e q y s) ∧
    (recvStatus (descTaken 0x06 f sq e q y s.dev) f e = .ok x) ∧
    (selectMsg (setMctx e.mctx { x with postSeq := x.postSeq + 1 } (noteSearch f (msgsExamined (descTaken 0x06 f sq e q y s.dev) e.mctx ({ seq := x.postSeq, tag := e.remoteVa, ignore := e.ignore, va := e.w2, key := e.localKey, len := e.length, source := e.source, anySource := e.anySource, wild := e.anySource || e.ignore != 0, mctx := e.mctx, fn := f, sq := sq.val, cnt := y.cnt, cq := workCq s.dev f q e, userCtx := e.userCtx } : Posted)) (descTaken 0x06 f sq e q y s.dev))) e.mctx ({ seq := x.postSeq, tag := e.remoteVa, ignore := e.ignore, va := e.w2, key := e.localKey, len := e.length, source := e.source, anySource := e.anySource, wild := e.anySource || e.ignore != 0, mctx := e.mctx, fn := f, sq := sq.val, cnt := y.cnt, cq := workCq s.dev f q e, userCtx := e.userCtx } : Posted) = some r) :=
  ⟨{}, 1, { w0 := 0x10006, w2 := 0x100, w3 := 0x4000000201, w4 := 9, w6 := 0x300000000 }, wSq { w0 := 0x10006, w2 := 0x100, w3 := 0x4000000201, w4 := 9, w6 := 0x300000000 }, { d := { w0 := 0x10006, w2 := 0x100, w3 := 0x4000000201, w4 := 9, w6 := 0x300000000 } }, {}, wMsg, wMsgs { w0 := 0x10006, w2 := 0x100, w3 := 0x4000000201, w4 := 9, w6 := 0x300000000 }, by and_intros <;> first | decide +kernel | rfl⟩

/-- WorkOnContextsComplete: a state and operands that meet what it asks of postRecv. -/
theorem witness_postRecv_posted : ∃ (f : FnId) (sq : Fin 65536) (e : Desc) (q : Sq) (y : Fetched) (x : Mctx) (s : State),
    (starts 0x06 f sq e q y s) ∧
    (recvStatus (descTaken 0x06 f sq e q y s.dev) f e = .ok x) ∧
    (selectMsg (setMctx e.mctx { x with postSeq := x.postSeq + 1 } (noteSearch f (msgsExamined (descTaken 0x06 f sq e q y s.dev) e.mctx ({ seq := x.postSeq, tag := e.remoteVa, ignore := e.ignore, va := e.w2, key := e.localKey, len := e.length, source := e.source, anySource := e.anySource, wild := e.anySource || e.ignore != 0, mctx := e.mctx, fn := f, sq := sq.val, cnt := y.cnt, cq := workCq s.dev f q e, userCtx := e.userCtx } : Posted)) (descTaken 0x06 f sq e q y s.dev))) e.mctx ({ seq := x.postSeq, tag := e.remoteVa, ignore := e.ignore, va := e.w2, key := e.localKey, len := e.length, source := e.source, anySource := e.anySource, wild := e.anySource || e.ignore != 0, mctx := e.mctx, fn := f, sq := sq.val, cnt := y.cnt, cq := workCq s.dev f q e, userCtx := e.userCtx } : Posted) = none) :=
  ⟨{}, 1, { w0 := 0x10006, w2 := 0x100, w3 := 0x4000000201, w4 := 9, w6 := 0x300000000 }, wSq { w0 := 0x10006, w2 := 0x100, w3 := 0x4000000201, w4 := 9, w6 := 0x300000000 }, { d := { w0 := 0x10006, w2 := 0x100, w3 := 0x4000000201, w4 := 9, w6 := 0x300000000 } }, {}, wWork { w0 := 0x10006, w2 := 0x100, w3 := 0x4000000201, w4 := 9, w6 := 0x300000000 }, by and_intros <;> first | decide +kernel | rfl⟩

/-- WorkOnContextsComplete: a state and operands that meet what it asks of postRecv. -/
theorem witness_postRecv_full : ∃ (f : FnId) (sq : Fin 65536) (e : Desc) (q : Sq) (y : Fetched) (x : Mctx) (g : Region) (s : State),
    (starts 0x06 f sq e q y s) ∧
    (refusedByState (descTaken 0x06 f sq e q y s.dev) f = none ∧ e.signal = true) ∧
    (getMctx (descTaken 0x06 f sq e q y s.dev) e.mctx = some x ∧ x.fn = f ∧ x.st ≠ .lost) ∧
    (checkRegion (descTaken 0x06 f sq e q y s.dev) f e.localKey e.localVa e.length .localWrite = .ok g) ∧
    ((x.maxPosted ≠ 0 ∧ x.maxPosted ≤ postedIn (descTaken 0x06 f sq e q y s.dev) e.mctx x) ∨ 4194304 ≤ postedUsed (descTaken 0x06 f sq e q y s.dev)) :=
  ⟨{}, 1, { w0 := 0x10006, w2 := 0x100, w3 := 0x4000000201, w4 := 9, w6 := 0x300000000 }, wSq { w0 := 0x10006, w2 := 0x100, w3 := 0x4000000201, w4 := 9, w6 := 0x300000000 }, { d := { w0 := 0x10006, w2 := 0x100, w3 := 0x4000000201, w4 := 9, w6 := 0x300000000 } }, { maxPosted := 1, posted := [{}] }, wR, wMctxs { w0 := 0x10006, w2 := 0x100, w3 := 0x4000000201, w4 := 9, w6 := 0x300000000 } { maxPosted := 1, posted := [{}] }, by and_intros <;> first | decide +kernel | rfl⟩

/-- WorkOnContextsComplete: a state and operands that meet what it asks of postRecv. -/
theorem witness_postRecv_refused : ∃ (f : FnId) (sq : Fin 65536) (e : Desc) (q : Sq) (y : Fetched) (st : Status) (s : State),
    (starts 0x06 f sq e q y s) ∧
    (recvStatus (descTaken 0x06 f sq e q y s.dev) f e = .error st) :=
  ⟨{}, 1, { w0 := 0x06, w6 := 0x300000000 }, wSq { w0 := 0x06, w6 := 0x300000000 }, { d := { w0 := 0x06, w6 := 0x300000000 } }, .invalidParam, wMsgs { w0 := 0x06, w6 := 0x300000000 }, by and_intros <;> first | decide +kernel | rfl⟩

/-- WorkOnContextsComplete: a state and operands that meet what it asks of note. -/
theorem witness_note_read : ∃ (f : FnId) (sq : Fin 65536) (e : Desc) (q : Sq) (y : Fetched) (r : Region) (s : State),
    (starts 0x07 f sq e q y s) ∧
    (noteStatus (descTaken 0x07 f sq e q y s.dev) f e = .ok r) ∧
    (e.length ≠ 0) :=
  ⟨{}, 1, { w0 := 0x07, w2 := 0x100, w3 := 0x4000000201, w5 := 0x400 }, wSq { w0 := 0x07, w2 := 0x100, w3 := 0x4000000201, w5 := 0x400 }, { d := { w0 := 0x07, w2 := 0x100, w3 := 0x4000000201, w5 := 0x400 } }, wR, wWork { w0 := 0x07, w2 := 0x100, w3 := 0x4000000201, w5 := 0x400 }, by and_intros <;> first | decide +kernel | rfl⟩

/-- WorkOnContextsComplete: a state and operands that meet what it asks of note. -/
theorem witness_note_empty : ∃ (f : FnId) (sq : Fin 65536) (e : Desc) (q : Sq) (y : Fetched) (r : Region) (s : State),
    (starts 0x07 f sq e q y s) ∧
    (noteStatus (descTaken 0x07 f sq e q y s.dev) f e = .ok r) ∧
    (e.length = 0) :=
  ⟨{}, 1, { w0 := 0x07, w2 := 0x100, w3 := 0x201, w5 := 0x400 }, wSq { w0 := 0x07, w2 := 0x100, w3 := 0x201, w5 := 0x400 }, { d := { w0 := 0x07, w2 := 0x100, w3 := 0x201, w5 := 0x400 } }, wR, wWork { w0 := 0x07, w2 := 0x100, w3 := 0x201, w5 := 0x400 }, by and_intros <;> first | decide +kernel | rfl⟩

/-- WorkOnContextsComplete: a state and operands that meet what it asks of coll. -/
theorem witness_coll : ∃ (f : FnId) (sq : Fin 65536) (e : Desc) (q : Sq) (y : Fetched) (s : State),
    (starts 0x08 f sq e q y s) ∧
    (collStatus (descTaken 0x08 f sq e q y s.dev) f e = none) :=
  ⟨{}, 1, wColl, wSq wColl, { d := wColl }, wWork wColl, by decide +kernel⟩

/-- DoorbellsComplete: a state and operands that meet what it asks of sqDoorbell. -/
theorem witness_sqDoorbell : ∃ (f : FnId) (n : Fin 65536) (w : Wr) (q : Sq) (count : Word32) (arm : Bool) (p : Word32) (s : State),
    (listens s ∧ dbLive (s.dev) f = true) ∧
    (dbValue w = some (count, arm)) ∧
    (tget (getFn (s.dev) f).sqs n.val = some q ∧ q.halted = none) ∧
    (dbAdvance q.log2 q.p q.c count = .ok p) :=
  ⟨{}, 5, .full 3, { log2 := 4, p := 1 }, 3, false, 3, wS { wDev with fns := [(0, { sqs := [(5, { log2 := 4, p := 1 })] })] }, by and_intros <;> first | decide +kernel | rfl⟩

/-- DoorbellsComplete: a state and operands that meet what it asks of aqDb. -/
theorem witness_aqDb : ∃ (f : FnId) (w : Wr) (count : Word32) (arm : Bool) (p : Word32) (s : State),
    (listens s ∧ dbLive (s.dev) f = true) ∧
    (dbValue w = some (count, arm)) ∧
    ((getFn (s.dev) f).aqEnable = true ∧ (getFn (s.dev) f).aqHalted = none) ∧
    (dbAdvance (getFn (s.dev) f).aqLog2 (getFn (s.dev) f).aqP (getFn (s.dev) f).aqC count = .ok p) :=
  ⟨{}, .low 3, 3, false, 3, wS { wDev with fns := [(0, { aqEnable := true, aqLog2 := 4 })] }, by and_intros <;> first | decide +kernel | rfl⟩

/-- DoorbellsComplete: a state and operands that meet what it asks of acqDb. -/
theorem witness_acqDb : ∃ (f : FnId) (w : Wr) (count : Word32) (arm : Bool) (s : State),
    (listens s ∧ dbLive (s.dev) f = true) ∧
    (dbValue w = some (count, arm)) ∧
    ((getFn (s.dev) f).acqEnable = true ∧ countInRange (getFn (s.dev) f).acqH (getFn (s.dev) f).acqW count = true) :=
  ⟨{}, .full 0x100000002, 2, true, wS { wDev with fns := [(0, { acqEnable := true, acqW := 2 })] }, by decide +kernel⟩

/-- DoorbellsComplete: a state and operands that meet what it asks of cqDoorbell. -/
theorem witness_cqDoorbell : ∃ (f : FnId) (n : Fin 65536) (w : Wr) (q : Cq) (count : Word32) (arm : Bool) (s : State),
    (listens s ∧ dbLive (s.dev) f = true) ∧
    (dbValue w = some (count, arm)) ∧
    (tget (getFn (s.dev) f).cqs n.val = some q ∧ countInRange q.h q.w count = true) :=
  ⟨{}, 5, .full 0x100000002, { w := 2 }, 2, true, wS { wDev with fns := [(0, { cqs := [(5, { w := 2 })] })] }, by decide +kernel⟩

/-- DoorbellsComplete: a state and operands that meet what it asks of eqDoorbell. -/
theorem witness_eqDoorbell : ∃ (f : FnId) (n : Fin 4096) (w : Wr) (r : Eq) (count : Word32) (arm : Bool) (s : State),
    (listens s ∧ dbLive (s.dev) f = true) ∧
    (dbValue w = some (count, arm)) ∧
    (tget (getFn (s.dev) f).eqs n.val = some r ∧ countInRange r.h r.w count = true) :=
  ⟨{}, 5, .full 0x100000002, { w := 2 }, 2, true, wS { wDev with fns := [(0, { eqs := [(5, { w := 2 })] })] }, by decide +kernel⟩

/-- DoorbellsOutOfPlace: a state and operands that meet what it asks of sqDoorbell. -/
theorem witness_sqDoorbell_overrun : ∃ (f : FnId) (n : Fin 65536) (w : Wr) (q : Sq) (count : Word32) (arm : Bool) (s : State),
    (listens s ∧ dbLive (s.dev) f = true) ∧
    (dbValue w = some (count, arm)) ∧
    (tget (getFn (s.dev) f).sqs n.val = some q ∧ q.halted = none) ∧
    (2 ^ q.log2 - (q.p - q.c).toNat < (count - q.p).toNat) :=
  ⟨{}, 5, .full 18, { log2 := 4, p := 1 }, 18, false, wS { wDev with fns := [(0, { sqs := [(5, { log2 := 4, p := 1 })] })] }, by decide +kernel⟩

/-- DoorbellsOutOfPlace: a state and operands that meet what it asks of sqDoorbell. -/
theorem witness_sqDoorbell_dropped : ∃ (f : FnId) (n : Fin 65536) (w : Wr) (count : Word32) (arm : Bool) (s : State),
    (listens s ∧ dbLive (s.dev) f = true) ∧
    (dbValue w = some (count, arm)) ∧
    ((tget (getFn (s.dev) f).sqs n.val).all (fun q => q.halted.isSome) = true) :=
  ⟨{}, 5, .full 18, 18, false, wS wDev, by decide +kernel⟩

/-- DoorbellsOutOfPlace: a state and operands that meet what it asks of cqDoorbell. -/
theorem witness_cqDoorbell_dropped : ∃ (f : FnId) (n : Fin 65536) (w : Wr) (q : Cq) (count : Word32) (arm : Bool) (s : State),
    (listens s ∧ dbLive (s.dev) f = true) ∧
    (dbValue w = some (count, arm)) ∧
    (tget (getFn (s.dev) f).cqs n.val = some q ∧ countInRange q.h q.w count = false) :=
  ⟨{}, 5, .full 3, { w := 2 }, 3, false, wS { wDev with fns := [(0, { cqs := [(5, { w := 2 })] })] }, by decide +kernel⟩

/-- DoorbellsOutOfPlace: a state and operands that meet what it asks of eqDoorbell. -/
theorem witness_eqDoorbell_dropped : ∃ (f : FnId) (n : Fin 4096) (w : Wr) (r : Eq) (count : Word32) (arm : Bool) (s : State),
    (listens s ∧ dbLive (s.dev) f = true) ∧
    (dbValue w = some (count, arm)) ∧
    (tget (getFn (s.dev) f).eqs n.val = some r ∧ countInRange r.h r.w count = false) :=
  ⟨{}, 5, .full 3, { w := 2 }, 3, false, wS { wDev with fns := [(0, { eqs := [(5, { w := 2 })] })] }, by decide +kernel⟩

/-- DoorbellsOutOfPlace: a state and operands that meet what it asks of cqDoorbell. -/
theorem witness_cqDoorbell_absent : ∃ (f : FnId) (n : Fin 65536) (w : Wr) (count : Word32) (arm : Bool) (s : State),
    (listens s ∧ dbLive (s.dev) f = true) ∧
    (dbValue w = some (count, arm)) ∧
    (tget (getFn (s.dev) f).cqs n.val = none) :=
  ⟨{}, 5, .full 3, 3, false, wS wDev, by decide +kernel⟩

/-- DoorbellsOutOfPlace: a state and operands that meet what it asks of eqDoorbell. -/
theorem witness_eqDoorbell_absent : ∃ (f : FnId) (n : Fin 4096) (w : Wr) (count : Word32) (arm : Bool) (s : State),
    (listens s ∧ dbLive (s.dev) f = true) ∧
    (dbValue w = some (count, arm)) ∧
    (tget (getFn (s.dev) f).eqs n.val = none) :=
  ⟨{}, 5, .full 3, 3, false, wS wDev, by decide +kernel⟩

/-- DoorbellsOutOfPlace: a state and operands that meet what it asks of aqDb. -/
theorem witness_aqDb_overrun : ∃ (f : FnId) (w : Wr) (count : Word32) (arm : Bool) (s : State),
    (listens s ∧ dbLive (s.dev) f = true) ∧
    (dbValue w = some (count, arm)) ∧
    ((getFn (s.dev) f).aqEnable = true ∧ (getFn (s.dev) f).aqHalted = none) ∧
    (2 ^ (getFn (s.dev) f).aqLog2 - ((getFn (s.dev) f).aqP - (getFn (s.dev) f).aqC).toNat < (count - (getFn (s.dev) f).aqP).toNat) :=
  ⟨{}, .full 18, 18, false, wS { wDev with fns := [(0, { aqEnable := true, aqLog2 := 4 })] }, by decide +kernel⟩

/-- DoorbellsOutOfPlace: a state and operands that meet what it asks of aqDb. -/
theorem witness_aqDb_dropped : ∃ (f : FnId) (w : Wr) (count : Word32) (arm : Bool) (s : State),
    (listens s ∧ dbLive (s.dev) f = true) ∧
    (dbValue w = some (count, arm)) ∧
    ((getFn (s.dev) f).aqEnable = true ∧ (getFn (s.dev) f).aqHalted.isSome = true) :=
  ⟨{}, .full 3, 3, false, wS { wDev with fns := [(0, { aqEnable := true, aqHalted := some .sqSeqMismatch })] }, by decide +kernel⟩

/-- DoorbellsOutOfPlace: a state and operands that meet what it asks of aqDb. -/
theorem witness_aqDb_off : ∃ (f : FnId) (w : Wr) (s : State),
    (listens s) ∧
    ((getFn (s.dev) f).aqEnable = false) :=
  ⟨{}, .full 3, wS wDev, by decide +kernel⟩

/-- DoorbellsOutOfPlace: a state and operands that meet what it asks of acqDb. -/
theorem witness_acqDb_dropped : ∃ (f : FnId) (w : Wr) (count : Word32) (arm : Bool) (s : State),
    (listens s ∧ dbLive (s.dev) f = true) ∧
    (dbValue w = some (count, arm)) ∧
    ((getFn (s.dev) f).acqEnable = true ∧ countInRange (getFn (s.dev) f).acqH (getFn (s.dev) f).acqW count = false) :=
  ⟨{}, .full 3, 3, false, wS { wDev with fns := [(0, { acqEnable := true, acqW := 2 })] }, by decide +kernel⟩

/-- DoorbellsOutOfPlace: a state and operands that meet what it asks of acqDb. -/
theorem witness_acqDb_off : ∃ (f : FnId) (w : Wr) (s : State),
    (listens s) ∧
    ((getFn (s.dev) f).acqEnable = false) :=
  ⟨{}, .full 3, wS wDev, by decide +kernel⟩

/-- QueueRegistersAndTimersComplete: a state and operands that meet what it asks of aqCfgWrite. -/
theorem witness_aqCfgWrite : ∃ (f : FnId) (w : Wr) (s : State),
    (listens s) ∧
    (fnExists (s.dev) f = true ∧ (getFn (s.dev) f).pci.d3 = false) ∧
    (meterHold (s.dev) = true → wouldEnable w (getFn (s.dev) f) = false) :=
  ⟨{}, .full 0x8000000000000006, wS { wDev with fns := [(0, { acqEnable := true })] }, by decide +kernel⟩

/-- QueueRegistersAndTimersComplete: a state and operands that meet what it asks of acqCfgWrite. -/
theorem witness_acqCfgWrite : ∃ (f : FnId) (w : Wr) (s : State),
    (listens s) ∧
    (fnExists (s.dev) f = true ∧ (getFn (s.dev) f).pci.d3 = false) :=
  ⟨{}, .full 0x8000000000000006, wS wDev, by decide +kernel⟩

/-- QueueRegistersAndTimersComplete: a state and operands that meet what it asks of cqStallTimeout. -/
theorem witness_cqStallTimeout : ∃ (f : FnId) (n : Fin 65536) (q : Cq) (s : State),
    (listens s) ∧
    (tget (getFn (s.dev) f).cqs n.val = some q ∧ cqFull q = true ∧ q.stalled = false) :=
  ⟨{}, 5, { log2 := 4, w := 16, buf := [(false, {})] }, wS { wDev with fns := [(0, { cqs := [(5, { log2 := 4, w := 16, buf := [(false, {})] })] })] }, by decide +kernel⟩

/-- QueueRegistersAndTimersComplete: a state and operands that meet what it asks of coalTimeExpiry. -/
theorem witness_coalTimeExpiry : ∃ (f : FnId) (n : Fin 65536) (q : Cq) (s : State),
    (listens s) ∧
    (tget (getFn (s.dev) f).cqs n.val = some q ∧ q.ien = true ∧ 0 < q.pend ∧ 0 < q.coalTime) :=
  ⟨{}, 5, { ien := true, pend := 1, coalTime := 2 }, wS { wDev with fns := [(0, { cqs := [(5, { ien := true, pend := 1, coalTime := 2 })] })] }, by decide +kernel⟩

/-- FunctionEventsComplete: a state and operands that meet what it asks of ownerCtlWrite. -/
theorem witness_ownerCtlWrite : ∃ (m : Master) (w : Wr) (s : State),
    (atOnce m s) ∧
    (listens s) ∧
    (mayWrite s.dev m = true) :=
  ⟨.fabricManager, .full 2, wS wDev, by decide +kernel⟩

/-- FunctionEventsComplete: a state and operands that meet what it asks of functionLevelReset. -/
theorem witness_functionLevelReset : ∃ (f : FnId) (s : State),
    (listens s) ∧
    (fnExists s.dev f = true ∧ (getFn s.dev f).inFlr = false) :=
  ⟨{}, wS wDev, by decide +kernel⟩

/-- FunctionEventsComplete: a state and operands that meet what it asks of flrComplete. -/
theorem witness_flrComplete : ∃ (f : FnId) (s : State),
    (listens s) ∧
    ((getFn s.dev f).inFlr = true ∧ fnExists s.dev f = true) :=
  ⟨{}, wS { wDev with fns := [(0, { inFlr := true })] }, by decide +kernel⟩

/-- FunctionEventsComplete: a state and operands that meet what it asks of vfDisable. -/
theorem witness_vfDisable : ∃ (p : Fin 4) (num : Fin 256) (en : Bool) (s : State),
    (listens s) :=
  ⟨0, 1, true, wS { wDev with hp := [(0, { linkUp := true, vfEnable := true, numVfs := 3 })] }, by decide +kernel⟩

/-- FunctionEventsComplete: a state and operands that meet what it asks of vfTeardownDone. -/
theorem witness_vfTeardownDone : ∃ (f : FnId) (s : State),
    (listens s) ∧
    ((getFn s.dev f).inFlr = true ∧ f.num ≠ 0) :=
  ⟨{ num := 2 }, wS { wDev with fns := [(2, { inFlr := true })] }, by decide +kernel⟩

/-- FunctionEventsComplete: a state and operands that meet what it asks of hostLinkDown. -/
theorem witness_hostLinkDown : ∃ (p : Fin 4) (s : State),
    (listens s) ∧
    ((getHp s.dev p).linkUp = true) :=
  ⟨0, wS wDev, by decide +kernel⟩

/-- FunctionEventsComplete: a state and operands that meet what it asks of hostPortReset. -/
theorem witness_hostPortReset : ∃ (p : Fin 4) (s : State),
    (listens s) :=
  ⟨0, wS wDev, by decide +kernel⟩

/-- FunctionEventsComplete: a state and operands that meet what it asks of hostLinkUp. -/
theorem witness_hostLinkUp : ∃ (p : Fin 4) (s : State),
    (listens s) ∧
    (s.dev.mode ≠ .transit ∧ s.dev.mode ≠ .recovery ∧ s.dev.boot.phase = .running) :=
  ⟨1, wS wDev, by decide +kernel⟩

/-- FunctionEventsComplete: a state and operands that meet what it asks of pcieConfigWrite. -/
theorem witness_pcieConfigWrite_busMaster : ∃ (f : FnId) (on : Bool) (s : State),
    (listens s) ∧
    (fnExists s.dev f = true ∧ (getHp s.dev f.port).linkUp = true ∧ (getFn s.dev f).inFlr = false) :=
  ⟨{}, true, wS wDev, by decide +kernel⟩

/-- FunctionEventsComplete: a state and operands that meet what it asks of pcieConfigWrite. -/
theorem witness_pcieConfigWrite_bar : ∃ (f : FnId) (n : Fin 3) (a : Word64) (s : State),
    (listens s ∧ f.num = 0) ∧
    (fnExists s.dev f = true ∧ (getHp s.dev f.port).linkUp = true ∧ (getFn s.dev f).inFlr = false) :=
  ⟨{}, 0, 0x12345678, wS wDev, by decide +kernel⟩

/-- FunctionEventsComplete: a state and operands that meet what it asks of pcieConfigWrite. -/
theorem witness_pcieConfigWrite_vfBar : ∃ (f : FnId) (n : Fin 3) (a : Word64) (s : State),
    (listens s ∧ f.num = 0) ∧
    (fnExists s.dev f = true ∧ (getHp s.dev f.port).linkUp = true ∧ (getFn s.dev f).inFlr = false) :=
  ⟨{}, 0, 0x12345678, wS wDev, by decide +kernel⟩

/-- FunctionEventsComplete: a state and operands that meet what it asks of pcieConfigWrite. -/
theorem witness_pcieConfigWrite_numVfs : ∃ (f : FnId) (n : Fin 256) (s : State),
    (listens s ∧ f.num = 0) ∧
    (fnExists s.dev f = true ∧ (getHp s.dev f.port).linkUp = true ∧ (getFn s.dev f).inFlr = false) ∧
    (vanishing s.dev f.port n.val (getHp s.dev f.port).vfEnable = []) :=
  ⟨{}, 4, wS wDev, by decide +kernel⟩

/-- FunctionEventsComplete: a state and operands that meet what it asks of pcieConfigWrite. -/
theorem witness_pcieConfigWrite_vfEnable : ∃ (f : FnId) (on : Bool) (s : State),
    (listens s ∧ f.num = 0) ∧
    (fnExists s.dev f = true ∧ (getHp s.dev f.port).linkUp = true ∧ (getFn s.dev f).inFlr = false) ∧
    (vanishing s.dev f.port (getHp s.dev f.port).numVfs on = []) :=
  ⟨{}, true, wS wDev, by decide +kernel⟩

/-- FunctionEventsComplete: a state and operands that meet what it asks of pcieConfigWrite. -/
theorem witness_pcieConfigWrite_pci : ∃ (f : FnId) (w : PciWr) (s : State),
    (listens s) ∧
    (fnExists s.dev f = true ∧ (getHp s.dev f.port).linkUp = true ∧ (getFn s.dev f).inFlr = false) :=
  ⟨{}, .power true, wS wDev, by decide +kernel⟩

/-- FunctionEventsComplete: a state and operands that meet what it asks of pcieConfigWrite. -/
theorem witness_pcieConfigWrite_msixControl : ∃ (f : FnId) (en : Bool) (mask : Bool) (s : State),
    (listens s) ∧
    (fnExists s.dev f = true ∧ (getHp s.dev f.port).linkUp = true ∧ (getFn s.dev f).inFlr = false) :=
  ⟨{}, true, false, wS wDev, by decide +kernel⟩

/-- FunctionEventsComplete: a state and operands that meet what it asks of pcieConfigWrite. -/
theorem witness_pcieConfigWrite_companionBusMaster : ∃ (f : FnId) (on : Bool) (s : State),
    (listens s ∧ f.num = 0) ∧
    (fnExists s.dev f = true ∧ (getHp s.dev f.port).linkUp = true ∧ (getFn s.dev f).inFlr = false) ∧
    ((getHp s.dev f.port).bifurcated = true) :=
  ⟨{}, true, wS { wDev with hp := [(0, { linkUp := true, bifurcated := true })] }, by decide +kernel⟩

/-- FunctionEventsComplete: a state and operands that meet what it asks of pcieConfigWrite. -/
theorem witness_pcieConfigWrite_companion : ∃ (f : FnId) (w : PciWr) (s : State),
    (listens s ∧ f.num = 0) ∧
    (fnExists s.dev f = true ∧ (getHp s.dev f.port).linkUp = true ∧ (getFn s.dev f).inFlr = false) ∧
    ((getHp s.dev f.port).bifurcated = true) :=
  ⟨{}, .readReq 3, wS { wDev with hp := [(0, { linkUp := true, bifurcated := true })] }, by decide +kernel⟩

/-- HostReadAnswersComplete: a state and operands that meet what it asks of payloadReadDone. -/
theorem witness_payloadReadDone_packet : ∃ (id : Nat) (data : List Byte) (a : Access) (r : ReadReq) (d1 : Dev) (n : Nat) (q : Psn) (s : State),
    (answers id data a r d1 s) ∧
    (a.cont = .txPayload n q) :=
  ⟨3, [0, 0, 0, 0], { len := 4, cont := .txPayload 7 0 }, { id := 3, len := 4, why := .payload { len := 4, cont := .txPayload 7 0 } }, (wWork {}).dev, 7, 0, wRead { len := 4, cont := .txPayload 7 0 }, by decide +kernel⟩

/-- HostReadAnswersComplete: a state and operands that meet what it asks of payloadReadDone. -/
theorem witness_payloadReadDone_note : ∃ (id : Nat) (data : List Byte) (a : Access) (r : ReadReq) (d1 : Dev) (n : Nat) (c : Word32) (e : Desc) (s : State),
    (answers id data a r d1 s) ∧
    (a.cont = .noteRead n c e) :=
  ⟨3, [0, 0, 0, 0], { len := 4, cont := .noteRead 1 0 {} }, { id := 3, len := 4, why := .payload { len := 4, cont := .noteRead 1 0 {} } }, (wWork {}).dev, 1, 0, {}, wRead { len := 4, cont := .noteRead 1 0 {} }, by decide +kernel⟩

/-- HostReadAnswersComplete: a state and operands that meet what it asks of getTargetReadDone. -/
theorem witness_getTargetReadDone : ∃ (id : Nat) (data : List Byte) (a : Access) (r : ReadReq) (d1 : Dev) (n : Nat) (q : Nat) (p : Packet) (s : State),
    (answers id data a r d1 s) ∧
    (a.cont = .getRead n p q) :=
  ⟨3, [0, 0, 0, 0], { len := 4, cont := .getRead 7 {} 0 }, { id := 3, len := 4, why := .payload { len := 4, cont := .getRead 7 {} 0 } }, (wWork {}).dev, 7, 0, {}, wRead { len := 4, cont := .getRead 7 {} 0 }, by decide +kernel⟩

/-- HostReadAnswersComplete: a state and operands that meet what it asks of atomicTargetReadDone. -/
theorem witness_atomicTargetReadDone : ∃ (id : Nat) (w : Word64) (a : Access) (r : ReadReq) (d1 : Dev) (n : Nat) (p : Packet) (s : State),
    (answers id (leBytes 8 w.toNat) a r d1 s) ∧
    (a.cont = .atomRead n p) :=
  ⟨3, 0, { len := 8, cont := .atomRead 7 {} }, { id := 3, len := 8, why := .payload { len := 8, cont := .atomRead 7 {} } }, (wWork {}).dev, 7, {}, wRead { len := 8, cont := .atomRead 7 {} }, by decide +kernel⟩

/-- HostReadAnswersComplete: a state and operands that meet what it asks of treeContribReadDone. -/
theorem witness_treeContribReadDone : ∃ (id : Nat) (data : List Byte) (a : Access) (r : ReadReq) (d1 : Dev) (n : Nat) (o : Nat) (k : Nat) (s : State),
    (answers id data a r d1 s) ∧
    (a.cont = .collRead n o k) :=
  ⟨3, [0, 0, 0, 0], { len := 4, cont := .collRead 9 1 0 }, { id := 3, len := 4, why := .payload { len := 4, cont := .collRead 9 1 0 } }, (wWork {}).dev, 9, 1, 0, wRead { len := 4, cont := .collRead 9 1 0 }, by decide +kernel⟩

/-- HostReadAnswersComplete: a state and operands that meet what it asks of walkReadResponse. -/
theorem witness_walkReadResponse : ∃ (id : Nat) (k : Nat) (e : Word64) (r : ReadReq) (d1 : Dev) (d2 : Dev) (w : Walk) (s : State),
    (listens s) ∧
    (takeRead id s.dev = some (r, d1) ∧ r.why = .walk k) ∧
    (takeWalk k d1 = some (w, d2) ∧ w.reread = none) :=
  ⟨3, 4, 0, { id := 3, len := 8, why := .walk 4 }, { (wWalk none).dev with xpt := (wWork {}).dev.xpt }, (wWork {}).dev, { id := 4, reread := none }, wWalk none, by decide +kernel⟩

/-- HostReadAnswersComplete: a state and operands that meet what it asks of markRereadResponse. -/
theorem witness_markRereadResponse : ∃ (id : Nat) (k : Nat) (e : Word64) (r : ReadReq) (d1 : Dev) (d2 : Dev) (w : Walk) (l : Leaf) (s : State),
    (listens s) ∧
    (takeRead id s.dev = some (r, d1) ∧ r.why = .walk k) ∧
    (takeWalk k d1 = some (w, d2) ∧ w.reread = some l) :=
  ⟨3, 4, 0, { id := 3, len := 8, why := .walk 4 }, { (wWalk (some {})).dev with xpt := (wWork {}).dev.xpt }, (wWork {}).dev, { id := 4, reread := some {} }, {}, wWalk (some {}), by decide +kernel⟩

/-- HostReadAnswersComplete: a state and operands that meet what it asks of hostReadFailure. -/
theorem witness_hostReadFailure : ∃ (id : Nat) (aer : Fin 32) (r : ReadReq) (d1 : Dev) (s : State),
    (listens s) ∧
    (takeRead id s.dev = some (r, d1)) :=
  ⟨3, 15, { id := 3, len := 4, why := .payload { len := 4 } }, (wWork {}).dev, wRead { len := 4 }, by decide +kernel⟩

/-- HostReadAnswersComplete: a state and operands that meet what it asks of pcieCompletionTimeout. -/
theorem witness_pcieCompletionTimeout : ∃ (id : Nat) (r : ReadReq) (d1 : Dev) (s : State),
    (listens s) ∧
    (takeRead id s.dev = some (r, d1)) :=
  ⟨3, { id := 3, len := 4, why := .payload { len := 4 } }, (wWork {}).dev, wRead { len := 4 }, by decide +kernel⟩

/-- HostReadAnswersComplete: a state and operands that meet what it asks of tlpDiscard. -/
theorem witness_tlpDiscard : ∃ (p : Fin 4) (aer : Fin 32) (s : State),
    (listens s) :=
  ⟨0, 12, wS wDev, by decide +kernel⟩

/-- DataPacketsComplete: a state and operands that meet what it asks of putPacket. -/
theorem witness_putPacket : ∃ (p : Packet) (c : Conn) (s : State),
    (packetAccepted p c s) ∧
    (p.ptype = ptPut ∧ p.void = false) :=
  ⟨wPkt ptPut 0x201 0 0 false, wC, wWork {}, by decide +kernel⟩

/-- DataPacketsComplete: a state and operands that meet what it asks of putPacket. -/
theorem witness_putPacket_void : ∃ (p : Packet) (c : Conn) (s : State),
    (packetAccepted p c s) ∧
    (p.ptype = ptPut ∧ p.void = true) :=
  ⟨wPkt ptPut 0x201 0 0 true, wC, wWork {}, by decide +kernel⟩

/-- DataPacketsComplete: a state and operands that meet what it asks of putFlagPacket. -/
theorem witness_putFlagPacket : ∃ (p : Packet) (c : Conn) (s : State),
    (packetAccepted p c s) ∧
    (p.ptype = ptPutFlag ∧ p.void = false ∧ psnDist c p.psn = 0) :=
  ⟨wPkt ptPutFlag 0x201 0 0 false, wC, wWork {}, by decide +kernel⟩

/-- DataPacketsComplete: a state and operands that meet what it asks of putFlagPacket. -/
theorem witness_putFlagPacket_void : ∃ (p : Packet) (c : Conn) (s : State),
    (packetAccepted p c s) ∧
    (p.ptype = ptPutFlag ∧ p.void = true ∧ psnDist c p.psn = 0) :=
  ⟨wPkt ptPutFlag 0x201 0 0 true, wC, wWork {}, by decide +kernel⟩

/-- DataPacketsComplete: a state and operands that meet what it asks of putFlagPacket. -/
theorem witness_putFlagPacket_held : ∃ (p : Packet) (c : Conn) (s : State),
    (packetAccepted p c s) ∧
    (p.ptype = ptPutFlag ∧ psnDist c p.psn ≠ 0) :=
  ⟨wPkt ptPutFlag 0x201 0 3 false, wC, wWork {}, by decide +kernel⟩

/-- DataPacketsComplete: a state and operands that meet what it asks of getReq. -/
theorem witness_getReq : ∃ (p : Packet) (c : Conn) (s : State),
    (packetAccepted p c s) ∧
    (p.ptype = ptGetReq) :=
  ⟨wPkt ptGetReq 0x201 64 0 false, wC, wWork {}, by decide +kernel⟩

/-- DataPacketsComplete: a state and operands that meet what it asks of atomicReq. -/
theorem witness_atomicReq : ∃ (p : Packet) (c : Conn) (s : State),
    (packetAccepted p c s) ∧
    (p.ptype = ptAtomicReq) :=
  ⟨wPkt ptAtomicReq 0x201 0 0 false, wC, wWork {}, by decide +kernel⟩

/-- DataPacketsComplete: a state and operands that meet what it asks of sendPacket. -/
theorem witness_sendPacket : ∃ (p : Packet) (c : Conn) (s : State),
    (packetAccepted p c s) ∧
    (p.ptype = ptSend ∧ skind p ≠ 2 ∧ p.void = false) :=
  ⟨wPkt ptSend 3 4 0 false, wC, wWork {}, by decide +kernel⟩

/-- DataPacketsComplete: a state and operands that meet what it asks of sendPacket. -/
theorem witness_sendPacket_void : ∃ (p : Packet) (c : Conn) (s : State),
    (packetAccepted p c s) ∧
    (p.ptype = ptSend ∧ skind p ≠ 2 ∧ p.void = true) :=
  ⟨wPkt ptSend 3 4 0 true, wC, wWork {}, by decide +kernel⟩

/-- DataPacketsComplete: a state and operands that meet what it asks of rendezvousFinish. -/
theorem witness_rendezvousFinish : ∃ (p : Packet) (c : Conn) (s : State),
    (packetAccepted p c s) ∧
    (p.ptype = ptSend ∧ skind p = 2) :=
  ⟨wPkt ptSend 0x20000 4 0 false, wC, wWork {}, by decide +kernel⟩

/-- DataPacketsComplete: a state and operands that meet what it asks of getResp. -/
theorem witness_getResp_placed : ∃ (p : Packet) (c : Conn) (o : Op) (r : Region) (s : State),
    (packetFits p c s ∧ p.ptype = ptGetResp) ∧
    (c.ops.find? (fun o => o.kind = .get && o.psn0 == p.psn && o.npk != 0 && !o.written) = some o) ∧
    (p.void = false ∧ 0 < p.payload.length ∧ p.offset.toNat + p.payload.length ≤ o.len) ∧
    (checkRegion (packetTaken p s.dev) c.fn o.desc.localKey (o.desc.localVa + p.offset.toNat) p.payload.length .localWrite = .ok r) :=
  ⟨wPkt ptGetResp 0 0 0 false, { wC with ops := [{ kind := .get, len := 64, sq := 1, desc := { w3 := 0x4000000201, w2 := 0x100 } }], next := 1 }, { kind := .get, len := 64, sq := 1, desc := { w3 := 0x4000000201, w2 := 0x100 } }, wR, wS { (wWork {}).dev with xpt := { (wWork {}).dev.xpt with conns := [(7, { wC with ops := [{ kind := .get, len := 64, sq := 1, desc := { w3 := 0x4000000201, w2 := 0x100 } }], next := 1 })] } }, by and_intros <;> first | decide +kernel | rfl⟩

/-- DataPacketsComplete: a state and operands that meet what it asks of getResp. -/
theorem witness_getResp_void : ∃ (p : Packet) (c : Conn) (o : Op) (s : State),
    (packetFits p c s ∧ p.ptype = ptGetResp) ∧
    (c.ops.find? (fun o => o.kind = .get && o.psn0 == p.psn && o.npk != 0 && !o.written) = some o) ∧
    (p.void = true) :=
  ⟨wPkt ptGetResp 0 0 0 true, { wC with ops := [{ kind := .get, len := 64, sq := 1, desc := { w3 := 0x4000000201, w2 := 0x100 } }], next := 1 }, { kind := .get, len := 64, sq := 1, desc := { w3 := 0x4000000201, w2 := 0x100 } }, wS { (wWork {}).dev with xpt := { (wWork {}).dev.xpt with conns := [(7, { wC with ops := [{ kind := .get, len := 64, sq := 1, desc := { w3 := 0x4000000201, w2 := 0x100 } }], next := 1 })] } }, by and_intros <;> first | decide +kernel | rfl⟩

/-- DataPacketsComplete: a state and operands that meet what it asks of getResp. -/
theorem witness_getResp_stray : ∃ (p : Packet) (c : Conn) (s : State),
    (packetFits p c s ∧ p.ptype = ptGetResp) ∧
    (c.ops.find? (fun o => o.kind = .get && o.psn0 == p.psn && o.npk != 0 && !o.written) = none) :=
  ⟨wPkt ptGetResp 0 0 0 false, { wC with ops := [], next := 1 }, wS { (wWork {}).dev with xpt := { (wWork {}).dev.xpt with conns := [(7, { wC with ops := [], next := 1 })] } }, by and_intros <;> first | decide +kernel | rfl⟩

/-- DataPacketsComplete: a state and operands that meet what it asks of notePacket. -/
theorem witness_notePacket : ∃ (p : Packet) (x : Fn) (m : Mctx) (b : Option Bucket) (s : State),
    (listens s ∧ s.dev.mode ≠ .quarantine ∧ p.ptype = ptNote ∧ skind p = 0 ∧ pktCrc p = p.crc) ∧
    (fnExists s.dev (epFn p.rh.dest) = true ∧ getFn s.dev (epFn p.rh.dest) = x ∧ x.inFlr = false ∧ p.rh.domain = x.domain ∧ portDrained s.dev (epFn p.rh.dest).port = false) ∧
    (police x.polIn (pktLen p + overhead s.dev) = (true, b) ∧ (pktRecorded s.dev p && inkHolds s.dev) = false) ∧
    (getMctx (tally (epFn p.rh.dest) 1 (pktLen p) (setFn (epFn p.rh.dest) { x with polIn := b } (pktArrived p s.dev))) (pktMctx p) = some m ∧ m.fn = (epFn p.rh.dest) ∧ m.st = .active ∧ slotGrafting (tally (epFn p.rh.dest) 1 (pktLen p) (setFn (epFn p.rh.dest) { x with polIn := b } (pktArrived p s.dev))) (mctxSlot (pktMctx p)) = false) :=
  ⟨wPkt ptNote 3 4 0 false, { domain := 1 }, {}, none, wS { (wWork {}).dev with fns := [(0, { domain := 1 })] }, by decide +kernel⟩

/-- TransportMessagesComplete: a state and operands that meet what it asks of ack. -/
theorem witness_ack : ∃ (m : Nib) (c : Conn) (s : State),
    (nibReaches ntAck m c s) :=
  ⟨wNib ntAck, wC, wWork {}, by decide +kernel⟩

/-- TransportMessagesComplete: a state and operands that meet what it asks of nak. -/
theorem witness_nak : ∃ (m : Nib) (c : Conn) (s : State),
    (nibReaches ntNak m c s) :=
  ⟨wNib ntNak, wC, wWork {}, by decide +kernel⟩

/-- TransportMessagesComplete: a state and operands that meet what it asks of rnrNak. -/
theorem witness_rnrNak : ∃ (m : Nib) (c : Conn) (s : State),
    (nibReaches ntRnrNak m c s) :=
  ⟨wNib ntRnrNak, wC, wWork {}, by decide +kernel⟩

/-- TransportMessagesComplete: a state and operands that meet what it asks of accessNak. -/
theorem witness_accessNak : ∃ (m : Nib) (c : Conn) (o : Op) (s : State),
    (nibReaches ntAccessNak m c s) ∧
    (opOf c m.psn = some o) :=
  ⟨wNib ntAccessNak, { wC with ops := [{}], next := 1 }, {}, wOp {}, by decide +kernel⟩

/-- TransportMessagesComplete: a state and operands that meet what it asks of atomicResp. -/
theorem witness_atomicResp : ∃ (m : Nib) (c : Conn) (o : Op) (r : Region) (s : State),
    (nibReaches ntAtomicResp m c s) ∧
    (c.ops.find? (fun o => o.kind = .atomic && o.psn0 == m.psn && !o.resp && !o.written && o.npk != 0) = some o) ∧
    (checkRegion (nibTaken m s.dev) c.fn o.desc.localKey o.desc.localVa 8 .localWrite = .ok r) :=
  ⟨wNib ntAtomicResp, { wC with ops := [{ kind := .atomic, sq := 1, desc := { w3 := 0x4000000201, w2 := 0x100 } }], next := 1 }, { kind := .atomic, sq := 1, desc := { w3 := 0x4000000201, w2 := 0x100 } }, wR, wOp { kind := .atomic, sq := 1, desc := { w3 := 0x4000000201, w2 := 0x100 } }, by and_intros <;> first | decide +kernel | rfl⟩

/-- TransportMessagesComplete: a state and operands that meet what it asks of connReset. -/
theorem witness_connReset : ∃ (m : Nib) (c : Conn) (s : State),
    (nibReaches ntConnReset m c s) :=
  ⟨wNib ntConnReset, wC, wWork {}, by decide +kernel⟩

/-- TransportMessagesComplete: a state and operands that meet what it asks of funcReset. -/
theorem witness_funcReset : ∃ (m : Nib) (c : Conn) (s : State),
    (nibReaches ntFuncReset m c s) :=
  ⟨wNib ntFuncReset, wC, wWork {}, by decide +kernel⟩

/-- TransportMessagesComplete: a state and operands that meet what it asks of destDown. -/
theorem witness_destDown : ∃ (m : Nib) (c : Conn) (s : State),
    (nibReaches ntDestDown m c s) :=
  ⟨wNib ntDestDown, wC, wWork {}, by decide +kernel⟩

/-- TreePacketsComplete: a state and operands that meet what it asks of treeUp. -/
theorem witness_treeUp : ∃ (port : Fin 64) (p : TreePkt) (t : TreeWords) (s : State),
    (treeReaches ptTreeUp port p t s) :=
  ⟨5, wTp ptTreeUp, wRoot, wNode wRoot, by decide +kernel⟩

/-- TreePacketsComplete: a state and operands that meet what it asks of treeDown. -/
theorem witness_treeDown : ∃ (port : Fin 64) (p : TreePkt) (t : TreeWords) (s : State),
    (treeReaches ptTreeDown port p t s) :=
  ⟨5, wTp ptTreeDown, wInner, wNode wInner, by decide +kernel⟩

/-- TreePacketsComplete: a state and operands that meet what it asks of upCredit. -/
theorem witness_upCredit : ∃ (port : Fin 64) (p : TreePkt) (t : TreeWords) (s : State),
    (treeReaches ptUpCredit port p t s) :=
  ⟨5, wTp ptUpCredit, wInner, wNode wInner, by decide +kernel⟩

/-- TreePacketsComplete: a state and operands that meet what it asks of downCredit. -/
theorem witness_downCredit : ∃ (port : Fin 64) (p : TreePkt) (t : TreeWords) (s : State),
    (treeReaches ptDownCredit port p t s) :=
  ⟨5, wTp ptDownCredit, wRoot, wNode wRoot, by decide +kernel⟩

/-- TreePacketsComplete: a state and operands that meet what it asks of treeAck. -/
theorem witness_treeAck : ∃ (port : Fin 64) (p : TreePkt) (t : TreeWords) (s : State),
    (treeReaches ptTreeAck port p t s) :=
  ⟨5, wTp ptTreeAck, wRoot, wNode wRoot, by decide +kernel⟩

/-- TreePacketsComplete: a state and operands that meet what it asks of treeDone. -/
theorem witness_treeDone : ∃ (port : Fin 64) (p : TreePkt) (t : TreeWords) (s : State),
    (treeReaches ptTreeDone port p t s) :=
  ⟨5, wTp ptTreeDone, wInner, wNode wInner, by decide +kernel⟩

/-- TreePacketsComplete: a state and operands that meet what it asks of treeAbort. -/
theorem witness_treeAbort : ∃ (port : Fin 64) (p : TreePkt) (t : TreeWords) (s : State),
    (treeReaches ptTreeAbort port p t s) :=
  ⟨5, wTp ptTreeAbort, wInner, wNode wInner, by decide +kernel⟩

/-- TreePacketsComplete: a state and operands that meet what it asks of treeTimeout. -/
theorem witness_treeTimeout : ∃ (tree : BitVec 14) (s : State),
    (listens s) ∧
    ((getNode s.dev tree.toNat).op.isSome = true) :=
  ⟨9, wNode wRoot, by decide +kernel⟩

/-- TreePacketsComplete: a state and operands that meet what it asks of stagedCopyDone. -/
theorem witness_stagedCopyDone : ∃ (id : Nat) (r : MsgRec) (s : State),
    (listens s) ∧
    (getMsg s.dev id = some r ∧ r.issued ≠ 0) :=
  ⟨1, { wMsg with issued := 1, copying := 1 }, wS { wDev with mtc := { ctxs := [(3, {})], recs := [{ wMsg with issued := 1, copying := 1 }] } }, by decide +kernel⟩

/-- FaultCommandsComplete: a state and operands that meet what it asks of faultReport. -/
theorem witness_faultReport : ∃ (y : FltIn) (k : FClass) (s : State),
    (listens s) ∧
    (causeClass y.src.val y.cause.toNat y.detail.toNat = some k) ∧
    (knownSource s.dev y.src.val = true ∧ (getRec s.dev y.src.val).masked = false) :=
  ⟨{ src := 0xC0, cause := 2 }, .contained, wS wDev, by decide +kernel⟩

/-- FaultCommandsComplete: a state and operands that meet what it asks of handshakeStall. -/
theorem witness_handshakeStall : ∃ (src : Fin 512) (k : FClass) (s : State),
    (listens s) ∧
    (causeClass src.val caStall 0 = some k) ∧
    (knownSource s.dev src.val = true ∧ (getRec s.dev src.val).masked = false) :=
  ⟨0x108, .fatal, wS wDev, by decide +kernel⟩

/-- FaultCommandsComplete: a state and operands that meet what it asks of graftDone. -/
theorem witness_graftDone : ∃ (slot : Fin 32) (a : Nat) (k : Nat) (sp : Nat) (s : State),
    (listens s) ∧
    (s.dev.eng.grafting.find? (fun g => g.1 == slot.val) = some (a, k, sp)) :=
  ⟨3, 3, 3, 32, wS { wDev with eng := { wDev.eng with grafting := [(3, 3, 32)] } }, by decide +kernel⟩

/-- FaultCommandsComplete: a state and operands that meet what it asks of notifyHoldoffEnd. -/
theorem witness_notifyHoldoffEnd : ∃ (s : State),
    (listens s) :=
  ⟨wS wDev, by decide +kernel⟩

/-- FaultCommandsComplete: a state and operands that meet what it asks of reportPathFailure. -/
theorem witness_reportPathFailure : ∃ (src : Fin 512) (s : State),
    (listens s) ∧
    (knownSource s.dev src.val = true ∧ (getRec s.dev src.val).masked = false) :=
  ⟨0xC0, wS wDev, by decide +kernel⟩

/-- FaultCommandsComplete: a state and operands that meet what it asks of faultRecordClear. -/
theorem witness_faultRecordClear : ∃ (m : Master) (src : Fin 512) (s : State),
    (atOnce m s) ∧
    (listens s) ∧
    (mayWrite s.dev m = true ∧ knownSource s.dev src.val = true) ∧
    (¬(s.dev.mode = .quarantine ∧ (getRec s.dev src.val).valid = true ∧ (getRec s.dev src.val).cls = .fatal)) :=
  ⟨.fabricManager, 0xC0, wS { wDev with flt := { recs := [(0xC0, { valid := true })] } }, by decide +kernel⟩

/-- FaultCommandsComplete: a state and operands that meet what it asks of corrClr. -/
theorem witness_corrClr : ∃ (m : Master) (src : Fin 512) (s : State),
    (atOnce m s) ∧
    (listens s) ∧
    (mayWrite s.dev m = true ∧ knownSource s.dev src.val = true) :=
  ⟨.fabricManager, 0xC0, wS { wDev with flt := { recs := [(0xC0, { corr := 5 })] } }, by decide +kernel⟩

/-- FaultCommandsComplete: a state and operands that meet what it asks of fltForce. -/
theorem witness_fltForce : ∃ (m : Master) (src : Fin 512) (fc : Fin 4) (s : State),
    (atOnce m s) ∧
    (listens s) ∧
    (mayWrite s.dev m = true ∧ knownSource s.dev src.val = true ∧ fencedBlk s.dev 2 = false) ∧
    (bit (fltCtl s.dev) 0 = true) ∧
    (fc.val ≠ 3 ∨ bit (fltCtl s.dev) 1 = true) :=
  ⟨.fabricManager, 0xC0, 3, wS { wDev with regs := [(0x4000, 3)] }, by decide +kernel⟩

/-- FaultCommandsComplete: a state and operands that meet what it asks of fltBreak. -/
theorem witness_fltBreak : ∃ (m : Master) (src : Fin 512) (s : State),
    (atOnce m s) ∧
    (listens s) ∧
    (mayWrite s.dev m = true ∧ fencedBlk s.dev 2 = false ∧ bit (fltCtl s.dev) 0 = true) ∧
    (knownSource s.dev src.val = true ∧ (getRec s.dev src.val).masked = false) :=
  ⟨.fabricManager, 0xC0, wS { wDev with regs := [(0x4000, 3)] }, by decide +kernel⟩

/-- FaultCommandsComplete: a state and operands that meet what it asks of eccUncorrectable. -/
theorem witness_eccUncorrectable : ∃ (src : Fin 512) (detail : Byte) (object : BitVec 24) (c : FClass) (s : State),
    (listens s) ∧
    (eccClass src.val detail.toNat = some c) :=
  ⟨0x100, 1, 7, .contained, wS wDev, by decide +kernel⟩

/-- FaultCommandsComplete: a state and operands that meet what it asks of eccCorrected. -/
theorem witness_eccCorrected : ∃ (src : Fin 512) (s : State),
    (listens s) ∧
    (hasEccCorr src.val = true) :=
  ⟨0x100, wS wDev, by decide +kernel⟩

/-- FaultCommandsComplete: a state and operands that meet what it asks of hbmStackFailure. -/
theorem witness_hbmStackFailure : ∃ (n : Fin 2) (s : State),
    (listens s) :=
  ⟨1, wS wDev, by decide +kernel⟩

/-- TransportTimersAndContextsComplete: a state and operands that meet what it asks of retransmitTimeout. -/
theorem witness_retransmitTimeout : ∃ (n : Psn) (c : Conn) (s : State),
    (listens s) ∧
    (getConn s.dev n.toNat = some c ∧ timerRuns c = true ∧ timerActs s.dev n.toNat = true) :=
  ⟨7, { wC with ops := [{}], next := 1 }, wOp {}, by decide +kernel⟩

/-- TransportTimersAndContextsComplete: a state and operands that meet what it asks of rnrWaitEnd. -/
theorem witness_rnrWaitEnd : ∃ (n : Psn) (c : Conn) (s : State),
    (listens s) ∧
    (getConn s.dev n.toNat = some c ∧ c.rnrWait.isSome = true ∧ timerActs s.dev n.toNat = true) :=
  ⟨7, { wC with rnrWait := some 5 }, wS { wDev with xpt := { conns := [(7, { wC with rnrWait := some 5 })] } }, by decide +kernel⟩

/-- TransportTimersAndContextsComplete: a state and operands that meet what it asks of ackTimer. -/
theorem witness_ackTimer : ∃ (n : Psn) (c : Conn) (s : State),
    (listens s) ∧
    (getConn s.dev n.toNat = some c ∧ c.ackDue = true ∧ c.st ≠ .error ∧ timerActs s.dev n.toNat = true) :=
  ⟨7, { wC with ackDue := true }, wS { wDev with xpt := { conns := [(7, { wC with ackDue := true })] } }, by decide +kernel⟩

/-- TransportTimersAndContextsComplete: a state and operands that meet what it asks of contextFetchDone. -/
theorem witness_contextFetchDone : ∃ (n : Psn) (s : State),
    (listens s) ∧
    (s.dev.xpt.fetching.contains n.toNat = true ∧ ctxReady s.dev n.toNat = true) :=
  ⟨7, wS { (wWork {}).dev with xpt := { (wWork {}).dev.xpt with fetching := [7], onDie := [] } }, by decide +kernel⟩

/-- TransportTimersAndContextsComplete: a state and operands that meet what it asks of contextWriteoutDone. -/
theorem witness_contextWriteoutDone : ∃ (n : Psn) (k : Nat) (v : Bool) (s : State),
    (listens s) ∧
    (s.dev.xpt.writing.find? (fun w => w.1 == n.toNat) = some (k, v)) :=
  ⟨7, 7, true, wS { (wWork {}).dev with xpt := { (wWork {}).dev.xpt with writing := [(7, true)] } }, by decide +kernel⟩

/-- TransportTimersAndContextsComplete: a state and operands that meet what it asks of missWaitTimeout. -/
theorem witness_missWaitTimeout : ∃ (n : Psn) (k : Nat) (v : Bool) (s : State),
    (listens s) ∧
    (s.dev.xpt.writing.find? (fun w => w.1 == n.toNat) = some (k, v)) :=
  ⟨7, 7, false, wS { (wWork {}).dev with xpt := { (wWork {}).dev.xpt with writing := [(7, false)] } }, by decide +kernel⟩

/-- RoutingCommandsComplete: a state and operands that meet what it asks of routePacket. -/
theorem witness_routePacket : ∃ (ing : Fin 65) (it : Item) (resid : Nat) (s : State),
    (listens s) :=
  ⟨64, .nib {}, 0, wS wDev, by decide +kernel⟩

/-- RoutingCommandsComplete: a state and operands that meet what it asks of routePacket. -/
theorem witness_routePacket_epoch : ∃ (ing : Fin 65) (it : Item) (resid : Nat) (r : RouteIn) (s : State),
    (listens s) ∧
    ((s.dev.rt.routeQ.find? fun q => q.item == it && q.ingress == ing.val) = none ∧ routeIn ing.val it = some r) ∧
    (bankState s.dev r.epoch ≠ .armed ∨ coordValid s.dev = false) :=
  ⟨64, .nib { dest := 0x400 }, 0, { dest := 1, nib := true }, wS wDev, by decide +kernel⟩

/-- RoutingCommandsComplete: a state and operands that meet what it asks of routePacket. -/
theorem witness_routePacket_aged : ∃ (ing : Fin 65) (it : Item) (resid : Nat) (r : RouteIn) (s : State),
    (listens s) ∧
    ((s.dev.rt.routeQ.find? fun q => q.item == it && q.ingress == ing.val) = none ∧ routeIn ing.val it = some r) ∧
    (bankState s.dev r.epoch = .armed ∧ coordValid s.dev = true) ∧
    (250 ≤ ageNow (itemAge it) ({ item := it, ingress := ing.val, since := s.dev.clk.now - resid } : QItem).since s.dev.clk.now) :=
  ⟨64, .nib { dest := 0x400, age := 250 }, 0, { dest := 1, nib := true }, wS { wDev with regs := [(0x20040, 0x10000)], rt := { wDev.rt with bankA := .armed } }, by decide +kernel⟩

/-- RoutingCommandsComplete: a state and operands that meet what it asks of routePacket. -/
theorem witness_routePacket_local : ∃ (ing : Fin 65) (it : Item) (resid : Nat) (r : RouteIn) (s : State),
    (listens s) ∧
    ((s.dev.rt.routeQ.find? fun q => q.item == it && q.ingress == ing.val) = none ∧ routeIn ing.val it = some r) ∧
    (bankState s.dev r.epoch = .armed ∧ coordValid s.dev = true) ∧
    (ageNow (itemAge it) ({ item := it, ingress := ing.val, since := s.dev.clk.now - resid } : QItem).since s.dev.clk.now < 250) ∧
    (r.dest = coord s.dev) :=
  ⟨64, .nib {}, 0, { nib := true }, wS { wDev with regs := [(0x20040, 0x10000)], rt := { wDev.rt with bankA := .armed } }, by decide +kernel⟩

/-- RoutingCommandsComplete: a state and operands that meet what it asks of routePacket. -/
theorem witness_routePacket_hop : ∃ (ing : Fin 65) (it : Item) (resid : Nat) (r : RouteIn) (s : State),
    (listens s) ∧
    ((s.dev.rt.routeQ.find? fun q => q.item == it && q.ingress == ing.val) = none ∧ routeIn ing.val it = some r) ∧
    (bankState s.dev r.epoch = .armed ∧ coordValid s.dev = true) ∧
    (ageNow (itemAge it) ({ item := it, ingress := ing.val, since := s.dev.clk.now - resid } : QItem).since s.dev.clk.now < 250) ∧
    (r.dest ≠ coord s.dev ∧ r.t = 8) :=
  ⟨3, .nib { dest := 0x400, hop := 7 }, 0, { dest := 1, nib := true, t := 8 }, wS { wDev with regs := [(0x20040, 0x10000)], rt := { wDev.rt with bankA := .armed } }, by decide +kernel⟩

/-- RoutingCommandsComplete: a state and operands that meet what it asks of routePacket. -/
theorem witness_routePacket_noRoute : ∃ (ing : Fin 65) (it : Item) (resid : Nat) (r : RouteIn) (s : State),
    (listens s) ∧
    ((s.dev.rt.routeQ.find? fun q => q.item == it && q.ingress == ing.val) = none ∧ routeIn ing.val it = some r) ∧
    (bankState s.dev r.epoch = .armed ∧ coordValid s.dev = true) ∧
    (ageNow (itemAge it) ({ item := it, ingress := ing.val, since := s.dev.clk.now - resid } : QItem).since s.dev.clk.now < 250) ∧
    (r.dest ≠ coord s.dev ∧ r.t ≠ 8 ∧ routeChoice s.dev ing.val r = .noRoute) :=
  ⟨64, .nib { dest := 0x400 }, 0, { dest := 1, nib := true }, wS { wDev with regs := [(0x20040, 0x10000)], rt := { wDev.rt with bankA := .armed } }, by decide +kernel⟩

/-- RoutingCommandsComplete: a state and operands that meet what it asks of routePacket. -/
theorem witness_routePacket_port : ∃ (ing : Fin 65) (it : Item) (resid : Nat) (r : RouteIn) (p : Nat) (dim : Option Nat) (s : State),
    (listens s) ∧
    ((s.dev.rt.routeQ.find? fun q => q.item == it && q.ingress == ing.val) = none ∧ routeIn ing.val it = some r) ∧
    (bankState s.dev r.epoch = .armed ∧ coordValid s.dev = true) ∧
    (ageNow (itemAge it) ({ item := it, ingress := ing.val, since := s.dev.clk.now - resid } : QItem).since s.dev.clk.now < 250) ∧
    (r.dest ≠ coord s.dev ∧ r.t ≠ 8 ∧ routeChoice s.dev ing.val r = .port p dim) :=
  ⟨64, .nib { dest := 0x400 }, 0, { dest := 1, nib := true }, 5, none, wS { wDev with regs := [(0x20040, 0x10000)], ports := [(5, wUp)], rt := { wDev.rt with bankA := .armed, pmA := [(1, 0x45)] } }, by decide +kernel⟩

/-- RoutingCommandsComplete: a state and operands that meet what it asks of routePacket. -/
theorem witness_routePacket_queued : ∃ (ing : Fin 65) (it : Item) (resid : Nat) (q : QItem) (s : State),
    (listens s) ∧
    ((s.dev.rt.routeQ.find? fun q => q.item == it && q.ingress == ing.val) = some q) :=
  ⟨64, .nib {}, 0, { item := .nib {}, ingress := 64 }, wS { wDev with rt := { wDev.rt with routeQ := [{ item := .nib {}, ingress := 64 }] } }, by decide +kernel⟩

/-- RoutingCommandsComplete: a state and operands that meet what it asks of packetAgeExpiry. -/
theorem witness_packetAgeExpiry : ∃ (it : Item) (d : Dev) (s : State),
    (listens s) ∧
    (dropWaiting it s.dev = some d) :=
  ⟨.nib {}, wDev, wS { wDev with rt := { wDev.rt with routeQ := [{}] } }, by and_intros <;> rfl⟩

/-- RoutingCommandsComplete: a state and operands that meet what it asks of nibStallDiscard. -/
theorem witness_nibStallDiscard : ∃ (p : Fin 64) (q : QItem) (s : State),
    (listens s) ∧
    (((tget s.dev.rt.egress p.val).getD []).find? isNib = some q) :=
  ⟨3, {}, wS { wDev with rt := { wDev.rt with egress := [(3, [{}])] } }, by decide +kernel⟩

/-- RoutingCommandsComplete: a state and operands that meet what it asks of rtHpDrainWrite. -/
theorem witness_rtHpDrainWrite : ∃ (m : Master) (v : Wr) (s : State),
    (atOnce m s) ∧
    (listens s) ∧
    (mayWrite s.dev m = true) :=
  ⟨.fabricManager, .full 1, wS wDev, by decide +kernel⟩

/-- RoutingCommandsComplete: a state and operands that meet what it asks of drainLimitExpiry. -/
theorem witness_drainLimitExpiry : ∃ (p : Fin 4) (s : State),
    (listens s) ∧
    (portDrained s.dev p = true) :=
  ⟨1, wS { wDev with mode := .drain }, by decide +kernel⟩

/-- RoutingCommandsComplete: a state and operands that meet what it asks of drainLimitExpiry. -/
theorem witness_drainLimitExpiry_not : ∃ (p : Fin 4) (s : State),
    (listens s) ∧
    (portDrained s.dev p = false) :=
  ⟨1, wS wDev, by decide +kernel⟩

/-- EpochAndTableCommandsComplete: a state and operands that meet what it asks of armA. -/
theorem witness_armA_armed : ∃ (m : Master) (v : Wr) (s : State),
    (atOnce m s) ∧
    (listens s) ∧
    (isFab m = true ∧ bit (wrBits v).2 0 = true ∧ fld (wrBits v).1 8 4 = 1 ∧ fencedBlk s.dev 5 = false) ∧
    (bit (wrBits v).1 0 = s.dev.rt.stamp) ∧
    (s.dev.rt.bankA = .idle ∧ coordValid (putReg 0x20000 0 (mergeWr (regInForce s.dev 0x20000 0) (ins 32 0xFFFF) v) s.dev) = true ∧ armCheck (putReg 0x20000 0 (mergeWr (regInForce s.dev 0x20000 0) (ins 32 0xFFFF) v) s.dev) false = true) :=
  ⟨.fabricManager, .full 0x100, wS { wDev with regs := [(0x20040, 0x10000)] }, by decide +kernel⟩

/-- EpochAndTableCommandsComplete: a state and operands that meet what it asks of armA. -/
theorem witness_armA_state : ∃ (m : Master) (v : Wr) (s : State),
    (atOnce m s) ∧
    (listens s) ∧
    (isFab m = true ∧ bit (wrBits v).2 0 = true ∧ fld (wrBits v).1 8 4 = 1 ∧ fencedBlk s.dev 5 = false) ∧
    (bit (wrBits v).1 0 = s.dev.rt.stamp) ∧
    (s.dev.rt.bankA ≠ .idle ∨ coordValid (putReg 0x20000 0 (mergeWr (regInForce s.dev 0x20000 0) (ins 32 0xFFFF) v) s.dev) = false) :=
  ⟨.fabricManager, .full 0x100, wS wDev, by decide +kernel⟩

/-- EpochAndTableCommandsComplete: a state and operands that meet what it asks of armA. -/
theorem witness_armA_check : ∃ (m : Master) (v : Wr) (s : State),
    (atOnce m s) ∧
    (listens s) ∧
    (isFab m = true ∧ bit (wrBits v).2 0 = true ∧ fld (wrBits v).1 8 4 = 1 ∧ fencedBlk s.dev 5 = false) ∧
    (bit (wrBits v).1 0 = s.dev.rt.stamp) ∧
    (s.dev.rt.bankA = .idle ∧ coordValid (putReg 0x20000 0 (mergeWr (regInForce s.dev 0x20000 0) (ins 32 0xFFFF) v) s.dev) = true ∧ armCheck (putReg 0x20000 0 (mergeWr (regInForce s.dev 0x20000 0) (ins 32 0xFFFF) v) s.dev) false = false) :=
  ⟨.fabricManager, .full 0x100, wS { wDev with regs := [(0x20040, 0x10000)], rt := { wDev.rt with pmA := [(0, 0x45)] } }, by decide +kernel⟩

/-- EpochAndTableCommandsComplete: a state and operands that meet what it asks of armB. -/
theorem witness_armB_armed : ∃ (m : Master) (v : Wr) (s : State),
    (atOnce m s) ∧
    (listens s) ∧
    (isFab m = true ∧ bit (wrBits v).2 0 = true ∧ fld (wrBits v).1 8 4 = 2 ∧ fencedBlk s.dev 5 = false) ∧
    (bit (wrBits v).1 0 = s.dev.rt.stamp) ∧
    (s.dev.rt.bankB = .idle ∧ coordValid (putReg 0x20000 0 (mergeWr (regInForce s.dev 0x20000 0) (ins 32 0xFFFF) v) s.dev) = true ∧ armCheck (putReg 0x20000 0 (mergeWr (regInForce s.dev 0x20000 0) (ins 32 0xFFFF) v) s.dev) true = true) :=
  ⟨.fabricManager, .full 0x200, wS { wDev with regs := [(0x20040, 0x10000)] }, by decide +kernel⟩

/-- EpochAndTableCommandsComplete: a state and operands that meet what it asks of armB. -/
theorem witness_armB_state : ∃ (m : Master) (v : Wr) (s : State),
    (atOnce m s) ∧
    (listens s) ∧
    (isFab m = true ∧ bit (wrBits v).2 0 = true ∧ fld (wrBits v).1 8 4 = 2 ∧ fencedBlk s.dev 5 = false) ∧
    (bit (wrBits v).1 0 = s.dev.rt.stamp) ∧
    (s.dev.rt.bankB ≠ .idle ∨ coordValid (putReg 0x20000 0 (mergeWr (regInForce s.dev 0x20000 0) (ins 32 0xFFFF) v) s.dev) = false) :=
  ⟨.fabricManager, .full 0x200, wS wDev, by decide +kernel⟩

/-- EpochAndTableCommandsComplete: a state and operands that meet what it asks of armB. -/
theorem witness_armB_check : ∃ (m : Master) (v : Wr) (s : State),
    (atOnce m s) ∧
    (listens s) ∧
    (isFab m = true ∧ bit (wrBits v).2 0 = true ∧ fld (wrBits v).1 8 4 = 2 ∧ fencedBlk s.dev 5 = false) ∧
    (bit (wrBits v).1 0 = s.dev.rt.stamp) ∧
    (s.dev.rt.bankB = .idle ∧ coordValid (putReg 0x20000 0 (mergeWr (regInForce s.dev 0x20000 0) (ins 32 0xFFFF) v) s.dev) = true ∧ armCheck (putReg 0x20000 0 (mergeWr (regInForce s.dev 0x20000 0) (ins 32 0xFFFF) v) s.dev) true = false) :=
  ⟨.fabricManager, .full 0x200, wS { wDev with regs := [(0x20040, 0x10000)], rt := { wDev.rt with pmB := [(0, 0x45)] } }, by decide +kernel⟩

/-- EpochAndTableCommandsComplete: a state and operands that meet what it asks of retireA. -/
theorem witness_retireA_retires : ∃ (m : Master) (v : Wr) (s : State),
    (atOnce m s) ∧
    (listens s) ∧
    (isFab m = true ∧ bit (wrBits v).2 0 = true ∧ fld (wrBits v).1 8 4 = 3 ∧ fencedBlk s.dev 5 = false) ∧
    (bit (wrBits v).1 0 = s.dev.rt.stamp) ∧
    (s.dev.rt.bankA = .armed ∧ s.dev.rt.stamp = true) ∧
    ((s.dev.rt.last0.any fun t => decide (s.dev.clk.now < t + epochDrain (putReg 0x20000 0 (mergeWr (regInForce s.dev 0x20000 0) (ins 32 0xFFFF) v) s.dev))) = false) :=
  ⟨.fabricManager, .full 0x301, wS { wDev with rt := { wDev.rt with bankA := .armed, stamp := true } }, by decide +kernel⟩

/-- EpochAndTableCommandsComplete: a state and operands that meet what it asks of retireA. -/
theorem witness_retireA_state : ∃ (m : Master) (v : Wr) (s : State),
    (atOnce m s) ∧
    (listens s) ∧
    (isFab m = true ∧ bit (wrBits v).2 0 = true ∧ fld (wrBits v).1 8 4 = 3 ∧ fencedBlk s.dev 5 = false) ∧
    (bit (wrBits v).1 0 = s.dev.rt.stamp) ∧
    (s.dev.rt.bankA ≠ .armed ∨ s.dev.rt.stamp = false) :=
  ⟨.fabricManager, .full 0x300, wS wDev, by decide +kernel⟩

/-- EpochAndTableCommandsComplete: a state and operands that meet what it asks of retireA. -/
theorem witness_retireA_drain : ∃ (m : Master) (v : Wr) (t : Nat) (s : State),
    (atOnce m s) ∧
    (listens s) ∧
    (isFab m = true ∧ bit (wrBits v).2 0 = true ∧ fld (wrBits v).1 8 4 = 3 ∧ fencedBlk s.dev 5 = false) ∧
    (bit (wrBits v).1 0 = s.dev.rt.stamp) ∧
    (s.dev.rt.bankA = .armed ∧ s.dev.rt.stamp = true) ∧
    (s.dev.rt.last0 = some t ∧ s.dev.clk.now < t + epochDrain (putReg 0x20000 0 (mergeWr (regInForce s.dev 0x20000 0) (ins 32 0xFFFF) v) s.dev)) :=
  ⟨.fabricManager, .full 0x301, 0, wS { wDev with rt := { wDev.rt with bankA := .armed, stamp := true, last0 := some 0 } }, by decide +kernel⟩

/-- EpochAndTableCommandsComplete: a state and operands that meet what it asks of retireB. -/
theorem witness_retireB_retires : ∃ (m : Master) (v : Wr) (s : State),
    (atOnce m s) ∧
    (listens s) ∧
    (isFab m = true ∧ bit (wrBits v).2 0 = true ∧ fld (wrBits v).1 8 4 = 4 ∧ fencedBlk s.dev 5 = false) ∧
    (bit (wrBits v).1 0 = s.dev.rt.stamp) ∧
    (s.dev.rt.bankB = .armed ∧ s.dev.rt.stamp = false) ∧
    ((s.dev.rt.last1.any fun t => decide (s.dev.clk.now < t + epochDrain (putReg 0x20000 0 (mergeWr (regInForce s.dev 0x20000 0) (ins 32 0xFFFF) v) s.dev))) = false) :=
  ⟨.fabricManager, .full 0x400, wS { wDev with rt := { wDev.rt with bankB := .armed, stamp := false } }, by decide +kernel⟩

/-- EpochAndTableCommandsComplete: a state and operands that meet what it asks of retireB. -/
theorem witness_retireB_state : ∃ (m : Master) (v : Wr) (s : State),
    (atOnce m s) ∧
    (listens s) ∧
    (isFab m = true ∧ bit (wrBits v).2 0 = true ∧ fld (wrBits v).1 8 4 = 4 ∧ fencedBlk s.dev 5 = false) ∧
    (bit (wrBits v).1 0 = s.dev.rt.stamp) ∧
    (s.dev.rt.bankB ≠ .armed ∨ s.dev.rt.stamp = true) :=
  ⟨.fabricManager, .full 0x400, wS wDev, by decide +kernel⟩

/-- EpochAndTableCommandsComplete: a state and operands that meet what it asks of retireB. -/
theorem witness_retireB_drain : ∃ (m : Master) (v : Wr) (t : Nat) (s : State),
    (atOnce m s) ∧
    (listens s) ∧
    (isFab m = true ∧ bit (wrBits v).2 0 = true ∧ fld (wrBits v).1 8 4 = 4 ∧ fencedBlk s.dev 5 = false) ∧
    (bit (wrBits v).1 0 = s.dev.rt.stamp) ∧
    (s.dev.rt.bankB = .armed ∧ s.dev.rt.stamp = false) ∧
    (s.dev.rt.last1 = some t ∧ s.dev.clk.now < t + epochDrain (putReg 0x20000 0 (mergeWr (regInForce s.dev 0x20000 0) (ins 32 0xFFFF) v) s.dev)) :=
  ⟨.fabricManager, .full 0x400, 0, wS { wDev with rt := { wDev.rt with bankB := .armed, stamp := false, last1 := some 0 } }, by decide +kernel⟩

/-- EpochAndTableCommandsComplete: a state and operands that meet what it asks of stampWrite. -/
theorem witness_stampWrite_moves : ∃ (m : Master) (v : Wr) (s : State),
    (atOnce m s) ∧
    (listens s) ∧
    (isFab m = true ∧ bit (wrBits v).2 0 = true ∧ fld (wrBits v).1 8 4 = 0 ∧ fencedBlk s.dev 5 = false) ∧
    ((bit (wrBits v).1 0) ≠ s.dev.rt.stamp ∧ bankState s.dev (bit (wrBits v).1 0) = .armed) :=
  ⟨.fabricManager, .full 1, wS { wDev with rt := { wDev.rt with bankB := .armed } }, by decide +kernel⟩

/-- EpochAndTableCommandsComplete: a state and operands that meet what it asks of stampWrite. -/
theorem witness_stampWrite_refused : ∃ (m : Master) (v : Wr) (s : State),
    (atOnce m s) ∧
    (listens s) ∧
    (isFab m = true ∧ bit (wrBits v).2 0 = true ∧ fld (wrBits v).1 8 4 = 0 ∧ fencedBlk s.dev 5 = false) ∧
    ((bit (wrBits v).1 0) ≠ s.dev.rt.stamp ∧ bankState s.dev (bit (wrBits v).1 0) ≠ .armed) :=
  ⟨.fabricManager, .full 1, wS wDev, by decide +kernel⟩

/-- EpochAndTableCommandsComplete: a state and operands that meet what it asks of stampWrite. -/
theorem witness_stampWrite_same : ∃ (m : Master) (v : Wr) (s : State),
    (atOnce m s) ∧
    (listens s) ∧
    (isFab m = true ∧ bit (wrBits v).2 0 = true ∧ fld (wrBits v).1 8 4 = 0 ∧ fencedBlk s.dev 5 = false) ∧
    (bit (wrBits v).1 0 = s.dev.rt.stamp) :=
  ⟨.fabricManager, .full 0, wS wDev, by decide +kernel⟩

/-- EpochAndTableCommandsComplete: a state and operands that meet what it asks of tableRead. -/
theorem witness_tableRead_portMap : ∃ (m : Master) (v : Wr) (s : State),
    (atOnce m s) ∧
    (listens s) ∧
    (isFab m = true ∧ bit (wrBits v).2 0 = true ∧ bit (wrBits v).1 20 = false ∧ fencedBlk (putReg 0x20010 0 (mergeWr (regInForce s.dev 0x20010 0) 0x3FFFFF v) s.dev) 5 = false) ∧
    (fld (mergeWr (regInForce s.dev 0x20010 0) 0x3FFFFF v) 16 3 = 0 ∧ fld (mergeWr (regInForce s.dev 0x20010 0) 0x3FFFFF v) 0 16 < 64 ∧ bit (mergeWr (regInForce s.dev 0x20010 0) 0x3FFFFF v) 20 = false) :=
  ⟨.fabricManager, .full 0x5, wS wDev, by decide +kernel⟩

/-- EpochAndTableCommandsComplete: a state and operands that meet what it asks of tableRead. -/
theorem witness_tableRead_exception : ∃ (m : Master) (v : Wr) (s : State),
    (atOnce m s) ∧
    (listens s) ∧
    (isFab m = true ∧ bit (wrBits v).2 0 = true ∧ bit (wrBits v).1 20 = false ∧ fencedBlk (putReg 0x20010 0 (mergeWr (regInForce s.dev 0x20010 0) 0x3FFFFF v) s.dev) 5 = false) ∧
    (fld (mergeWr (regInForce s.dev 0x20010 0) 0x3FFFFF v) 16 3 = 1 ∧ bit (mergeWr (regInForce s.dev 0x20010 0) 0x3FFFFF v) 20 = false) :=
  ⟨.fabricManager, .full 0x10005, wS wDev, by decide +kernel⟩

/-- EpochAndTableCommandsComplete: a state and operands that meet what it asks of tableRead. -/
theorem witness_tableRead_tree : ∃ (m : Master) (v : Wr) (s : State),
    (atOnce m s) ∧
    (listens s) ∧
    (isFab m = true ∧ bit (wrBits v).2 0 = true ∧ bit (wrBits v).1 20 = false ∧ fencedBlk (putReg 0x20010 0 (mergeWr (regInForce s.dev 0x20010 0) 0x3FFFFF v) s.dev) 5 = false) ∧
    (fld (mergeWr (regInForce s.dev 0x20010 0) 0x3FFFFF v) 16 3 = 2 ∧ fld (mergeWr (regInForce s.dev 0x20010 0) 0x3FFFFF v) 0 16 < 16384 ∧ bit (mergeWr (regInForce s.dev 0x20010 0) 0x3FFFFF v) 20 = false) :=
  ⟨.fabricManager, .full 0x20005, wS wDev, by decide +kernel⟩

/-- EpochAndTableCommandsComplete: a state and operands that meet what it asks of tableRead. -/
theorem witness_tableRead_reach : ∃ (m : Master) (v : Wr) (s : State),
    (atOnce m s) ∧
    (listens s) ∧
    (isFab m = true ∧ bit (wrBits v).2 0 = true ∧ bit (wrBits v).1 20 = false ∧ fencedBlk (putReg 0x20010 0 (mergeWr (regInForce s.dev 0x20010 0) 0x3FFFFF v) s.dev) 5 = false) ∧
    (fld (mergeWr (regInForce s.dev 0x20010 0) 0x3FFFFF v) 16 3 = 3 ∧ fld (mergeWr (regInForce s.dev 0x20010 0) 0x3FFFFF v) 0 16 < 4096 ∧ bit (mergeWr (regInForce s.dev 0x20010 0) 0x3FFFFF v) 20 = false) :=
  ⟨.fabricManager, .full 0x30005, wS wDev, by decide +kernel⟩

/-- EpochAndTableCommandsComplete: a state and operands that meet what it asks of tableRead. -/
theorem witness_tableRead_none : ∃ (m : Master) (v : Wr) (s : State),
    (atOnce m s) ∧
    (listens s) ∧
    (isFab m = true ∧ bit (wrBits v).2 0 = true ∧ bit (wrBits v).1 20 = false ∧ fencedBlk (putReg 0x20010 0 (mergeWr (regInForce s.dev 0x20010 0) 0x3FFFFF v) s.dev) 5 = false) ∧
    (tblSize (fld (mergeWr (regInForce s.dev 0x20010 0) 0x3FFFFF v) 16 3) ≤ fld (mergeWr (regInForce s.dev 0x20010 0) 0x3FFFFF v) 0 16 ∧ bit (mergeWr (regInForce s.dev 0x20010 0) 0x3FFFFF v) 20 = false) :=
  ⟨.fabricManager, .full 0x40, wS wDev, by decide +kernel⟩

/-- EpochAndTableCommandsComplete: a state and operands that meet what it asks of tableWrite. -/
theorem witness_tableWrite_none : ∃ (m : Master) (v : Wr) (s : State),
    (atOnce m s) ∧
    (listens s) ∧
    (isFab m = true ∧ bit (wrBits v).2 0 = true ∧ bit (wrBits v).1 20 = true ∧ bit (wrBits v).1 21 = false ∧ fencedBlk (putReg 0x20010 0 (mergeWr (regInForce s.dev 0x20010 0) 0x3FFFFF v) s.dev) 5 = false) ∧
    (tblSize (fld (mergeWr (regInForce s.dev 0x20010 0) 0x3FFFFF v) 16 3) ≤ fld (mergeWr (regInForce s.dev 0x20010 0) 0x3FFFFF v) 0 16 ∧ bit (mergeWr (regInForce s.dev 0x20010 0) 0x3FFFFF v) 20 = true) :=
  ⟨.fabricManager, .full 0x100040, wS wDev, by decide +kernel⟩

/-- EpochAndTableCommandsComplete: a state and operands that meet what it asks of tableWrite. -/
theorem witness_tableWrite_reach : ∃ (m : Master) (v : Wr) (s : State),
    (atOnce m s) ∧
    (listens s) ∧
    (isFab m = true ∧ bit (wrBits v).2 0 = true ∧ bit (wrBits v).1 20 = true ∧ bit (wrBits v).1 21 = false ∧ fencedBlk (putReg 0x20010 0 (mergeWr (regInForce s.dev 0x20010 0) 0x3FFFFF v) s.dev) 5 = false) ∧
    (fld (mergeWr (regInForce s.dev 0x20010 0) 0x3FFFFF v) 16 3 = 3 ∧ fld (mergeWr (regInForce s.dev 0x20010 0) 0x3FFFFF v) 0 16 < 4096 ∧ bit (mergeWr (regInForce s.dev 0x20010 0) 0x3FFFFF v) 20 = true) :=
  ⟨.fabricManager, .full 0x130005, wS wDev, by decide +kernel⟩

/-- EpochAndTableCommandsComplete: a state and operands that meet what it asks of tableWrite. -/
theorem witness_tableWrite_portMap : ∃ (m : Master) (v : Wr) (s : State),
    (atOnce m s) ∧
    (listens s) ∧
    (isFab m = true ∧ bit (wrBits v).2 0 = true ∧ bit (wrBits v).1 20 = true ∧ bit (wrBits v).1 21 = false ∧ fencedBlk (putReg 0x20010 0 (mergeWr (regInForce s.dev 0x20010 0) 0x3FFFFF v) s.dev) 5 = false) ∧
    (fld (mergeWr (regInForce s.dev 0x20010 0) 0x3FFFFF v) 16 3 = 0 ∧ fld (mergeWr (regInForce s.dev 0x20010 0) 0x3FFFFF v) 0 16 < 64 ∧ bit (mergeWr (regInForce s.dev 0x20010 0) 0x3FFFFF v) 20 = true ∧ bankState (putReg 0x20010 0 (mergeWr (regInForce s.dev 0x20010 0) 0x3FFFFF v) s.dev) (bit (mergeWr (regInForce s.dev 0x20010 0) 0x3FFFFF v) 19) = .idle ∧ pmOk (tblData (putReg 0x20010 0 (mergeWr (regInForce s.dev 0x20010 0) 0x3FFFFF v) s.dev) 0) = true) :=
  ⟨.fabricManager, .full 0x100005, wS wDev, by decide +kernel⟩

/-- EpochAndTableCommandsComplete: a state and operands that meet what it asks of tableWrite. -/
theorem witness_tableWrite_portMapBad : ∃ (m : Master) (v : Wr) (s : State),
    (atOnce m s) ∧
    (listens s) ∧
    (isFab m = true ∧ bit (wrBits v).2 0 = true ∧ bit (wrBits v).1 20 = true ∧ bit (wrBits v).1 21 = false ∧ fencedBlk (putReg 0x20010 0 (mergeWr (regInForce s.dev 0x20010 0) 0x3FFFFF v) s.dev) 5 = false) ∧
    (fld (mergeWr (regInForce s.dev 0x20010 0) 0x3FFFFF v) 16 3 = 0 ∧ fld (mergeWr (regInForce s.dev 0x20010 0) 0x3FFFFF v) 0 16 < 64 ∧ bit (mergeWr (regInForce s.dev 0x20010 0) 0x3FFFFF v) 20 = true ∧ bankState (putReg 0x20010 0 (mergeWr (regInForce s.dev 0x20010 0) 0x3FFFFF v) s.dev) (bit (mergeWr (regInForce s.dev 0x20010 0) 0x3FFFFF v) 19) = .idle ∧ pmOk (tblData (putReg 0x20010 0 (mergeWr (regInForce s.dev 0x20010 0) 0x3FFFFF v) s.dev) 0) = false) :=
  ⟨.fabricManager, .full 0x100005, wS { wDev with regs := [(0x20018, 0x4000)] }, by decide +kernel⟩

/-- EpochAndTableCommandsComplete: a state and operands that meet what it asks of tableWrite. -/
theorem witness_tableWrite_exception : ∃ (m : Master) (v : Wr) (s : State),
    (atOnce m s) ∧
    (listens s) ∧
    (isFab m = true ∧ bit (wrBits v).2 0 = true ∧ bit (wrBits v).1 20 = true ∧ bit (wrBits v).1 21 = false ∧ fencedBlk (putReg 0x20010 0 (mergeWr (regInForce s.dev 0x20010 0) 0x3FFFFF v) s.dev) 5 = false) ∧
    (fld (mergeWr (regInForce s.dev 0x20010 0) 0x3FFFFF v) 16 3 = 1 ∧ bit (mergeWr (regInForce s.dev 0x20010 0) 0x3FFFFF v) 20 = true ∧ bankState (putReg 0x20010 0 (mergeWr (regInForce s.dev 0x20010 0) 0x3FFFFF v) s.dev) (bit (mergeWr (regInForce s.dev 0x20010 0) 0x3FFFFF v) 19) = .idle ∧ exOk (tblData (putReg 0x20010 0 (mergeWr (regInForce s.dev 0x20010 0) 0x3FFFFF v) s.dev) 0) = true) :=
  ⟨.fabricManager, .full 0x110005, wS wDev, by decide +kernel⟩

/-- EpochAndTableCommandsComplete: a state and operands that meet what it asks of tableWrite. -/
theorem witness_tableWrite_exceptionBad : ∃ (m : Master) (v : Wr) (s : State),
    (atOnce m s) ∧
    (listens s) ∧
    (isFab m = true ∧ bit (wrBits v).2 0 = true ∧ bit (wrBits v).1 20 = true ∧ bit (wrBits v).1 21 = false ∧ fencedBlk (putReg 0x20010 0 (mergeWr (regInForce s.dev 0x20010 0) 0x3FFFFF v) s.dev) 5 = false) ∧
    (fld (mergeWr (regInForce s.dev 0x20010 0) 0x3FFFFF v) 16 3 = 1 ∧ bit (mergeWr (regInForce s.dev 0x20010 0) 0x3FFFFF v) 20 = true ∧ bankState (putReg 0x20010 0 (mergeWr (regInForce s.dev 0x20010 0) 0x3FFFFF v) s.dev) (bit (mergeWr (regInForce s.dev 0x20010 0) 0x3FFFFF v) 19) = .idle ∧ exOk (tblData (putReg 0x20010 0 (mergeWr (regInForce s.dev 0x20010 0) 0x3FFFFF v) s.dev) 0) = false) :=
  ⟨.fabricManager, .full 0x110005, wS { wDev with regs := [(0x20018, 3)] }, by decide +kernel⟩

/-- EpochAndTableCommandsComplete: a state and operands that meet what it asks of tableWrite. -/
theorem witness_tableWrite_tree : ∃ (m : Master) (v : Wr) (s : State),
    (atOnce m s) ∧
    (listens s) ∧
    (isFab m = true ∧ bit (wrBits v).2 0 = true ∧ bit (wrBits v).1 20 = true ∧ bit (wrBits v).1 21 = false ∧ fencedBlk (putReg 0x20010 0 (mergeWr (regInForce s.dev 0x20010 0) 0x3FFFFF v) s.dev) 5 = false) ∧
    (fld (mergeWr (regInForce s.dev 0x20010 0) 0x3FFFFF v) 16 3 = 2 ∧ fld (mergeWr (regInForce s.dev 0x20010 0) 0x3FFFFF v) 0 16 < 16384 ∧ bit (mergeWr (regInForce s.dev 0x20010 0) 0x3FFFFF v) 20 = true) ∧
    (bankState (putReg 0x20010 0 (mergeWr (regInForce s.dev 0x20010 0) 0x3FFFFF v) s.dev) (bit (mergeWr (regInForce s.dev 0x20010 0) 0x3FFFFF v) 19) = .idle ∧ treeOk (putReg 0x20010 0 (mergeWr (regInForce s.dev 0x20010 0) 0x3FFFFF v) s.dev) (bit (mergeWr (regInForce s.dev 0x20010 0) 0x3FFFFF v) 19) (fld (mergeWr (regInForce s.dev 0x20010 0) 0x3FFFFF v) 0 16) ({ w0 := tblData (putReg 0x20010 0 (mergeWr (regInForce s.dev 0x20010 0) 0x3FFFFF v) s.dev) 0, w1 := tblData (putReg 0x20010 0 (mergeWr (regInForce s.dev 0x20010 0) 0x3FFFFF v) s.dev) 1, w2 := tblData (putReg 0x20010 0 (mergeWr (regInForce s.dev 0x20010 0) 0x3FFFFF v) s.dev) 2, w3 := tblData (putReg 0x20010 0 (mergeWr (regInForce s.dev 0x20010 0) 0x3FFFFF v) s.dev) 3 } : TreeWords) = true ∧ boundTo (putReg 0x20010 0 (mergeWr (regInForce s.dev 0x20010 0) 0x3FFFFF v) s.dev) (fld (mergeWr (regInForce s.dev 0x20010 0) 0x3FFFFF v) 0 16) (bit (mergeWr (regInForce s.dev 0x20010 0) 0x3FFFFF v) 19) = false) :=
  ⟨.fabricManager, .full 0x120005, wS wDev, by decide +kernel⟩

/-- EpochAndTableCommandsComplete: a state and operands that meet what it asks of tableWrite. -/
theorem witness_tableWrite_refused : ∃ (m : Master) (v : Wr) (s : State),
    (atOnce m s) ∧
    (listens s) ∧
    (isFab m = true ∧ bit (wrBits v).2 0 = true ∧ bit (wrBits v).1 20 = true ∧ bit (wrBits v).1 21 = false ∧ fencedBlk (putReg 0x20010 0 (mergeWr (regInForce s.dev 0x20010 0) 0x3FFFFF v) s.dev) 5 = false) ∧
    (fld (mergeWr (regInForce s.dev 0x20010 0) 0x3FFFFF v) 16 3 < 2 ∧ fld (mergeWr (regInForce s.dev 0x20010 0) 0x3FFFFF v) 0 16 < 64 ∧ bit (mergeWr (regInForce s.dev 0x20010 0) 0x3FFFFF v) 20 = true ∧ bit (mergeWr (regInForce s.dev 0x20010 0) 0x3FFFFF v) 21 = false ∧ bankState (putReg 0x20010 0 (mergeWr (regInForce s.dev 0x20010 0) 0x3FFFFF v) s.dev) (bit (mergeWr (regInForce s.dev 0x20010 0) 0x3FFFFF v) 19) ≠ .idle) :=
  ⟨.fabricManager, .full 0x100005, wS { wDev with rt := { wDev.rt with bankA := .armed } }, by decide +kernel⟩

/-- EpochAndTableCommandsComplete: a state and operands that meet what it asks of forcedWrite. -/
theorem witness_forcedWrite_portMap : ∃ (m : Master) (v : Wr) (s : State),
    (atOnce m s) ∧
    (listens s) ∧
    (isFab m = true ∧ bit (wrBits v).2 0 = true ∧ bit (wrBits v).1 20 = true ∧ bit (wrBits v).1 21 = true ∧ fencedBlk (putReg 0x20010 0 (mergeWr (regInForce s.dev 0x20010 0) 0x3FFFFF v) s.dev) 5 = false) ∧
    (fld (mergeWr (regInForce s.dev 0x20010 0) 0x3FFFFF v) 16 3 = 0 ∧ fld (mergeWr (regInForce s.dev 0x20010 0) 0x3FFFFF v) 0 16 < 64 ∧ bit (mergeWr (regInForce s.dev 0x20010 0) 0x3FFFFF v) 20 = true ∧ bit (mergeWr (regInForce s.dev 0x20010 0) 0x3FFFFF v) 21 = true ∧ bankState (putReg 0x20010 0 (mergeWr (regInForce s.dev 0x20010 0) 0x3FFFFF v) s.dev) (bit (mergeWr (regInForce s.dev 0x20010 0) 0x3FFFFF v) 19) ≠ .retiring ∧ pmOk (tblData (putReg 0x20010 0 (mergeWr (regInForce s.dev 0x20010 0) 0x3FFFFF v) s.dev) 0) = true) :=
  ⟨.fabricManager, .full 0x300005, wS { wDev with rt := { wDev.rt with bankA := .armed } }, by decide +kernel⟩

/-- EpochAndTableCommandsComplete: a state and operands that meet what it asks of forcedWrite. -/
theorem witness_forcedWrite_tree : ∃ (m : Master) (v : Wr) (s : State),
    (atOnce m s) ∧
    (listens s) ∧
    (isFab m = true ∧ bit (wrBits v).2 0 = true ∧ bit (wrBits v).1 20 = true ∧ bit (wrBits v).1 21 = true ∧ fencedBlk (putReg 0x20010 0 (mergeWr (regInForce s.dev 0x20010 0) 0x3FFFFF v) s.dev) 5 = false) ∧
    (fld (mergeWr (regInForce s.dev 0x20010 0) 0x3FFFFF v) 16 3 = 2 ∧ fld (mergeWr (regInForce s.dev 0x20010 0) 0x3FFFFF v) 0 16 < 16384 ∧ bit (mergeWr (regInForce s.dev 0x20010 0) 0x3FFFFF v) 20 = true ∧ bit (mergeWr (regInForce s.dev 0x20010 0) 0x3FFFFF v) 21 = true) ∧
    (bankState (putReg 0x20010 0 (mergeWr (regInForce s.dev 0x20010 0) 0x3FFFFF v) s.dev) (bit (mergeWr (regInForce s.dev 0x20010 0) 0x3FFFFF v) 19) = .armed ∧ treeOk (putReg 0x20010 0 (mergeWr (regInForce s.dev 0x20010 0) 0x3FFFFF v) s.dev) (bit (mergeWr (regInForce s.dev 0x20010 0) 0x3FFFFF v) 19) (fld (mergeWr (regInForce s.dev 0x20010 0) 0x3FFFFF v) 0 16) ({ w0 := tblData (putReg 0x20010 0 (mergeWr (regInForce s.dev 0x20010 0) 0x3FFFFF v) s.dev) 0, w1 := tblData (putReg 0x20010 0 (mergeWr (regInForce s.dev 0x20010 0) 0x3FFFFF v) s.dev) 1, w2 := tblData (putReg 0x20010 0 (mergeWr (regInForce s.dev 0x20010 0) 0x3FFFFF v) s.dev) 2, w3 := tblData (putReg 0x20010 0 (mergeWr (regInForce s.dev 0x20010 0) 0x3FFFFF v) s.dev) 3 } : TreeWords) = true) :=
  ⟨.fabricManager, .full 0x320005, wS { wDev with rt := { wDev.rt with bankA := .armed } }, by decide +kernel⟩

/-- EpochAndTableCommandsComplete: a state and operands that meet what it asks of forcedWrite. -/
theorem witness_forcedWrite_retiring : ∃ (m : Master) (v : Wr) (s : State),
    (atOnce m s) ∧
    (listens s) ∧
    (isFab m = true ∧ bit (wrBits v).2 0 = true ∧ bit (wrBits v).1 20 = true ∧ bit (wrBits v).1 21 = true ∧ fencedBlk (putReg 0x20010 0 (mergeWr (regInForce s.dev 0x20010 0) 0x3FFFFF v) s.dev) 5 = false) ∧
    (fld (mergeWr (regInForce s.dev 0x20010 0) 0x3FFFFF v) 16 3 < 2 ∧ fld (mergeWr (regInForce s.dev 0x20010 0) 0x3FFFFF v) 0 16 < 64 ∧ bit (mergeWr (regInForce s.dev 0x20010 0) 0x3FFFFF v) 20 = true ∧ bit (mergeWr (regInForce s.dev 0x20010 0) 0x3FFFFF v) 21 = true ∧ bankState (putReg 0x20010 0 (mergeWr (regInForce s.dev 0x20010 0) 0x3FFFFF v) s.dev) (bit (mergeWr (regInForce s.dev 0x20010 0) 0x3FFFFF v) 19) = .retiring) :=
  ⟨.fabricManager, .full 0x300005, wS { wDev with rt := { wDev.rt with bankA := .retiring } }, by decide +kernel⟩

/-- EpochAndTableCommandsComplete: a state and operands that meet what it asks of rtCoordWrite. -/
theorem witness_rtCoordWrite_changes : ∃ (m : Master) (v : Wr) (s : State),
    (atOnce m s) ∧
    (listens s) ∧
    (isFab m = true) ∧
    (s.dev.rt.bankA = .idle ∧ s.dev.rt.bankB = .idle) ∧
    ((mergeWr (rtCoordWord s.dev) 0x1FFFF v) ≠ rtCoordWord s.dev) :=
  ⟨.fabricManager, .full 0x12345, wS wDev, by decide +kernel⟩

/-- EpochAndTableCommandsComplete: a state and operands that meet what it asks of rtCoordWrite. -/
theorem witness_rtCoordWrite_same : ∃ (m : Master) (v : Wr) (s : State),
    (atOnce m s) ∧
    (listens s) ∧
    (isFab m = true) ∧
    (s.dev.rt.bankA = .idle ∧ s.dev.rt.bankB = .idle) ∧
    ((mergeWr (rtCoordWord s.dev) 0x1FFFF v) = rtCoordWord s.dev) :=
  ⟨.fabricManager, .full 0x0, wS wDev, by decide +kernel⟩

/-- EpochAndTableCommandsComplete: a state and operands that meet what it asks of rtCoordWrite. -/
theorem witness_rtCoordWrite_ignored : ∃ (m : Master) (v : Wr) (s : State),
    (atOnce m s) ∧
    (listens s) ∧
    (isFab m = true) ∧
    (s.dev.rt.bankA ≠ .idle ∨ s.dev.rt.bankB ≠ .idle) :=
  ⟨.fabricManager, .full 0x12345, wS { wDev with rt := { wDev.rt with bankA := .armed } }, by decide +kernel⟩

/-- LinkTrainingComplete: a state and operands that meet what it asks of frameLockGained. -/
theorem witness_frameLockGained_training : ∃ (p : Fin 64) (j : Fin 2) (before : List Mark) (last : Mark) (lane : Option Nat) (inv : Bool) (s : State),
    (listens s ∧ lockOf (before ++ [last]) = some (lane, inv)) ∧
    ((getPort s.dev p.val).st = .training ∧ portLaneEn s.dev p.val (lane.getD (if ((getPort s.dev p.val).lanes j.val).swapped then 1 - j.val else j.val)) = true) :=
  ⟨3, 0, List.replicate 2 { first := laneMarker 1 }, { first := laneMarker 1 }, some 1, false, wPort { st := .training }, by decide +kernel⟩

/-- LinkTrainingComplete: a state and operands that meet what it asks of frameLockGained. -/
theorem witness_frameLockGained_retraining : ∃ (p : Fin 64) (j : Fin 2) (before : List Mark) (last : Mark) (lane : Option Nat) (inv : Bool) (s : State),
    (listens s ∧ lockOf (before ++ [last]) = some (lane, inv)) ∧
    ((getPort s.dev p.val).st = .retraining ∧ (lane.getD (if ((getPort s.dev p.val).lanes j.val).swapped then 1 - j.val else j.val)) = (getPort s.dev p.val).lane) :=
  ⟨3, 0, List.replicate 2 { first := laneMarker 0 }, { first := laneMarker 0 }, some 0, false, wPort { st := .retraining, lane := 0, rung := 1 }, by decide +kernel⟩

/-- LinkTrainingComplete: a state and operands that meet what it asks of frameLockGained. -/
theorem witness_frameLockGained_change : ∃ (p : Fin 64) (j : Fin 2) (before : List Mark) (last : Mark) (lane : Option Nat) (inv : Bool) (s : State),
    (listens s ∧ lockOf (before ++ [last]) = some (lane, inv)) ∧
    (changing (getPort s.dev p.val).st = true ∧ trainee (getPort s.dev p.val) = some (lane.getD (if ((getPort s.dev p.val).lanes j.val).swapped then 1 - j.val else j.val))) :=
  ⟨3, 1, List.replicate 2 { first := laneMarker 1 }, { first := laneMarker 1 }, some 1, false, wPort { wUp with width := 1, l1 := {}, prog := some { kind := 3, lane := 1 }, applied := true }, by decide +kernel⟩

/-- LinkTrainingComplete: a state and operands that meet what it asks of frameLockGained. -/
theorem witness_frameLockGained_again : ∃ (p : Fin 64) (j : Fin 2) (before : List Mark) (last : Mark) (lane : Option Nat) (inv : Bool) (s : State),
    (listens s ∧ lockOf (before ++ [last]) = some (lane, inv)) ∧
    (changing (getPort s.dev p.val).st = true ∧ trainee (getPort s.dev p.val) ≠ some (lane.getD (if ((getPort s.dev p.val).lanes j.val).swapped then 1 - j.val else j.val)) ∧ (getPort s.dev p.val).frameLock = false ∧ (lane.isSome = true ∨ ((getPort s.dev p.val).lanes (lane.getD (if ((getPort s.dev p.val).lanes j.val).swapped then 1 - j.val else j.val))).soak = false)) :=
  ⟨3, 1, List.replicate 2 { first := laneMarker 1 }, { first := laneMarker 1 }, some 1, false, wPort { wUp with frameLock := false }, by decide +kernel⟩

/-- LinkTrainingComplete: a state and operands that meet what it asks of frameLockLost. -/
theorem witness_frameLockLost : ∃ (p : Fin 64) (seen : List Mark) (s : State),
    (listens s) ∧
    (carriesLocal (getPort s.dev p.val).st = true ∧ lockGone seen = true) :=
  ⟨3, List.replicate 4 { first := 0 }, wPort wUp, by decide +kernel⟩

/-- LinkTrainingComplete: a state and operands that meet what it asks of frameLockTimeout. -/
theorem witness_frameLockTimeout : ∃ (p : Fin 64) (s : State),
    (listens s) ∧
    (changing (getPort s.dev p.val).st = true ∧ (getPort s.dev p.val).frameLock = false) :=
  ⟨3, wPort { wUp with frameLock := false }, by decide +kernel⟩

/-- LinkTrainingComplete: a state and operands that meet what it asks of trainLockTimeout. -/
theorem witness_trainLockTimeout : ∃ (p : Fin 64) (j : Fin 2) (s : State),
    (listens s) ∧
    ((getPort s.dev p.val).st = .training ∧ ((getPort s.dev p.val).lanes j.val).locked = false) :=
  ⟨3, 1, wPort { st := .training, l0 := wLane }, by decide +kernel⟩

/-- LinkTrainingComplete: a state and operands that meet what it asks of rateLockTimeout. -/
theorem witness_rateLockTimeout : ∃ (p : Fin 64) (s : State),
    (listens s) ∧
    ((getPort s.dev p.val).prog.isSome = true) :=
  ⟨3, wPort { wUp with prog := some { kind := 4, rate := 2 }, applied := true }, by decide +kernel⟩

/-- LinkTrainingComplete: a state and operands that meet what it asks of portDownDwellEnd. -/
theorem witness_portDownDwellEnd : ∃ (p : Fin 64) (s : State),
    (listens s) ∧
    ((getPort s.dev p.val).st = .down ∧ (portAutoRetrain s.dev p.val = true ∨ (getPort s.dev p.val).restart = true)) :=
  ⟨3, wPort { st := .down }, by decide +kernel⟩

/-- LinkTrainingComplete: a state and operands that meet what it asks of laneSignalLoss. -/
theorem witness_laneSignalLoss : ∃ (p : Fin 64) (j : Fin 2) (lol : Bool) (s : State),
    (listens s) ∧
    (changing (getPort s.dev p.val).st = true) :=
  ⟨3, 0, true, wPort wUp, by decide +kernel⟩

/-- LinkTrainingComplete: a state and operands that meet what it asks of laneHealthWindow. -/
theorem witness_laneHealthWindow : ∃ (p : Fin 64) (j : Fin 2) (sym : Nat) (unc : Nat) (bip : Nat) (s : State),
    (listens s) :=
  ⟨3, 0, 0, 20, 0, wPort wUp, by decide +kernel⟩

/-- LinkTrainingComplete: a state and operands that meet what it asks of laneRestoreTimer. -/
theorem witness_laneRestoreTimer : ∃ (p : Fin 64) (j : Fin 2) (s : State),
    (listens s) ∧
    (changing (getPort s.dev p.val).st = true ∧ ((getPort s.dev p.val).lanes j.val).fail = true ∧ ((getPort s.dev p.val).lanes j.val).soak = false) ∧
    (portLaneEn s.dev p.val j.val = true ∧ (getPort s.dev p.val).width = 1 ∧ (getPort s.dev p.val).lane ≠ j.val) :=
  ⟨3, 1, wPort { wUp with width := 1, lane := 0, l1 := { fail := true } }, by decide +kernel⟩

/-- LinkTrainingComplete: a state and operands that meet what it asks of laneSoakEnd. -/
theorem witness_laneSoakEnd_excluded : ∃ (p : Fin 64) (j : Fin 2) (s : State),
    (listens s) ∧
    (((getPort s.dev p.val).lanes j.val).soak = true ∧ (((getPort s.dev p.val).lanes j.val).fail = false ∨ portLaneEn s.dev p.val 0 = false ∨ portLaneEn s.dev p.val 1 = false)) :=
  ⟨3, 1, wS { (wPort { wUp with width := 1, lane := 0, l1 := { fail := true, soak := true } }).dev with regs := [(0x10300, 0xB900010000080819)] }, by decide +kernel⟩

/-- LinkTrainingComplete: a state and operands that meet what it asks of laneSoakEnd. -/
theorem witness_laneSoakEnd : ∃ (p : Fin 64) (j : Fin 2) (s : State),
    (listens s) ∧
    (((getPort s.dev p.val).lanes j.val).soak = true ∧ ((getPort s.dev p.val).lanes j.val).fail = true ∧ portLaneEn s.dev p.val 0 = true ∧ portLaneEn s.dev p.val 1 = true) :=
  ⟨3, 1, wPort { wUp with width := 1, lane := 0, l1 := { fail := true, soak := true } }, by decide +kernel⟩

/-- LinkMessagesComplete: a state and operands that meet what it asks of linkHello. -/
theorem witness_linkHello_stored : ∃ (p : Fin 64) (m : LinkMsg) (s : State),
    (listens s) ∧
    (m.ntype = 0x01 ∧ carriesLocal (getPort s.dev p.val).st = true ∧ m.crc = linkCrc m) ∧
    ((getPort (takeLink p.val m s.dev) p.val).st ≠ .up ∨ m.unitId = (getPort (takeLink p.val m s.dev) p.val).unitId) :=
  ⟨3, wLl 0x01, wPort wUp, by decide +kernel⟩

/-- LinkMessagesComplete: a state and operands that meet what it asks of linkHello. -/
theorem witness_linkHello_other : ∃ (p : Fin 64) (m : LinkMsg) (s : State),
    (listens s) ∧
    (m.ntype = 0x01 ∧ carriesLocal (getPort s.dev p.val).st = true ∧ m.crc = linkCrc m) ∧
    ((getPort (takeLink p.val m s.dev) p.val).st = .up ∧ m.unitId ≠ (getPort (takeLink p.val m s.dev) p.val).unitId) :=
  ⟨3, wLl 0x01, wPort { wUp with unitId := 9 }, by decide +kernel⟩

/-- LinkMessagesComplete: a state and operands that meet what it asks of linkHelloTimer. -/
theorem witness_linkHelloTimer : ∃ (p : Fin 64) (s : State),
    (listens s) ∧
    (changing (getPort s.dev p.val).st = true) :=
  ⟨3, wPort wUp, by decide +kernel⟩

/-- LinkMessagesComplete: a state and operands that meet what it asks of changeReq. -/
theorem witness_changeReq_accepted : ∃ (p : Fin 64) (m : LinkMsg) (s : State),
    (listens s) ∧
    (m.ntype = 0x02 ∧ carriesLocal (getPort s.dev p.val).st = true ∧ m.crc = linkCrc m) ∧
    (changing (getPort (takeLink p.val m s.dev) p.val).st = true ∧ (getPort (takeLink p.val m s.dev) p.val).prog = none ∧ (getPort (takeLink p.val m s.dev) p.val).own = none) :=
  ⟨3, wLl 0x02, wPort wUp, by decide +kernel⟩

/-- LinkMessagesComplete: a state and operands that meet what it asks of changeReq. -/
theorem witness_changeReq_busy : ∃ (p : Fin 64) (m : LinkMsg) (s : State),
    (listens s) ∧
    (m.ntype = 0x02 ∧ carriesLocal (getPort s.dev p.val).st = true ∧ m.crc = linkCrc m) ∧
    (changing (getPort (takeLink p.val m s.dev) p.val).st = true ∧ (getPort (takeLink p.val m s.dev) p.val).prog.isSome = true) :=
  ⟨3, wLl 0x02, wPort { wUp with prog := some {} }, by decide +kernel⟩

/-- LinkMessagesComplete: a state and operands that meet what it asks of changeReq. -/
theorem witness_changeReq_merged : ∃ (p : Fin 64) (m : LinkMsg) (o : Chg) (s : State),
    (listens s) ∧
    (m.ntype = 0x02 ∧ carriesLocal (getPort s.dev p.val).st = true ∧ m.crc = linkCrc m) ∧
    (changing (getPort (takeLink p.val m s.dev) p.val).st = true ∧ (getPort (takeLink p.val m s.dev) p.val).prog = none ∧ (getPort (takeLink p.val m s.dev) p.val).own = some o ∧ sameChg (msgChg m) o = true) :=
  ⟨3, wLl 0x02, { kind := 1 }, wPort { wUp with own := some { kind := 1 } }, by decide +kernel⟩

/-- LinkMessagesComplete: a state and operands that meet what it asks of changeReq. -/
theorem witness_changeReq_collides : ∃ (p : Fin 64) (m : LinkMsg) (o : Chg) (s : State),
    (listens s) ∧
    (m.ntype = 0x02 ∧ carriesLocal (getPort s.dev p.val).st = true ∧ m.crc = linkCrc m) ∧
    (changing (getPort (takeLink p.val m s.dev) p.val).st = true ∧ (getPort (takeLink p.val m s.dev) p.val).prog = none ∧ (getPort (takeLink p.val m s.dev) p.val).own = some o ∧ sameChg (msgChg m) o = false) :=
  ⟨3, wLl 0x02, { kind := 2 }, wPort { wUp with own := some { kind := 2 } }, by decide +kernel⟩

/-- LinkMessagesComplete: a state and operands that meet what it asks of changeAck. -/
theorem witness_changeAck_own : ∃ (p : Fin 64) (m : LinkMsg) (o : Chg) (s : State),
    (listens s) ∧
    (m.ntype = 0x03 ∧ carriesLocal (getPort s.dev p.val).st = true ∧ m.crc = linkCrc m) ∧
    ((getPort (takeLink p.val m s.dev) p.val).own = some o ∧ o.token = m.token) :=
  ⟨3, wLl 0x03, { kind := 1, token := 1 }, wPort { wUp with own := some { kind := 1, token := 1 } }, by decide +kernel⟩

/-- LinkMessagesComplete: a state and operands that meet what it asks of changeAck. -/
theorem witness_changeAck_merged : ∃ (p : Fin 64) (m : LinkMsg) (o : Chg) (s : State),
    (listens s) ∧
    (m.ntype = 0x03 ∧ carriesLocal (getPort s.dev p.val).st = true ∧ m.crc = linkCrc m) ∧
    ((getPort (takeLink p.val m s.dev) p.val).own = none ∧ (getPort (takeLink p.val m s.dev) p.val).merged = true ∧ (getPort (takeLink p.val m s.dev) p.val).applied = false ∧ (getPort (takeLink p.val m s.dev) p.val).prog = some o ∧ o.token = m.token) :=
  ⟨3, wLl 0x03, { kind := 1, token := 1 }, wPort { wUp with merged := true, prog := some { kind := 1, token := 1 } }, by decide +kernel⟩

/-- LinkMessagesComplete: a state and operands that meet what it asks of changeGo. -/
theorem witness_changeGo : ∃ (p : Fin 64) (m : LinkMsg) (o : Chg) (s : State),
    (listens s) ∧
    (m.ntype = 0x04 ∧ carriesLocal (getPort s.dev p.val).st = true ∧ m.crc = linkCrc m) ∧
    ((getPort (takeLink p.val m s.dev) p.val).mine = false ∧ (getPort (takeLink p.val m s.dev) p.val).merged = false ∧ (getPort (takeLink p.val m s.dev) p.val).applied = false ∧ (getPort (takeLink p.val m s.dev) p.val).prog = some o ∧ o.token = m.token) :=
  ⟨3, wLl 0x04, { kind := 1, token := 1 }, wPort { wUp with prog := some { kind := 1, token := 1 } }, by decide +kernel⟩

/-- LinkMessagesComplete: a state and operands that meet what it asks of changeBusy. -/
theorem witness_changeBusy : ∃ (p : Fin 64) (m : LinkMsg) (o : Chg) (s : State),
    (listens s) ∧
    (m.ntype = 0x05 ∧ carriesLocal (getPort s.dev p.val).st = true ∧ m.crc = linkCrc m) ∧
    ((getPort (takeLink p.val m s.dev) p.val).own = some o ∧ o.token = m.token) :=
  ⟨3, wLl 0x05, { kind := 1, token := 1 }, wPort { wUp with own := some { kind := 1, token := 1 } }, by decide +kernel⟩

/-- LinkMessagesComplete: a state and operands that meet what it asks of changeBusyWaitEnd. -/
theorem witness_changeBusyWaitEnd : ∃ (p : Fin 64) (s : State),
    (listens s) ∧
    ((getPort s.dev p.val).busyWait = true) :=
  ⟨3, wPort { wUp with busyWait := true, plan := [{ kind := 1 }] }, by decide +kernel⟩

/-- LinkMessagesComplete: a state and operands that meet what it asks of changeDone. -/
theorem witness_changeDone : ∃ (p : Fin 64) (m : LinkMsg) (o : Chg) (s : State),
    (listens s) ∧
    (m.ntype = 0x06 ∧ carriesLocal (getPort s.dev p.val).st = true ∧ m.crc = linkCrc m) ∧
    ((getPort (takeLink p.val m s.dev) p.val).applied = true ∧ (getPort (takeLink p.val m s.dev) p.val).prog = some o ∧ (o.kind = 3 ∨ o.kind = 4)) :=
  ⟨3, wLl 0x06, { kind := 3 }, wPort { wUp with applied := true, prog := some { kind := 3 } }, by decide +kernel⟩

/-- LinkMessagesComplete: a state and operands that meet what it asks of changeReqTimeout. -/
theorem witness_changeReqTimeout_again : ∃ (p : Fin 64) (o : Chg) (s : State),
    (listens s) ∧
    ((getPort s.dev p.val).own = some o ∧ o.tries < 4) :=
  ⟨3, {}, wPort { wUp with own := some {} }, by decide +kernel⟩

/-- LinkMessagesComplete: a state and operands that meet what it asks of changeReqTimeout. -/
theorem witness_changeReqTimeout_fail : ∃ (p : Fin 64) (o : Chg) (s : State),
    (listens s) ∧
    ((getPort s.dev p.val).own = some o ∧ 4 ≤ o.tries) :=
  ⟨3, { tries := 4 }, wPort { wUp with own := some { tries := 4 } }, by decide +kernel⟩

/-- LinkMessagesComplete: a state and operands that meet what it asks of linkMode. -/
theorem witness_linkMode : ∃ (p : Fin 64) (m : LinkMsg) (s : State),
    (listens s) ∧
    (m.ntype = 0x07 ∧ carriesLocal (getPort s.dev p.val).st = true ∧ m.crc = linkCrc m) :=
  ⟨3, wLl 0x07, wPort wUp, by decide +kernel⟩

/-- PortCommandsComplete: a state and operands that meet what it asks of portEnable. -/
theorem witness_portEnable : ∃ (m : Master) (p : Fin 64) (s : State),
    (atOnce m s) ∧
    (listens s) ∧
    (isFab m = true) :=
  ⟨.fabricManager, 3, wPort {}, by decide +kernel⟩

/-- PortCommandsComplete: a state and operands that meet what it asks of portDisable. -/
theorem witness_portDisable : ∃ (m : Master) (p : Fin 64) (s : State),
    (atOnce m s) ∧
    (listens s) ∧
    (isFab m = true) :=
  ⟨.fabricManager, 3, wPort wUp, by decide +kernel⟩

/-- PortCommandsComplete: a state and operands that meet what it asks of narrowLane0. -/
theorem witness_narrowLane0 : ∃ (m : Master) (p : Fin 64) (s : State),
    (atOnce m s) ∧
    (listens s) ∧
    (isFab m = true) :=
  ⟨.fabricManager, 3, wPort wUp, by decide +kernel⟩

/-- PortCommandsComplete: a state and operands that meet what it asks of narrowLane1. -/
theorem witness_narrowLane1 : ∃ (m : Master) (p : Fin 64) (s : State),
    (atOnce m s) ∧
    (listens s) ∧
    (isFab m = true) :=
  ⟨.fabricManager, 3, wPort wUp, by decide +kernel⟩

/-- PortCommandsComplete: a state and operands that meet what it asks of widen. -/
theorem witness_widen : ∃ (m : Master) (p : Fin 64) (s : State),
    (atOnce m s) ∧
    (listens s) ∧
    (isFab m = true) :=
  ⟨.fabricManager, 3, wPort { wUp with width := 1 }, by decide +kernel⟩

/-- PortCommandsComplete: a state and operands that meet what it asks of retrainLane0. -/
theorem witness_retrainLane0 : ∃ (m : Master) (p : Fin 64) (s : State),
    (atOnce m s) ∧
    (listens s) ∧
    (isFab m = true) :=
  ⟨.fabricManager, 3, wPort wUp, by decide +kernel⟩

/-- PortCommandsComplete: a state and operands that meet what it asks of retrainLane1. -/
theorem witness_retrainLane1 : ∃ (m : Master) (p : Fin 64) (s : State),
    (atOnce m s) ∧
    (listens s) ∧
    (isFab m = true) :=
  ⟨.fabricManager, 3, wPort wUp, by decide +kernel⟩

/-- PortCommandsComplete: a state and operands that meet what it asks of portRestart. -/
theorem witness_portRestart : ∃ (m : Master) (p : Fin 64) (s : State),
    (atOnce m s) ∧
    (listens s) ∧
    (isFab m = true) :=
  ⟨.fabricManager, 3, wPort wUp, by decide +kernel⟩

/-- PortCommandsComplete: a state and operands that meet what it asks of flitReceive. -/
theorem witness_flitReceive_plain : ∃ (p : Fin 64) (a : Arrival) (slots : Fin 3) (f : Flit) (s : State),
    (listens s) ∧
    (linkUp (getPort s.dev p.val) = true ∧ a = .flit f none) :=
  ⟨3, .flit {} none, 1, {}, wPort wUp, by decide +kernel⟩

/-- PortCommandsComplete: a state and operands that meet what it asks of flitReceive. -/
theorem witness_flitReceive_trailer : ∃ (p : Fin 64) (a : Arrival) (slots : Fin 3) (f : Flit) (t : Trailer) (s : State),
    (listens s) ∧
    (linkUp (getPort s.dev p.val) = true ∧ a = .flit f (some t)) :=
  ⟨3, .flit {} (some { width := 2, nextWidth := 1, lane := 0, nextLane := 1 }), 1, {}, { width := 2, nextWidth := 1, lane := 0, nextLane := 1 }, wPort wUp, by decide +kernel⟩

/-- PortCommandsComplete: a state and operands that meet what it asks of flitReceive. -/
theorem witness_flitReceive_frame : ∃ (p : Fin 64) (a : Arrival) (slots : Fin 3) (l0 : List Sym) (l1 : List Sym) (s : State),
    (listens s) ∧
    (linkUp (getPort s.dev p.val) = true ∧ a = .frame l0 l1) :=
  ⟨3, .frame [] [], 1, [], [], wPort wUp, by decide +kernel⟩

/-- PortCommandsComplete: a state and operands that meet what it asks of replayTimeout. -/
theorem witness_replayTimeout : ∃ (p : Fin 64) (s : State),
    (listens s) ∧
    (carriesLocal (getPort s.dev p.val).st = true) :=
  ⟨3, wPort { wUp with replay := [{}], txNext := 1 }, by decide +kernel⟩

/-- PortCommandsComplete: a state and operands that meet what it asks of flitSend. -/
theorem witness_flitSend : ∃ (p : Fin 64) (s : State),
    (listens s) ∧
    (carriesLocal (getPort s.dev p.val).st = true) :=
  ⟨3, wPort wUp, by decide +kernel⟩

/-- PortCommandsComplete: a state and operands that meet what it asks of flitSend. -/
theorem witness_flitSend_retraining : ∃ (p : Fin 64) (s : State),
    (listens s) ∧
    ((getPort s.dev p.val).st = .retraining) :=
  ⟨3, wPort { st := .retraining }, by decide +kernel⟩

/-- TimeAndTrafficControlComplete: a state and operands that meet what it asks of timeReq. -/
theorem witness_timeReq : ∃ (p : Fin 64) (m : LinkMsg) (s : State),
    (listens s) ∧
    (m.ntype = 0x10 ∧ carriesLocal (getPort s.dev p.val).st = true ∧ m.crc = linkCrc m) :=
  ⟨3, wLl 0x10, wPort wUp, by decide +kernel⟩

/-- TimeAndTrafficControlComplete: a state and operands that meet what it asks of timeResp. -/
theorem witness_timeResp : ∃ (p : Fin 64) (m : LinkMsg) (t1 : Word64) (s : State),
    (listens s) ∧
    (m.ntype = 0x11 ∧ carriesLocal (getPort s.dev p.val).st = true ∧ m.crc = linkCrc m) ∧
    (s.dev.ft.req = some t1 ∧ ftEn s.dev = true ∧ ftRoot s.dev = false ∧ ftParent s.dev = p.val) :=
  ⟨3, wLl 0x11, 5, wS { (wPort wUp).dev with ft := { req := some 5 }, regs := [(0x60200, 0x80030000000003E8)] }, by decide +kernel⟩

/-- TimeAndTrafficControlComplete: a state and operands that meet what it asks of timeResp. -/
theorem witness_timeResp_stray : ∃ (p : Fin 64) (m : LinkMsg) (s : State),
    (listens s) ∧
    (m.ntype = 0x11 ∧ carriesLocal (getPort s.dev p.val).st = true ∧ m.crc = linkCrc m ∧ s.dev.ft.req = none) :=
  ⟨3, wLl 0x11, wPort wUp, by decide +kernel⟩

/-- TimeAndTrafficControlComplete: a state and operands that meet what it asks of timeExchangeTimer. -/
theorem witness_timeExchangeTimer : ∃ (s : State),
    (listens s) ∧
    (ftEn s.dev = true ∧ ftRoot s.dev = false) :=
  ⟨wS { (wPort wUp).dev with ft := { asked := true }, regs := [(0x60200, 0x80030000000003E8)] }, by decide +kernel⟩

/-- TimeAndTrafficControlComplete: a state and operands that meet what it asks of ppsInEdge. -/
theorem witness_ppsInEdge : ∃ (s : State),
    (listens s) :=
  ⟨wS wDev, by decide +kernel⟩

/-- TimeAndTrafficControlComplete: a state and operands that meet what it asks of ftSet. -/
theorem witness_ftSet : ∃ (m : Master) (v : Wr) (k : Word64) (s : State),
    (atOnce m s) ∧
    (listens s) ∧
    (isFab m = true ∧ v = .full k ∧ ftRoot s.dev = true) :=
  ⟨.fabricManager, .full 8, 8, wS { wDev with regs := [(0x60200, 0xC0000000000003E8)] }, by decide +kernel⟩

/-- TimeAndTrafficControlComplete: a state and operands that meet what it asks of shaperRefill. -/
theorem witness_shaperRefill : ∃ (s : State),
    (listens s) :=
  ⟨wWork {}, by decide +kernel⟩

/-- TimeAndTrafficControlComplete: a state and operands that meet what it asks of shaperRefill. -/
theorem witness_shaperRefill_idle : ∃ (f : FnId) (s : State),
    (listens s) ∧
    ((fnKeys s.dev).map fnOfKey = [f] ∧ (getFn s.dev f).admPt = []) :=
  ⟨{}, wS { wDev with fns := [(0, {})] }, by decide +kernel⟩

/-- TimeAndTrafficControlComplete: a state and operands that meet what it asks of gateEntryChange. -/
theorem witness_gateEntryChange_starts : ∃ (p : Fin 64) (starts : Bool) (l : GateList) (s : State),
    (listens s) ∧
    ((getGate s.dev p.val).pend = some l ∧ l.start ≤ (s.dev.clk.tsc.toNat)) ∧
    (starts = (entAt l.ents (phaseOf l (s.dev.clk.tsc.toNat) / 4) == 0)) :=
  ⟨3, true, {}, wS { wDev with tc := { wDev.tc with gates := [(3, { pend := some {} })] } }, by decide +kernel⟩

/-- TimeAndTrafficControlComplete: a state and operands that meet what it asks of gateEntryChange. -/
theorem witness_gateEntryChange_runs : ∃ (p : Fin 64) (starts : Bool) (l : GateList) (s : State),
    (listens s) ∧
    (∀ n, (getGate s.dev p.val).pend = some n → (s.dev.clk.tsc.toNat) < n.start) ∧
    ((getGate s.dev p.val).run = some l ∧ starts = (entAt l.ents (phaseOf l (s.dev.clk.tsc.toNat) / 4) == 0)) :=
  ⟨3, true, {}, wS { wDev with tc := { wDev.tc with gates := [(3, { run := some {} })] } }, by and_intros <;> first | decide +kernel | (intro n h; cases h)⟩

/-- TimeAndTrafficControlComplete: a state and operands that meet what it asks of gclRead. -/
theorem witness_gclRead : ∃ (m : Master) (v : Wr) (s : State),
    (atOnce m s) ∧
    (listens s) ∧
    (isFab m = true ∧ bit (wrBits v).2 0 = true ∧ bit (wrBits v).1 16 = false) ∧
    (fld (mergeWr (regInForce s.dev 0x30010 0) 0x1FFFF v) 8 8 < 64 ∧ bit (mergeWr (regInForce s.dev 0x30010 0) 0x1FFFF v) 16 = false) :=
  ⟨.fabricManager, .full 0x300, wS wDev, by decide +kernel⟩

/-- TimeAndTrafficControlComplete: a state and operands that meet what it asks of gclRead. -/
theorem witness_gclRead_none : ∃ (m : Master) (v : Wr) (s : State),
    (atOnce m s) ∧
    (listens s) ∧
    (isFab m = true ∧ bit (wrBits v).2 0 = true ∧ bit (wrBits v).1 16 = false) ∧
    (64 ≤ fld (mergeWr (regInForce s.dev 0x30010 0) 0x1FFFF v) 8 8) :=
  ⟨.fabricManager, .full 0x4000, wS wDev, by decide +kernel⟩

/-- TimeAndTrafficControlComplete: a state and operands that meet what it asks of gclWrite. -/
theorem witness_gclWrite : ∃ (m : Master) (v : Wr) (s : State),
    (atOnce m s) ∧
    (listens s) ∧
    (isFab m = true ∧ bit (wrBits v).2 0 = true ∧ bit (wrBits v).1 16 = true) ∧
    (fld (mergeWr (regInForce s.dev 0x30010 0) 0x1FFFF v) 8 8 < 64 ∧ bit (mergeWr (regInForce s.dev 0x30010 0) 0x1FFFF v) 16 = true) :=
  ⟨.fabricManager, .full 0x10300, wS wDev, by decide +kernel⟩

/-- TimeAndTrafficControlComplete: a state and operands that meet what it asks of gclWrite. -/
theorem witness_gclWrite_none : ∃ (m : Master) (v : Wr) (s : State),
    (atOnce m s) ∧
    (listens s) ∧
    (isFab m = true ∧ bit (wrBits v).2 0 = true ∧ bit (wrBits v).1 16 = true) ∧
    (64 ≤ fld (mergeWr (regInForce s.dev 0x30010 0) 0x1FFFF v) 8 8) :=
  ⟨.fabricManager, .full 0x14000, wS wDev, by decide +kernel⟩

/-- PaceAndThermalComplete: a state and operands that meet what it asks of paceEventHoldoffEnd. -/
theorem witness_paceEventHoldoffEnd_throttle : ∃ (k : Holdoff) (n : Fin 2) (s : State),
    (listens s) ∧
    (k = .throttle n) :=
  ⟨.throttle 1, 1, wS wDev, by decide +kernel⟩

/-- PaceAndThermalComplete: a state and operands that meet what it asks of paceEventHoldoffEnd. -/
theorem witness_paceEventHoldoffEnd_throttleEnd : ∃ (k : Holdoff) (n : Fin 2) (s : State),
    (listens s) ∧
    (k = .throttleEnd n) :=
  ⟨.throttleEnd 1, 1, wS wDev, by decide +kernel⟩

/-- PaceAndThermalComplete: a state and operands that meet what it asks of paceEventHoldoffEnd. -/
theorem witness_paceEventHoldoffEnd_low : ∃ (k : Holdoff) (s : State),
    (listens s) ∧
    (k = .paceLow) :=
  ⟨.paceLow, wS wDev, by decide +kernel⟩

/-- PaceAndThermalComplete: a state and operands that meet what it asks of paceEventHoldoffEnd. -/
theorem witness_paceEventHoldoffEnd_restored : ∃ (k : Holdoff) (s : State),
    (listens s) ∧
    (k = .paceRestored) :=
  ⟨.paceRestored, wS wDev, by decide +kernel⟩

/-- PaceAndThermalComplete: a state and operands that meet what it asks of paceEventHoldoffEnd. -/
theorem witness_paceEventHoldoffEnd_lowOwed : ∃ (s : State),
    (listens s) ∧
    (s.dev.pace.below = true ∧ s.dev.pace.lastBelow = false) :=
  ⟨wS { wDev with pace := { wDev.pace with below := true } }, by decide +kernel⟩

/-- PaceAndThermalComplete: a state and operands that meet what it asks of paceEventHoldoffEnd. -/
theorem witness_paceEventHoldoffEnd_restoredOwed : ∃ (s : State),
    (listens s) ∧
    (s.dev.pace.below = false ∧ s.dev.pace.lastBelow = true) :=
  ⟨wS { wDev with pace := { wDev.pace with below := false, lastBelow := true } }, by decide +kernel⟩

/-- PaceAndThermalComplete: a state and operands that meet what it asks of paceEventHoldoffEnd. -/
theorem witness_paceEventHoldoffEnd_lowNone : ∃ (s : State),
    (listens s) ∧
    (s.dev.pace.below = s.dev.pace.lastBelow) :=
  ⟨wS wDev, by decide +kernel⟩

/-- PaceAndThermalComplete: a state and operands that meet what it asks of paceEventHoldoffEnd. -/
theorem witness_paceEventHoldoffEnd_throttleOwed : ∃ (n : Fin 2) (s : State),
    (listens s) ∧
    ((getHbm s.dev n).throttled = true ∧ ((getHbm s.dev n).lastOn = false ∨ (getHbm s.dev n).cap ≠ (getHbm s.dev n).lastCap)) :=
  ⟨1, wS { wDev with therm := { wDev.therm with hbm1 := { throttled := true } } }, by decide +kernel⟩

/-- PaceAndThermalComplete: a state and operands that meet what it asks of paceEventHoldoffEnd. -/
theorem witness_paceEventHoldoffEnd_throttleEndOwed : ∃ (n : Fin 2) (s : State),
    (listens s) ∧
    ((getHbm s.dev n).throttled = false ∧ (getHbm s.dev n).lastOn = true) :=
  ⟨1, wS { wDev with therm := { wDev.therm with hbm1 := { lastOn := true } } }, by decide +kernel⟩

/-- PaceAndThermalComplete: a state and operands that meet what it asks of governorEvaluation. -/
theorem witness_governorEvaluation_skipped : ∃ (s : State),
    (listens s) ∧
    (s.dev.pace.avsOut = true ∨ s.dev.pace.avsHold = true ∨ fencedBlk s.dev 0 = true) :=
  ⟨wS { wDev with pace := { wDev.pace with avsOut := true } }, by decide +kernel⟩

/-- PaceAndThermalComplete: a state and operands that meet what it asks of governorEvaluation. -/
theorem witness_governorEvaluation : ∃ (s : State),
    (listens s) ∧
    (s.dev.pace.avsOut = false ∧ s.dev.pace.avsHold = false ∧ fencedBlk s.dev 0 = false) :=
  ⟨wS wDev, by decide +kernel⟩

/-- PaceAndThermalComplete: a state and operands that meet what it asks of avsRequestComplete. -/
theorem witness_avsRequestComplete : ∃ (s : State),
    (listens s) :=
  ⟨wS wDev, by decide +kernel⟩

/-- PaceAndThermalComplete: a state and operands that meet what it asks of avsTimeout. -/
theorem witness_avsTimeout : ∃ (status : Word16) (s : State),
    (listens s) ∧
    (s.dev.pace.avsOut = true) :=
  ⟨0x80, wS { wDev with pace := { wDev.pace with avsOut := true } }, by decide +kernel⟩

/-- PaceAndThermalComplete: a state and operands that meet what it asks of avsFault. -/
theorem witness_avsFault : ∃ (status : Word16) (s : State),
    (listens s) :=
  ⟨0x80, wS wDev, by decide +kernel⟩

/-- PaceAndThermalComplete: a state and operands that meet what it asks of avsRetry. -/
theorem witness_avsRetry : ∃ (s : State),
    (listens s) ∧
    (s.dev.pace.avsHold = true) :=
  ⟨wS { wDev with pace := { wDev.pace with avsHold := true, vdd := 750 } }, by decide +kernel⟩

/-- PaceAndThermalComplete: a state and operands that meet what it asks of thermalSample. -/
theorem witness_thermalSample : ∃ (raw : List Int) (a : Int) (c : Int) (s : State),
    (listens s) :=
  ⟨[800], 120, 130, wS wDev, by decide +kernel⟩

/-- PaceAndThermalComplete: a state and operands that meet what it asks of thermalSample. -/
theorem witness_thermalSample_shut : ∃ (raw : List Int) (a : Int) (c : Int) (s : State),
    (listens s) ∧
    ((getHbm (allPorts.foldl (fun d p => portThermal p d) { s.dev with therm := { s.dev.therm with raw := raw, tjMax := tjOf s.dev raw } }) 0).shut = false ∧ 220 ≤ a) :=
  ⟨[800], 220, 130, wS wDev, by decide +kernel⟩

/-- PaceAndThermalComplete: a state and operands that meet what it asks of thermtrip. -/
theorem witness_thermtrip : ∃ (s : State),
    (listens s) :=
  ⟨wS wDev, by decide +kernel⟩

/-- PaceAndThermalComplete: a state and operands that meet what it asks of refclkFabLoss. -/
theorem witness_refclkFabLoss : ∃ (q : Fin 4) (s : State),
    (listens s) :=
  ⟨2, wS wDev, by decide +kernel⟩

/-- ServiceFramesComplete: a state and operands that meet what it asks of svcLinkAck. -/
theorem witness_svcLinkAck : ∃ (n : Fin 4) (f : Frame) (s : State),
    (listens s) ∧
    ((getSvc s.dev n.val).link = 2 ∧ f.ftype = 0 ∧ frameGood f = true) :=
  ⟨1, wFrame 0, wSvc {}, by decide +kernel⟩

/-- ServiceFramesComplete: a state and operands that meet what it asks of svcHello. -/
theorem witness_svcHello : ∃ (n : Fin 4) (f : Frame) (s : State),
    (frameReaches 1 n f s) :=
  ⟨1, wFrame 1, wSvc {}, by decide +kernel⟩

/-- ServiceFramesComplete: a state and operands that meet what it asks of speed. -/
theorem witness_speed : ∃ (n : Fin 4) (f : Frame) (v : Fin 3) (s : State),
    (frameReaches 2 n f s) :=
  ⟨1, wFrame 2, 1, wSvc {}, by decide +kernel⟩

/-- ServiceFramesComplete: a state and operands that meet what it asks of heartbeat. -/
theorem witness_heartbeat : ∃ (n : Fin 4) (f : Frame) (s : State),
    (frameReaches 7 n f s) :=
  ⟨1, wFrame 7, wSvc {}, by decide +kernel⟩

/-- ServiceFramesComplete: a state and operands that meet what it asks of discover. -/
theorem witness_discover : ∃ (n : Fin 4) (f : Frame) (s : State),
    (frameReaches 3 n f s) :=
  ⟨1, wFrame 3, wSvc {}, by decide +kernel⟩

/-- ServiceFramesComplete: a state and operands that meet what it asks of discoverReply. -/
theorem witness_discoverReply : ∃ (n : Fin 4) (f : Frame) (s : State),
    (frameReaches 4 n f s) :=
  ⟨1, wFrame 4, wSvc {}, by decide +kernel⟩

/-- ServiceFramesComplete: a state and operands that meet what it asks of response. -/
theorem witness_response : ∃ (n : Fin 4) (f : Frame) (s : State),
    (frameReaches 6 n f s) :=
  ⟨1, wFrame 6, wSvc {}, by decide +kernel⟩

/-- ServiceFramesComplete: a state and operands that meet what it asks of notify. -/
theorem witness_notify : ∃ (n : Fin 4) (f : Frame) (s : State),
    (frameReaches 8 n f s) :=
  ⟨1, wFrame 8, wSvc {}, by decide +kernel⟩

/-- ServiceFramesComplete: a state and operands that meet what it asks of command. -/
theorem witness_command : ∃ (n : Fin 4) (f : Frame) (s : State),
    (frameReaches 5 n f s) :=
  ⟨1, wFrame 5, wSvc {}, by decide +kernel⟩

/-- ServiceFramesComplete: a state and operands that meet what it asks of discover. -/
theorem witness_discover_held : ∃ (n : Fin 4) (f : Frame) (s : State),
    (frameReaches 3 n f s) ∧
    (f.up = true ∧ (frameStored n.val f s.dev).svc.role = 2 ∧ (frameStored n.val f s.dev).svc.rx.length < 64) :=
  ⟨1, wFrameUp 3 16, wSvcMgr, by decide +kernel⟩

/-- ServiceFramesComplete: a state and operands that meet what it asks of discover. -/
theorem witness_discover_full : ∃ (n : Fin 4) (f : Frame) (s : State),
    (frameReaches 3 n f s) ∧
    (f.up = true ∧ (frameStored n.val f s.dev).svc.role = 2 ∧ 64 ≤ (frameStored n.val f s.dev).svc.rx.length) :=
  ⟨1, wFrameUp 3 16, wS { wSvcMgr.dev with svc := { wSvcMgr.dev.svc with rx := List.replicate 64 {} } }, by decide +kernel⟩

/-- ServiceFramesComplete: a state and operands that meet what it asks of discover. -/
theorem witness_discover_up : ∃ (n : Fin 4) (f : Frame) (u : Nat) (s : State),
    (frameReaches 3 n f s) ∧
    (f.up = true ∧ (frameStored n.val f s.dev).svc.role ≠ 2 ∧ f.coord ≠ 0 ∧ (frameStored n.val f s.dev).svc.upstream = some u) ∧
    ((getSvc (frameStored n.val f s.dev) u).link = 2) :=
  ⟨1, wFrameUp 3 16, 1, wS { (wSvc {}).dev with svc := { (wSvc {}).dev.svc with upstream := some 1 } }, by decide +kernel⟩

/-- ServiceFramesComplete: a state and operands that meet what it asks of discover. -/
theorem witness_discover_here : ∃ (n : Fin 4) (f : Frame) (s : State),
    (frameReaches 3 n f s) ∧
    (f.up = false ∧ f.flood = false ∧ f.via = false ∧ f.pathLen = 0) :=
  ⟨1, wFrame 3, wSvc {}, by decide +kernel⟩

/-- ServiceFramesComplete: a state and operands that meet what it asks of discover. -/
theorem witness_discover_path : ∃ (n : Fin 4) (f : Frame) (s : State),
    (frameReaches 3 n f s) ∧
    (f.up = false ∧ f.flood = false ∧ f.via = false ∧ f.pathLen ≠ 0) ∧
    ((getSvc (frameStored n.val f s.dev) (f.path.toNat % 4)).link = 2) :=
  ⟨1, wFramePath 3, wSvc {}, by decide +kernel⟩

/-- ServiceFramesComplete: a state and operands that meet what it asks of discoverReply. -/
theorem witness_discoverReply_held : ∃ (n : Fin 4) (f : Frame) (s : State),
    (frameReaches 4 n f s) ∧
    (f.up = true ∧ (frameStored n.val f s.dev).svc.role = 2 ∧ (frameStored n.val f s.dev).svc.rx.length < 64) :=
  ⟨1, wFrameUp 4 16, wSvcMgr, by decide +kernel⟩

/-- ServiceFramesComplete: a state and operands that meet what it asks of discoverReply. -/
theorem witness_discoverReply_full : ∃ (n : Fin 4) (f : Frame) (s : State),
    (frameReaches 4 n f s) ∧
    (f.up = true ∧ (frameStored n.val f s.dev).svc.role = 2 ∧ 64 ≤ (frameStored n.val f s.dev).svc.rx.length) :=
  ⟨1, wFrameUp 4 16, wS { wSvcMgr.dev with svc := { wSvcMgr.dev.svc with rx := List.replicate 64 {} } }, by decide +kernel⟩

/-- ServiceFramesComplete: a state and operands that meet what it asks of discoverReply. -/
theorem witness_discoverReply_up : ∃ (n : Fin 4) (f : Frame) (u : Nat) (s : State),
    (frameReaches 4 n f s) ∧
    (f.up = true ∧ (frameStored n.val f s.dev).svc.role ≠ 2 ∧ f.coord ≠ 0 ∧ (frameStored n.val f s.dev).svc.upstream = some u) ∧
    ((getSvc (frameStored n.val f s.dev) u).link = 2) :=
  ⟨1, wFrameUp 4 16, 1, wS { (wSvc {}).dev with svc := { (wSvc {}).dev.svc with upstream := some 1 } }, by decide +kernel⟩

/-- ServiceFramesComplete: a state and operands that meet what it asks of discoverReply. -/
theorem witness_discoverReply_here : ∃ (n : Fin 4) (f : Frame) (s : State),
    (frameReaches 4 n f s) ∧
    (f.up = false ∧ f.flood = false ∧ f.via = false ∧ f.pathLen = 0) :=
  ⟨1, wFrame 4, wSvc {}, by decide +kernel⟩

/-- ServiceFramesComplete: a state and operands that meet what it asks of discoverReply. -/
theorem witness_discoverReply_path : ∃ (n : Fin 4) (f : Frame) (s : State),
    (frameReaches 4 n f s) ∧
    (f.up = false ∧ f.flood = false ∧ f.via = false ∧ f.pathLen ≠ 0) ∧
    ((getSvc (frameStored n.val f s.dev) (f.path.toNat % 4)).link = 2) :=
  ⟨1, wFramePath 4, wSvc {}, by decide +kernel⟩

/-- ServiceFramesComplete: a state and operands that meet what it asks of response. -/
theorem witness_response_held : ∃ (n : Fin 4) (f : Frame) (s : State),
    (frameReaches 6 n f s) ∧
    (f.up = true ∧ (frameStored n.val f s.dev).svc.role = 2 ∧ (frameStored n.val f s.dev).svc.rx.length < 64) :=
  ⟨1, wFrameUp 6 16, wSvcMgr, by decide +kernel⟩

/-- ServiceFramesComplete: a state and operands that meet what it asks of response. -/
theorem witness_response_full : ∃ (n : Fin 4) (f : Frame) (s : State),
    (frameReaches 6 n f s) ∧
    (f.up = true ∧ (frameStored n.val f s.dev).svc.role = 2 ∧ 64 ≤ (frameStored n.val f s.dev).svc.rx.length) :=
  ⟨1, wFrameUp 6 16, wS { wSvcMgr.dev with svc := { wSvcMgr.dev.svc with rx := List.replicate 64 {} } }, by decide +kernel⟩

/-- ServiceFramesComplete: a state and operands that meet what it asks of response. -/
theorem witness_response_up : ∃ (n : Fin 4) (f : Frame) (u : Nat) (s : State),
    (frameReaches 6 n f s) ∧
    (f.up = true ∧ (frameStored n.val f s.dev).svc.role ≠ 2 ∧ f.coord ≠ 0 ∧ (frameStored n.val f s.dev).svc.upstream = some u) ∧
    ((getSvc (frameStored n.val f s.dev) u).link = 2) :=
  ⟨1, wFrameUp 6 16, 1, wS { (wSvc {}).dev with svc := { (wSvc {}).dev.svc with upstream := some 1 } }, by decide +kernel⟩

/-- ServiceFramesComplete: a state and operands that meet what it asks of response. -/
theorem witness_response_here : ∃ (n : Fin 4) (f : Frame) (s : State),
    (frameReaches 6 n f s) ∧
    (f.up = false ∧ f.flood = false ∧ f.via = false ∧ f.pathLen = 0) :=
  ⟨1, wFrame 6, wSvc {}, by decide +kernel⟩

/-- ServiceFramesComplete: a state and operands that meet what it asks of response. -/
theorem witness_response_path : ∃ (n : Fin 4) (f : Frame) (s : State),
    (frameReaches 6 n f s) ∧
    (f.up = false ∧ f.flood = false ∧ f.via = false ∧ f.pathLen ≠ 0) ∧
    ((getSvc (frameStored n.val f s.dev) (f.path.toNat % 4)).link = 2) :=
  ⟨1, wFramePath 6, wSvc {}, by decide +kernel⟩

/-- ServiceFramesComplete: a state and operands that meet what it asks of notify. -/
theorem witness_notify_held : ∃ (n : Fin 4) (f : Frame) (s : State),
    (frameReaches 8 n f s) ∧
    (f.up = true ∧ (frameStored n.val f s.dev).svc.role = 2 ∧ (frameStored n.val f s.dev).svc.rx.length < 64) :=
  ⟨1, wFrameUp 8 16, wSvcMgr, by decide +kernel⟩

/-- ServiceFramesComplete: a state and operands that meet what it asks of notify. -/
theorem witness_notify_full : ∃ (n : Fin 4) (f : Frame) (s : State),
    (frameReaches 8 n f s) ∧
    (f.up = true ∧ (frameStored n.val f s.dev).svc.role = 2 ∧ 64 ≤ (frameStored n.val f s.dev).svc.rx.length) :=
  ⟨1, wFrameUp 8 16, wS { wSvcMgr.dev with svc := { wSvcMgr.dev.svc with rx := List.replicate 64 {} } }, by decide +kernel⟩

/-- ServiceFramesComplete: a state and operands that meet what it asks of notify. -/
theorem witness_notify_up : ∃ (n : Fin 4) (f : Frame) (u : Nat) (s : State),
    (frameReaches 8 n f s) ∧
    (f.up = true ∧ (frameStored n.val f s.dev).svc.role ≠ 2 ∧ f.coord ≠ 0 ∧ (frameStored n.val f s.dev).svc.upstream = some u) ∧
    ((getSvc (frameStored n.val f s.dev) u).link = 2) :=
  ⟨1, wFrameUp 8 16, 1, wS { (wSvc {}).dev with svc := { (wSvc {}).dev.svc with upstream := some 1 } }, by decide +kernel⟩

/-- ServiceFramesComplete: a state and operands that meet what it asks of notify. -/
theorem witness_notify_here : ∃ (n : Fin 4) (f : Frame) (s : State),
    (frameReaches 8 n f s) ∧
    (f.up = false ∧ f.flood = false ∧ f.via = false ∧ f.pathLen = 0) :=
  ⟨1, wFrame 8, wSvc {}, by decide +kernel⟩

/-- ServiceFramesComplete: a state and operands that meet what it asks of notify. -/
theorem witness_notify_path : ∃ (n : Fin 4) (f : Frame) (s : State),
    (frameReaches 8 n f s) ∧
    (f.up = false ∧ f.flood = false ∧ f.via = false ∧ f.pathLen ≠ 0) ∧
    ((getSvc (frameStored n.val f s.dev) (f.path.toNat % 4)).link = 2) :=
  ⟨1, wFramePath 8, wSvc {}, by decide +kernel⟩

/-- ServiceFramesComplete: a state and operands that meet what it asks of command. -/
theorem witness_command_here : ∃ (n : Fin 4) (f : Frame) (s : State),
    (frameReaches 5 n f s) ∧
    (f.up = false ∧ f.flood = false ∧ f.via = false ∧ f.pathLen = 0 ∧ (frameStored n.val f s.dev).boot.phase = .running) :=
  ⟨1, wFrame 5, wSvc {}, by decide +kernel⟩

/-- ServiceLinksComplete: a state and operands that meet what it asks of svcHelloTimer. -/
theorem witness_svcHelloTimer : ∃ (n : Fin 4) (s : State),
    (listens s) :=
  ⟨1, wSvc {}, by decide +kernel⟩

/-- ServiceLinksComplete: a state and operands that meet what it asks of svcLockGained. -/
theorem witness_svcLockGained : ∃ (n : Fin 4) (s : State),
    (listens s) ∧
    (svcEnable s.dev n.val = true ∧ (getSvc s.dev n.val).link ≠ 2) :=
  ⟨1, wS wDev, by decide +kernel⟩

/-- ServiceLinksComplete: a state and operands that meet what it asks of svcLockLost. -/
theorem witness_svcLockLost : ∃ (n : Fin 4) (errs : List Nat) (s : State),
    (listens s) ∧
    ((getSvc s.dev n.val).link = 2 ∧ lockErrors errs = true) :=
  ⟨1, [1, 2, 3, 4], wSvc {}, by decide +kernel⟩

/-- ServiceLinksComplete: a state and operands that meet what it asks of svcLockLost. -/
theorem witness_svcLockLost_counted : ∃ (n : Fin 4) (errs : List Nat) (s : State),
    (listens s) ∧
    ((getSvc s.dev n.val).link = 2 ∧ lockErrors errs = false) :=
  ⟨1, [1, 90], wSvc {}, by decide +kernel⟩

/-- ServiceLinksComplete: a state and operands that meet what it asks of svcAckTimeout. -/
theorem witness_svcAckTimeout_down : ∃ (n : Fin 4) (s : State),
    (listens s) ∧
    ((getSvc s.dev n.val).link = 2 ∧ (getSvc s.dev n.val).unacked ≠ [] ∧ svcRetryLimit s.dev n.val ≤ (getSvc s.dev n.val).rounds) :=
  ⟨1, wSvc { unacked := [{}], rounds := 500 }, by decide +kernel⟩

/-- ServiceLinksComplete: a state and operands that meet what it asks of svcAckTimeout. -/
theorem witness_svcAckTimeout_again : ∃ (n : Fin 4) (s : State),
    (listens s) ∧
    ((getSvc s.dev n.val).link = 2 ∧ (getSvc s.dev n.val).unacked ≠ [] ∧ (getSvc s.dev n.val).rounds < svcRetryLimit s.dev n.val) :=
  ⟨1, wSvc { unacked := [{}] }, by decide +kernel⟩

/-- ServiceLinksComplete: a state and operands that meet what it asks of svcLinkAckTimer. -/
theorem witness_svcLinkAckTimer : ∃ (n : Fin 4) (s : State),
    (listens s) ∧
    ((getSvc s.dev n.val).link = 2 ∧ (getSvc s.dev n.val).ackDue = true) :=
  ⟨1, wSvc { ackDue := true }, by decide +kernel⟩

/-- ServiceLinksComplete: a state and operands that meet what it asks of speedSwitch. -/
theorem witness_speedSwitch : ∃ (n : Fin 4) (v : Nat) (s : State),
    (listens s) ∧
    ((getSvc s.dev n.val).target = some v ∧ (getSvc s.dev n.val).link = 2) ∧
    ((getSvc s.dev n.val).unacked.any (fun f => f.ftype = 0x2) = false ∧ (getSvc s.dev n.val).waitQ.any (fun w => w.1.ftype = 0x2) = false) :=
  ⟨1, 1, wSvc { target := some 1 }, by decide +kernel⟩

/-- ServiceLinksComplete: a state and operands that meet what it asks of speedLockTimeout. -/
theorem witness_speedLockTimeout : ∃ (n : Fin 4) (v : Nat) (s : State),
    (listens s) ∧
    ((getSvc s.dev n.val).target = some v ∧ (getSvc s.dev n.val).switching = true) :=
  ⟨1, 1, wSvc { target := some 1, switching := true }, by decide +kernel⟩

/-- ServiceLinksComplete: a state and operands that meet what it asks of svcRestart. -/
theorem witness_svcRestart : ∃ (m : Master) (n : Fin 4) (v : Wr) (s : State),
    (atOnce m s) ∧
    (listens s) ∧
    (isFab m = true ∧ bit (wrBits v).1 59 = true ∧ bit (wrBits v).2 59 = true) :=
  ⟨.fabricManager, 1, .full 0x800000000000000, wSvc {}, by decide +kernel⟩

/-- ServiceLinksComplete: a state and operands that meet what it asks of svcRtRead. -/
theorem witness_svcRtRead : ∃ (m : Master) (v : Wr) (s : State),
    (atOnce m s) ∧
    (listens s) ∧
    (isFab m = true ∧ bit (wrBits v).2 0 = true ∧ bit (mergeWr (regInForce s.dev 0x60128 0) 0x4000000000000FFF v) 62 = false) :=
  ⟨.fabricManager, .full 0, wS wDev, by decide +kernel⟩

/-- ServiceLinksComplete: a state and operands that meet what it asks of svcRtWrite. -/
theorem witness_svcRtWrite : ∃ (m : Master) (v : Wr) (s : State),
    (atOnce m s) ∧
    (listens s) ∧
    (isFab m = true ∧ bit (wrBits v).2 0 = true ∧ bit (mergeWr (regInForce s.dev 0x60128 0) 0x4000000000000FFF v) 62 = true) :=
  ⟨.fabricManager, .full 0x4000000000000000, wS wDev, by decide +kernel⟩

/-- ServiceLinksComplete: a state and operands that meet what it asks of upstreamTimeout. -/
theorem witness_upstreamTimeout : ∃ (s : State),
    (listens s) :=
  ⟨wSvc {}, by decide +kernel⟩

/-- ServiceLinksComplete: a state and operands that meet what it asks of heartbeatTimer. -/
theorem witness_heartbeatTimer : ∃ (s : State),
    (listens s) ∧
    (s.dev.svc.role = 2) :=
  ⟨wS { wDev with svc := { wDev.svc with role := 2 } }, by decide +kernel⟩

/-- ServiceLinksComplete: a state and operands that meet what it asks of managerListenEnd. -/
theorem witness_managerListenEnd : ∃ (s : State),
    (listens s) ∧
    (s.dev.svc.listening = true) :=
  ⟨wS { wDev with svc := { wDev.svc with listening := true } }, by decide +kernel⟩

/-- ServiceLinksComplete: a state and operands that meet what it asks of takeover. -/
theorem witness_takeover : ∃ (s : State),
    (listens s) ∧
    (s.dev.svc.role = 1) :=
  ⟨wS { wDev with svc := { wDev.svc with role := 1 } }, by decide +kernel⟩

/-- ServiceLinksComplete: a state and operands that meet what it asks of leaseTimeout. -/
theorem witness_leaseTimeout : ∃ (s : State),
    (listens s) :=
  ⟨wS wDev, by decide +kernel⟩

/-- ServiceLinksComplete: a state and operands that meet what it asks of modeCtlReq. -/
theorem witness_modeCtlReq : ∃ (m : Master) (v : Wr) (s : State),
    (atOnce m s) ∧
    (listens s) ∧
    (isFab m = true ∧ bit ((wrBits v).1 &&& (wrBits v).2) 3 = true) :=
  ⟨.fabricManager, .full 0xA, wS wDev, by decide +kernel⟩

/-- ServiceLinksComplete: a state and operands that meet what it asks of modeCtlDeviceReset. -/
theorem witness_modeCtlDeviceReset : ∃ (m : Master) (v : Wr) (s : State),
    (atOnce m s) ∧
    (listens s) ∧
    (isFab m = true ∧ bit ((wrBits v).1 &&& (wrBits v).2) 8 = true) :=
  ⟨.fabricManager, .full 0x100, wS wDev, by decide +kernel⟩

/-- MeterEventsComplete: a state and operands that meet what it asks of tallyTapDelivery. -/
theorem witness_tallyTapDelivery : ∃ (tap : Fin 8) (s : State),
    (s.dev.fuse.meter = true ∧ s.dev.isl.powered = true) :=
  ⟨1, wIsl {}, by decide +kernel⟩

/-- MeterEventsComplete: a state and operands that meet what it asks of tapSilence. -/
theorem witness_tapSilence : ∃ (tap : Fin 8) (s : State),
    (s.dev.fuse.meter = true ∧ s.dev.isl.powered = true) ∧
    (s.dev.isl.silent.contains tap.val = false) ∧
    (asleep (updIsl (fun i => audit 11 (BitVec.ofNat 64 tap.val) 0 { i with silent := i.silent ++ [tap.val], opened := i.opened.map fun b => { b with gapTaps := b.gapTaps ++ [tap.val] } }) s.dev) = false) :=
  ⟨1, wIsl {}, by decide +kernel⟩

/-- MeterEventsComplete: a state and operands that meet what it asks of meterSample. -/
theorem witness_meterSample : ∃ (s : State),
    (s.dev.fuse.meter = true ∧ s.dev.isl.powered = true) ∧
    (s.dev.isl.timeUnset = false) :=
  ⟨wIsl { timeUnset := false }, by decide +kernel⟩

/-- MeterEventsComplete: a state and operands that meet what it asks of minuteBoundary. -/
theorem witness_minuteBoundary : ∃ (s : State),
    (s.dev.fuse.meter = true ∧ s.dev.isl.powered = true) ∧
    (s.dev.isl.timeUnset = false) :=
  ⟨wIsl { timeUnset := false, opened := some {} }, by decide +kernel⟩

/-- MeterEventsComplete: a state and operands that meet what it asks of blockSigned. -/
theorem witness_blockSigned : ∃ (b : MBlock) (s : State),
    (s.dev.fuse.meter = true ∧ s.dev.isl.powered = true) ∧
    (s.dev.isl.blocks.find? (fun b => !b.signed) = some b) :=
  ⟨{ wBlk with signed := false }, wIsl { blocks := [{ wBlk with signed := false }] }, by decide +kernel⟩

/-- MeterEventsComplete: a state and operands that meet what it asks of flashWriteDone. -/
theorem witness_flashWriteDone_ok : ∃ (ok : Bool) (b : MBlock) (s : State),
    (s.dev.fuse.meter = true ∧ s.dev.isl.powered = true) ∧
    (s.dev.isl.blocks.find? (fun b => b.signed && !b.inFlash) = some b ∧ ok = true) :=
  ⟨true, wBlk, wIsl { blocks := [wBlk] }, by decide +kernel⟩

/-- MeterEventsComplete: a state and operands that meet what it asks of flashWriteDone. -/
theorem witness_flashWriteDone_failed : ∃ (ok : Bool) (b : MBlock) (s : State),
    (s.dev.fuse.meter = true ∧ s.dev.isl.powered = true) ∧
    (s.dev.isl.blocks.find? (fun b => b.signed && !b.inFlash) = some b ∧ ok = false) :=
  ⟨false, wBlk, wIsl { blocks := [wBlk] }, by decide +kernel⟩

/-- MeterEventsComplete: a state and operands that meet what it asks of sealSample. -/
theorem witness_sealSample : ∃ (opened : Bool) (s : State),
    (s.dev.fuse.meter = true ∧ s.dev.isl.powered = true) ∧
    (s.dev.isl.sealOpen ≠ opened) :=
  ⟨true, wIsl {}, by decide +kernel⟩

/-- MeterEventsComplete: a state and operands that meet what it asks of islandPowerUp. -/
theorem witness_islandPowerUp : ∃ (v : Bool) (s : State),
    (s.dev.fuse.meter = true ∧ s.dev.isl.powered = false) :=
  ⟨true, wS { wDev with fuse := { wDev.fuse with meter := true }, isl := { powered := false } }, by decide +kernel⟩

/-- MeterEventsComplete: a state and operands that meet what it asks of vddMtrLoss. -/
theorem witness_vddMtrLoss : ∃ (s : State),
    (s.dev.fuse.meter = true) :=
  ⟨wIsl {}, by decide +kernel⟩

/-- MeterEventsComplete: a state and operands that meet what it asks of meterXoLoss. -/
theorem witness_meterXoLoss : ∃ (s : State),
    (s.dev.fuse.meter = true ∧ s.dev.isl.powered = true) :=
  ⟨wIsl { opened := some {} }, by decide +kernel⟩

/-- MeterEventsComplete: a state and operands that meet what it asks of mtrFwVerifyDone. -/
theorem witness_mtrFwVerifyDone : ∃ (g : List Byte) (v : Word32) (s : State),
    (s.dev.fuse.meter = true ∧ s.dev.isl.powered = true) ∧
    (s.dev.isl.fwStatus = 2) :=
  ⟨[], 9, wIsl { fwStatus := 2 }, by decide +kernel⟩

/-- MeterWritesComplete: a state and operands that meet what it asks of mtrTimeSet. -/
theorem witness_mtrTimeSet : ∃ (m : Master) (v : Wr) (s : State),
    (atOnce m s) ∧
    (s.dev.fuse.meter = true ∧ s.dev.isl.powered = true) ∧
    (mayWrite s.dev m = true) :=
  ⟨.fabricManager, .full 0x1000, wIsl {}, by decide +kernel⟩

/-- MeterWritesComplete: a state and operands that meet what it asks of mtrTimeAdj. -/
theorem witness_mtrTimeAdj : ∃ (m : Master) (v : Wr) (s : State),
    (atOnce m s) ∧
    (s.dev.fuse.meter = true ∧ s.dev.isl.powered = true) ∧
    (mayWrite s.dev m = true) :=
  ⟨.fabricManager, .full 100, wIsl { timeUnset := false }, by decide +kernel⟩

/-- MeterWritesComplete: a state and operands that meet what it asks of mtrAck. -/
theorem witness_mtrAck : ∃ (m : Master) (v : Wr) (s : State),
    (atOnce m s) ∧
    (s.dev.fuse.meter = true ∧ s.dev.isl.powered = true) ∧
    (mayWrite s.dev m = true) :=
  ⟨.fabricManager, .full 0, wIsl {}, by decide +kernel⟩

/-- MeterWritesComplete: a state and operands that meet what it asks of mtrRdSel. -/
theorem witness_mtrRdSel : ∃ (k : Fin 2) (m : Master) (v : Wr) (s : State),
    (atOnce m s) ∧
    (s.dev.fuse.meter = true ∧ s.dev.isl.powered = true) ∧
    (mayWrite s.dev m = true) :=
  ⟨1, .fabricManager, .full 3, wIsl {}, by decide +kernel⟩

/-- MeterWritesComplete: a state and operands that meet what it asks of trimSet. -/
theorem witness_trimSet : ∃ (m : Master) (v : Wr) (s : State),
    (atOnce m s) ∧
    (s.dev.fuse.meter = true ∧ s.dev.isl.powered = true) ∧
    (mayWrite s.dev m = true ∧ s.dev.isl.sealOpen = true) :=
  ⟨.fabricManager, .full 5, wIsl { sealOpen := true, fwStatus := 1 }, by decide +kernel⟩

/-- MeterWritesComplete: a state and operands that meet what it asks of operatorSet. -/
theorem witness_operatorSet : ∃ (m : Master) (v : Wr) (s : State),
    (atOnce m s) ∧
    (s.dev.fuse.meter = true ∧ s.dev.isl.powered = true) ∧
    (mayWrite s.dev m = true ∧ s.dev.isl.sealOpen = true) :=
  ⟨.fabricManager, .full 77, wIsl { sealOpen := true, fwStatus := 1 }, by decide +kernel⟩

/-- MeterWritesComplete: a state and operands that meet what it asks of mtrFwData. -/
theorem witness_mtrFwData : ∃ (m : Master) (v : Wr) (s : State),
    (atOnce m s) ∧
    (s.dev.fuse.meter = true ∧ s.dev.isl.powered = true) ∧
    (mayWrite s.dev m = true ∧ s.dev.isl.sealOpen = true) :=
  ⟨.fabricManager, .full 1, wIsl { sealOpen := true, fwStatus := 1 }, by decide +kernel⟩

/-- MeterWritesComplete: a state and operands that meet what it asks of mtrFwBegin. -/
theorem witness_mtrFwBegin : ∃ (m : Master) (v : Wr) (s : State),
    (atOnce m s) ∧
    (s.dev.fuse.meter = true ∧ s.dev.isl.powered = true) ∧
    (mayWrite s.dev m = true ∧ s.dev.isl.sealOpen = true) ∧
    (bit (wrBits v).2 60 = true ∧ fld (wrBits v).1 60 4 = 1) :=
  ⟨.fabricManager, .full 0x1000000000000000, wIsl { sealOpen := true }, by decide +kernel⟩

/-- MeterWritesComplete: a state and operands that meet what it asks of mtrFwActivate. -/
theorem witness_mtrFwActivate : ∃ (m : Master) (v : Wr) (s : State),
    (atOnce m s) ∧
    (s.dev.fuse.meter = true ∧ s.dev.isl.powered = true) ∧
    (mayWrite s.dev m = true ∧ s.dev.isl.sealOpen = true) ∧
    (bit (wrBits v).2 60 = true ∧ fld (wrBits v).1 60 4 = 2) :=
  ⟨.fabricManager, .full 0x2000000000000000, wIsl { sealOpen := true }, by decide +kernel⟩

/-- MeterWritesComplete: a state and operands that meet what it asks of mtrWindowRead. -/
theorem witness_mtrWindowRead_none : ∃ (k : Fin 2) (m : Master) (n : Fin 512) (lo : Bool) (hi : Bool) (s : State),
    (atOnce m s) ∧
    (listens s) ∧
    (mayWrite s.dev m = true ∧ s.dev.fuse.meter = false) :=
  ⟨0, .fabricManager, 3, true, true, wS wDev, by decide +kernel⟩

/-- MeterWritesComplete: a state and operands that meet what it asks of mtrWindowRead. -/
theorem witness_mtrWindowRead_early : ∃ (k : Fin 2) (m : Master) (n : Fin 512) (lo : Bool) (hi : Bool) (s : State),
    (atOnce m s) ∧
    (listens s) ∧
    (mayWrite s.dev m = true ∧ s.dev.fuse.meter = true ∧ (s.dev.isl.powered = false ∨ (getReader s.dev.isl k).ready = false)) :=
  ⟨0, .fabricManager, 3, true, true, wIsl {}, by decide +kernel⟩

/-- MeterWritesComplete: a state and operands that meet what it asks of mtrWindowRead. -/
theorem witness_mtrWindowRead_ready : ∃ (k : Fin 2) (m : Master) (n : Fin 512) (lo : Bool) (hi : Bool) (s : State),
    (atOnce m s) ∧
    (listens s) ∧
    (mayWrite s.dev m = true ∧ s.dev.fuse.meter = true ∧ s.dev.isl.powered = true ∧ (getReader s.dev.isl k).ready = true) :=
  ⟨0, .fabricManager, 3, true, true, wIsl { rd0 := { ready := true } }, by decide +kernel⟩

/-- ResetAndFirmwareComplete: a state and operands that meet what it asks of deviceReset. -/
theorem witness_deviceReset : ∃ (r : Bool) (s : State),
    (listens s) :=
  ⟨false, wS wDev, by decide +kernel⟩

/-- ResetAndFirmwareComplete: a state and operands that meet what it asks of internalResetRelease. -/
theorem witness_internalResetRelease : ∃ (role : BitVec 2) (bs : BitVec 2) (rec_ : Bool) (s : State),
    (asleep s.dev = true) :=
  ⟨1, 0, false, wS { wDev with boot := { wDev.boot with phase := .held } }, by decide +kernel⟩

/-- ResetAndFirmwareComplete: a state and operands that meet what it asks of slotVerifyDone. -/
theorem witness_slotVerifyDone : ∃ (slot : Bool) (more : List Bool) (s : State),
    (listens s) ∧
    (s.dev.boot.phase = .verify slot more) ∧
    (verifyImage s.dev (slotBytes s.dev slot) = 0 ∨ more ≠ []) :=
  ⟨false, [true], wS State.reset.dev, by decide +kernel⟩

/-- ResetAndFirmwareComplete: a state and operands that meet what it asks of slotVerifyDone. -/
theorem witness_slotVerifyDone_none : ∃ (slot : Bool) (s : State),
    (s.dev.boot.phase = .verify slot []) ∧
    (verifyImage s.dev (slotBytes s.dev slot) ≠ 0) :=
  ⟨true, wS { wDev with boot := { wDev.boot with phase := .verify true [] } }, by decide +kernel⟩

/-- ResetAndFirmwareComplete: a state and operands that meet what it asks of bootComplete. -/
theorem witness_bootComplete : ∃ (s : State),
    (listens s) ∧
    (s.dev.boot.phase = .starting) :=
  ⟨wS { wDev with boot := { wDev.boot with phase := .starting } }, by decide +kernel⟩

/-- ResetAndFirmwareComplete: a state and operands that meet what it asks of quillWatchdog. -/
theorem witness_quillWatchdog_starting : ∃ (s : State),
    (s.dev.boot.phase = .starting) :=
  ⟨wS { wDev with boot := { wDev.boot with phase := .starting } }, by decide +kernel⟩

/-- ResetAndFirmwareComplete: a state and operands that meet what it asks of quillWatchdog. -/
theorem witness_quillWatchdog_running : ∃ (s : State),
    (listens s) ∧
    (s.dev.boot.phase ≠ .starting) ∧
    ((getRec s.dev srcQuill).masked = false) :=
  ⟨wS wDev, by decide +kernel⟩

/-- ResetAndFirmwareComplete: a state and operands that meet what it asks of image. -/
theorem witness_image : ∃ (n : Fin 4) (f : Frame) (s : State),
    (frameReaches 9 n f s) :=
  ⟨1, wFrame 9, wSvc {}, by decide +kernel⟩

/-- ResetAndFirmwareComplete: a state and operands that meet what it asks of fwActivate. -/
theorem witness_fwActivate : ∃ (m : Master) (v : Wr) (s : State),
    (atOnce m s) ∧
    (listens s) ∧
    (isFab m = true ∧ bit (wrBits v).2 60 = true ∧ fld (wrBits v).1 60 4 = 1) :=
  ⟨.fabricManager, .full 0x1000000000000000, wS wDev, by decide +kernel⟩

/-- ResetAndFirmwareComplete: a state and operands that meet what it asks of fwCommit. -/
theorem witness_fwCommit : ∃ (m : Master) (v : Wr) (s : State),
    (atOnce m s) ∧
    (listens s) ∧
    (isFab m = true ∧ bit (wrBits v).2 60 = true ∧ fld (wrBits v).1 60 4 = 2) :=
  ⟨.fabricManager, .full 0x2000000000000000, wS wDev, by decide +kernel⟩

/-- ResetAndFirmwareComplete: a state and operands that meet what it asks of fwActivateDone. -/
theorem witness_fwActivateDone : ∃ (s : State),
    (listens s) ∧
    (s.dev.boot.actBusy = true) :=
  ⟨wS { wDev with boot := { wDev.boot with actBusy := true } }, by decide +kernel⟩

/-- SpdmAndPinInterfacesComplete: a state and operands that meet what it asks of getVersion. -/
theorem witness_getVersion : ∃ (p : Fin 4) (s : State),
    (listens s) ∧
    ((getHp s.dev p).linkUp = true) :=
  ⟨0, wS wDev, by decide +kernel⟩

/-- SpdmAndPinInterfacesComplete: a state and operands that meet what it asks of getCapabilities. -/
theorem witness_getCapabilities : ∃ (p : Fin 4) (s : State),
    (listens s) ∧
    ((getHp s.dev p).linkUp = true) :=
  ⟨0, wS wDev, by decide +kernel⟩

/-- SpdmAndPinInterfacesComplete: a state and operands that meet what it asks of negotiateAlgorithms. -/
theorem witness_negotiateAlgorithms : ∃ (p : Fin 4) (s : State),
    (listens s) ∧
    ((getHp s.dev p).linkUp = true) :=
  ⟨0, wS wDev, by decide +kernel⟩

/-- SpdmAndPinInterfacesComplete: a state and operands that meet what it asks of getDigests. -/
theorem witness_getDigests : ∃ (p : Fin 4) (s : State),
    (listens s) ∧
    ((getHp s.dev p).linkUp = true) :=
  ⟨0, wS wDev, by decide +kernel⟩

/-- SpdmAndPinInterfacesComplete: a state and operands that meet what it asks of getCertificate. -/
theorem witness_getCertificate : ∃ (p : Fin 4) (slot : Fin 8) (off : Word16) (len : Word16) (s : State),
    (listens s) ∧
    ((getHp s.dev p).linkUp = true) :=
  ⟨0, 0, 0, 64, wS wDev, by decide +kernel⟩

/-- SpdmAndPinInterfacesComplete: a state and operands that meet what it asks of challenge. -/
theorem witness_challenge : ∃ (p : Fin 4) (req : List Byte) (s : State),
    (listens s) ∧
    ((getHp s.dev p).linkUp = true) ∧
    (imgField req 2 1 = 0) :=
  ⟨0, [0x12, 0x83, 0, 0xFF], wS wDev, by decide +kernel⟩

/-- SpdmAndPinInterfacesComplete: a state and operands that meet what it asks of getMeasurements. -/
theorem witness_getMeasurements : ∃ (p : Fin 4) (req : List Byte) (s : State),
    (listens s) ∧
    ((getHp s.dev p).linkUp = true) ∧
    ((imgField req 3 1) = 0 ∨ (s.dev.boot.meas.filter fun m => (imgField req 3 1) = 0xFF || m.1 = (imgField req 3 1)) ≠ []) :=
  ⟨0, [0x12, 0xE0, 1, 0], wS wDev, by decide +kernel⟩

/-- SpdmAndPinInterfacesComplete: a state and operands that meet what it asks of spdmUnsupportedRequest. -/
theorem witness_spdmUnsupportedRequest : ∃ (p : Fin 4) (s : State),
    (listens s) ∧
    ((getHp s.dev p).linkUp = true) :=
  ⟨0, wS wDev, by decide +kernel⟩

/-- SpdmAndPinInterfacesComplete: a state and operands that meet what it asks of smbReadTjMax. -/
theorem witness_smbReadTjMax : ∃ (s : State),
    (listens s) :=
  ⟨wS wDev, by decide +kernel⟩

/-- SpdmAndPinInterfacesComplete: a state and operands that meet what it asks of smbReadHbm0Temp. -/
theorem witness_smbReadHbm0Temp : ∃ (s : State),
    (listens s) :=
  ⟨wS wDev, by decide +kernel⟩

/-- SpdmAndPinInterfacesComplete: a state and operands that meet what it asks of smbReadHbm1Temp. -/
theorem witness_smbReadHbm1Temp : ∃ (s : State),
    (listens s) :=
  ⟨wS wDev, by decide +kernel⟩

/-- SpdmAndPinInterfacesComplete: a state and operands that meet what it asks of smbReadStatus. -/
theorem witness_smbReadStatus : ∃ (s : State),
    (listens s) :=
  ⟨wS wDev, by decide +kernel⟩

/-- SpdmAndPinInterfacesComplete: a state and operands that meet what it asks of smbReadVddReq. -/
theorem witness_smbReadVddReq : ∃ (s : State),
    (listens s) :=
  ⟨wS wDev, by decide +kernel⟩

/-- SpdmAndPinInterfacesComplete: a state and operands that meet what it asks of smbReadPace. -/
theorem witness_smbReadPace : ∃ (s : State),
    (listens s) :=
  ⟨wS wDev, by decide +kernel⟩

/-- SpdmAndPinInterfacesComplete: a state and operands that meet what it asks of smbReadUnitId. -/
theorem witness_smbReadUnitId : ∃ (s : State),
    (listens s) :=
  ⟨wS wDev, by decide +kernel⟩

/-- SpdmAndPinInterfacesComplete: a state and operands that meet what it asks of smbWrite. -/
theorem witness_smbWrite : ∃ (s : State),
    (listens s) :=
  ⟨wS wDev, by decide +kernel⟩

/-- SpdmAndPinInterfacesComplete: a state and operands that meet what it asks of paceMeasurement. -/
theorem witness_paceMeasurement : ∃ (counts : List Nat) (slots : List Int) (s : State),
    (listens s) :=
  ⟨[2048, 2000], [], wS wDev, by decide +kernel⟩

/-- MonitorCommandsComplete: a state and operands that meet what it asks of pmuSelWrite. -/
theorem witness_pmuSelWrite : ∃ (m : Master) (k : Fin 1024) (v : Wr) (s : State),
    (atOnce m s) ∧
    (listens s) ∧
    (mayWrite s.dev m = true) :=
  ⟨.fabricManager, 5, .full 1, wS wDev, by decide +kernel⟩

/-- MonitorCommandsComplete: a state and operands that meet what it asks of pmuClear. -/
theorem witness_pmuClear : ∃ (m : Master) (v : Wr) (s : State),
    (atOnce m s) ∧
    (listens s) ∧
    (mayWrite s.dev m = true ∧ bit (wrBits v).1 0 = true ∧ bit (wrBits v).2 0 = true) :=
  ⟨.fabricManager, .full 1, wS wDev, by decide +kernel⟩

/-- MonitorCommandsComplete: a state and operands that meet what it asks of bwWindowEnd. -/
theorem witness_bwWindowEnd : ∃ (s : State),
    (listens s) :=
  ⟨wS wDev, by decide +kernel⟩

/-- MonitorCommandsComplete: a state and operands that meet what it asks of dumpEnable. -/
theorem witness_dumpEnable : ∃ (m : Master) (v : Wr) (s : State),
    (atOnce m s) ∧
    (listens s) ∧
    (mayWrite s.dev m = true ∧ bit (wrBits v).2 63 = true) :=
  ⟨.fabricManager, .full 0x8000000000000000, wS wDev, by decide +kernel⟩

/-- MonitorCommandsComplete: a state and operands that meet what it asks of dumpBoundary. -/
theorem witness_dumpBoundary : ∃ (s : State),
    (listens s) ∧
    (s.dev.pmu.dump.running = true) :=
  ⟨wS { wDev with pmu := { wDev.pmu with dump := { running := true, log2 := 4 } } }, by decide +kernel⟩

/-- InkwellCommandsComplete: a state and operands that meet what it asks of inkStart. -/
theorem witness_inkStart : ∃ (m : Master) (v : Wr) (s : State),
    (atOnce m s) ∧
    (listens s) ∧
    (mayWrite s.dev m = true ∧ bit (wrBits v).2 60 = true ∧ fld (wrBits v).1 60 4 = 1) ∧
    (fencedBlk (putReg 0x50000 0x0400010000000000 (mergeWr (inkCtl s.dev) 0x0CFF7F0000000000 v) s.dev) 8 = false) :=
  ⟨.fabricManager, .full 0x1000000000000000, wS wDev, by decide +kernel⟩

/-- InkwellCommandsComplete: a state and operands that meet what it asks of inkStop. -/
theorem witness_inkStop : ∃ (m : Master) (v : Wr) (s : State),
    (atOnce m s) ∧
    (listens s) ∧
    (mayWrite s.dev m = true ∧ bit (wrBits v).2 60 = true ∧ fld (wrBits v).1 60 4 = 2) ∧
    (fencedBlk (putReg 0x50000 0x0400010000000000 (mergeWr (inkCtl s.dev) 0x0CFF7F0000000000 v) s.dev) 8 = false) :=
  ⟨.fabricManager, .full 0x2000000000000000, wS wDev, by decide +kernel⟩

/-- InkwellCommandsComplete: a state and operands that meet what it asks of inkDiscard. -/
theorem witness_inkDiscard : ∃ (m : Master) (v : Wr) (s : State),
    (atOnce m s) ∧
    (listens s) ∧
    (mayWrite s.dev m = true ∧ bit (wrBits v).2 60 = true ∧ fld (wrBits v).1 60 4 = 3) ∧
    (fencedBlk (putReg 0x50000 0x0400010000000000 (mergeWr (inkCtl s.dev) 0x0CFF7F0000000000 v) s.dev) 8 = false) :=
  ⟨.fabricManager, .full 0x3000000000000000, wS wDev, by decide +kernel⟩

/-- InkwellCommandsComplete: a state and operands that meet what it asks of inkTransfer. -/
theorem witness_inkTransfer : ∃ (m : Master) (v : Wr) (s : State),
    (atOnce m s) ∧
    (listens s) ∧
    (mayWrite s.dev m = true ∧ bit (wrBits v).2 60 = true ∧ fld (wrBits v).1 60 4 = 4) ∧
    (fencedBlk (putReg 0x50000 0x0400010000000000 (mergeWr (inkCtl s.dev) 0x0CFF7F0000000000 v) s.dev) 8 = false) :=
  ⟨.fabricManager, .full 0x4000000000000000, wS wDev, by decide +kernel⟩

/-- InkwellCommandsComplete: a state and operands that meet what it asks of inkReplay. -/
theorem witness_inkReplay : ∃ (m : Master) (v : Wr) (s : State),
    (atOnce m s) ∧
    (listens s) ∧
    (mayWrite s.dev m = true ∧ bit (wrBits v).2 60 = true ∧ fld (wrBits v).1 60 4 = 5) ∧
    (fencedBlk (putReg 0x50000 0x0400010000000000 (mergeWr (inkCtl s.dev) 0x0CFF7F0000000000 v) s.dev) 8 = false) :=
  ⟨.fabricManager, .full 0x5000000000000000, wS wDev, by decide +kernel⟩

/-- InkwellCommandsComplete: a state and operands that meet what it asks of inkCheckpointDone. -/
theorem witness_inkCheckpointDone_start : ∃ (s : State),
    (listens s) ∧
    (s.dev.ink.st = 1) :=
  ⟨wS { wDev with ink := { st := 1, gib := 1 } }, by decide +kernel⟩

/-- InkwellCommandsComplete: a state and operands that meet what it asks of inkCheckpointDone. -/
theorem witness_inkCheckpointDone_next : ∃ (s : State),
    (listens s) ∧
    (s.dev.ink.st = 2 ∧ s.dev.ink.ckpt = true) :=
  ⟨wS { wDev with ink := { st := 2, ckpt := true, gib := 1, current := 7, segs := [(0, {}), (7, {})] } }, by decide +kernel⟩

/-- InkwellCommandsComplete: a state and operands that meet what it asks of inkSegmentFull. -/
theorem witness_inkSegmentFull_stop : ∃ (s : State),
    (listens s) ∧
    ((s.dev.ink.st = 2 ∧ s.dev.ink.ckpt = false) ∨ (s.dev.ink.st = 3 ∧ s.dev.ink.stop = 2 ∧ s.dev.ink.stopAt = s.dev.clk.ticks)) ∧
    (s.dev.ink.wrap = false ∧ s.dev.ink.current = 7) :=
  ⟨wS { wDev with ink := { st := 3, stop := 2, gib := 1, current := 7 } }, by decide +kernel⟩

/-- InkwellCommandsComplete: a state and operands that meet what it asks of inkSegmentFull. -/
theorem witness_inkSegmentFull_next : ∃ (s : State),
    (listens s) ∧
    (s.dev.ink.st = 2 ∧ s.dev.ink.ckpt = false) ∧
    (s.dev.ink.wrap = true ∨ s.dev.ink.current ≠ 7) :=
  ⟨wS { wDev with ink := { st := 2, gib := 1 } }, by decide +kernel⟩

/-- InkwellCommandsComplete: a state and operands that meet what it asks of inkSegmentFull. -/
theorem witness_inkSegmentFull_overrun : ∃ (s : State),
    (listens s) ∧
    (s.dev.ink.st = 2 ∧ s.dev.ink.ckpt = false) ∧
    (s.dev.ink.pressure = false) :=
  ⟨wS { wDev with ink := { st := 2, gib := 1, pressure := false, segs := [(0, {})] } }, by decide +kernel⟩

/-- InkwellCommandsComplete: a state and operands that meet what it asks of inkSegmentFull. -/
theorem witness_inkSegmentFull_pressure : ∃ (s : State),
    (listens s) ∧
    (s.dev.ink.st = 2 ∧ s.dev.ink.ckpt = false) ∧
    (s.dev.ink.pressure = true) :=
  ⟨wS { wDev with ink := { st := 2, gib := 1 } }, by decide +kernel⟩

/-- InkwellCommandsComplete: a state and operands that meet what it asks of inkPostTriggerEnd. -/
theorem witness_inkPostTriggerEnd : ∃ (s : State),
    (listens s) ∧
    (s.dev.ink.st = 2 ∧ s.dev.ink.trig = true) :=
  ⟨wS { wDev with ink := { st := 2, trig := true } }, by decide +kernel⟩

/-- InkwellCommandsComplete: a state and operands that meet what it asks of inkTransferDone. -/
theorem witness_inkTransferDone_export : ∃ (heads : List (List Byte)) (s : State),
    (listens s) ∧
    (s.dev.ink.st = 4 ∧ s.dev.ink.imp = false) :=
  ⟨[], wS { wDev with ink := { st := 4 } }, by decide +kernel⟩

/-- InkwellCommandsComplete: a state and operands that meet what it asks of inkTransferDone. -/
theorem witness_inkTransferDone_import : ∃ (heads : List (List Byte)) (s : State),
    (listens s) ∧
    (s.dev.ink.st = 4 ∧ s.dev.ink.imp = true) :=
  ⟨[], wS { wDev with ink := { st := 4, imp := true } }, by decide +kernel⟩

/-- InkwellCommandsComplete: a state and operands that meet what it asks of inkReplayDone. -/
theorem witness_inkReplayDone_end : ∃ (r : InkEnd) (b : Bool) (s : State),
    (listens s) ∧
    (s.dev.ink.st = 5 ∧ replayRecs s.dev = ([], b)) :=
  ⟨{}, false, wS { wDev with ink := { st := 5 } }, by decide +kernel⟩

/-- InkwellCommandsComplete: a state and operands that meet what it asks of inkReplayDone. -/
theorem witness_inkReplayDone_equal : ∃ (r : InkEnd) (b : Bool) (q : Nat) (x : InkRec) (rest : List (Nat × InkRec)) (s : State),
    (listens s) ∧
    (s.dev.ink.st = 5 ∧ replayRecs s.dev = ((q, x) :: rest, b)) ∧
    (x.kind = 4 ∧ r.made.head?.getD (word x.data 8) = word x.data 8) :=
  ⟨{}, false, 0, { kind := 4 }, [], wS { wDev with ink := { st := 5, gib := 1, segs := [(0, { used := true, recs := [{ kind := 4 }] })] } }, by decide +kernel⟩

/-- InkwellCommandsComplete: a state and operands that meet what it asks of inkReplayDone. -/
theorem witness_inkReplayDone_diverges : ∃ (r : InkEnd) (a : Word64) (b : Bool) (q : Nat) (x : InkRec) (rest : List (Nat × InkRec)) (s : State),
    (listens s) ∧
    (s.dev.ink.st = 5 ∧ replayRecs s.dev = ((q, x) :: rest, b)) ∧
    (x.kind = 4 ∧ r.made.head? = some a ∧ a ≠ word x.data 8) :=
  ⟨{ made := [7] }, 7, false, 0, { kind := 4 }, [], wS { wDev with ink := { st := 5, gib := 1, segs := [(0, { used := true, recs := [{ kind := 4 }] })] } }, by decide +kernel⟩

/-- InkwellCommandsComplete: a state and operands that meet what it asks of inkReplayDone. -/
theorem witness_inkReplayDone_read : ∃ (r : InkEnd) (a : Word64) (b : Bool) (q : Nat) (x : InkRec) (rest : List (Nat × InkRec)) (s : State),
    (listens s) ∧
    (s.dev.ink.st = 5 ∧ replayRecs s.dev = ((q, x) :: rest, b)) ∧
    (x.kind = 2 ∧ r.made.head? = some a ∧ a ≠ word x.data 0) :=
  ⟨{ made := [7] }, 7, false, 0, { kind := 2 }, [], wS { wDev with ink := { st := 5, gib := 1, segs := [(0, { used := true, recs := [{ kind := 2 }] })] } }, by decide +kernel⟩

/-- InkwellCommandsComplete: a state and operands that meet what it asks of inkReplayDone. -/
theorem witness_inkReplayDone_on : ∃ (r : InkEnd) (b : Bool) (q : Nat) (x : InkRec) (rest : List (Nat × InkRec)) (s : State),
    (listens s) ∧
    (s.dev.ink.st = 5 ∧ replayRecs s.dev = ((q, x) :: rest, b)) ∧
    (x.kind ≠ 2 ∧ x.kind ≠ 4) :=
  ⟨{}, false, 0, { kind := 1 }, [], wS { wDev with ink := { st := 5, gib := 1, segs := [(0, { used := true, recs := [{ kind := 1 }] })] } }, by decide +kernel⟩

/-- ConfigurationCommandsComplete: a state and operands that meet what it asks of registerWrite. -/
theorem witness_registerWrite_bar0 : ∃ (m : Master) (off : Fin 0x200000) (v : Wr) (k : Nat) (s : State),
    (atOnce m s) ∧
    (listens s) ∧
    (badAccess s.dev m off.val false = false ∧ off.val % 8 = 0) ∧
    (baseOf off.val = some k ∧ k ≠ 0x1020 ∧ k ≠ 0x1028 ∧ mayWriteReg s.dev m k = true) ∧
    (match m with | .fn f => f.num.val = 0 ∨ off.val < 0x4000 | .fabricManager => True) :=
  ⟨.fabricManager, 0x38, .full 1, 0x38, wS wDev, by decide +kernel⟩

/-- ConfigurationCommandsComplete: a state and operands that meet what it asks of registerWrite. -/
theorem witness_registerWrite_unsupported : ∃ (m : Master) (k : Bar) (off : Fin 0x200000) (v : Option Wr) (s : State),
    (atOnce m s) ∧
    (listens s) ∧
    (badAccess s.dev m off.val v.isNone = true) :=
  ⟨.fn {}, .bar0, 4, some (.full 1), wS wDev, by decide +kernel⟩

/-- ConfigurationCommandsComplete: a state and operands that meet what it asks of registerWrite. -/
theorem witness_registerWrite_sqDoorbell : ∃ (f : FnId) (off : Fin 0x200000) (v : Wr) (s : State),
    (atOnce (.fn f) s) ∧
    (badAccess s.dev (.fn f) off.val false = false ∧ 0 ≤ off.val / 8 ∧ off.val / 8 < 0x10000) :=
  ⟨{}, 8, .low 1, wS wDev, by decide +kernel⟩

/-- ConfigurationCommandsComplete: a state and operands that meet what it asks of registerWrite. -/
theorem witness_registerWrite_cqDoorbell : ∃ (f : FnId) (off : Fin 0x200000) (v : Wr) (s : State),
    (atOnce (.fn f) s) ∧
    (badAccess s.dev (.fn f) off.val false = false ∧ 0x10000 ≤ off.val / 8 ∧ off.val / 8 < 0x20000) :=
  ⟨{}, 0x80008, .low 1, wS wDev, by decide +kernel⟩

/-- ConfigurationCommandsComplete: a state and operands that meet what it asks of registerWrite. -/
theorem witness_registerWrite_eqDoorbell : ∃ (f : FnId) (off : Fin 0x200000) (v : Wr) (s : State),
    (atOnce (.fn f) s) ∧
    (badAccess s.dev (.fn f) off.val false = false ∧ 0x20000 ≤ off.val / 8 ∧ off.val / 8 < 0x21000) :=
  ⟨{}, 0x100008, .low 1, wS wDev, by decide +kernel⟩

/-- ConfigurationCommandsComplete: a state and operands that meet what it asks of registerWrite. -/
theorem witness_registerWrite_msix : ∃ (f : FnId) (off : Fin 0x200000) (v : Wr) (s : State),
    (atOnce (.fn f) s) ∧
    (listens s) ∧
    (badAccess s.dev (.fn f) off.val false = false ∧ off.val / 8 < 4096 ∧ fnExists s.dev f = true) :=
  ⟨{}, 16, .full 1, wS wDev, by decide +kernel⟩

/-- ConfigurationCommandsComplete: a state and operands that meet what it asks of clearOnRead. -/
theorem witness_clearOnRead_register : ∃ (m : Master) (off : Fin 0x200000) (a : Part) (k : Nat) (s : State),
    (atOnce m s) ∧
    (listens s) ∧
    (badAccess s.dev m off.val false = false ∧ baseOf off.val = some k ∧ mayReach s.dev m k = true) ∧
    (match m with | .fn f => f.num.val = 0 ∨ off.val < 0x4000 | .fabricManager => True) :=
  ⟨.fabricManager, 0x38, .full, 0x38, wS wDev, by decide +kernel⟩

/-- ConfigurationCommandsComplete: a state and operands that meet what it asks of clearOnRead. -/
theorem witness_clearOnRead_none : ∃ (m : Master) (off : Fin 0x200000) (a : Part) (s : State),
    (atOnce m s) ∧
    (listens s) ∧
    (badAccess s.dev m off.val false = false ∧ baseOf off.val = none) :=
  ⟨.fabricManager, 0xF00F8, .low, wS wDev, by decide +kernel⟩

/-- ConfigurationCommandsComplete: a state and operands that meet what it asks of clearOnRead. -/
theorem witness_clearOnRead_doorbells : ∃ (f : FnId) (off : Fin 0x200000) (a : Part) (s : State),
    (atOnce (.fn f) s) ∧
    (listens s) ∧
    (badAccess s.dev (.fn f) off.val false = false) :=
  ⟨{}, 8, .full, wS wDev, by decide +kernel⟩

/-- ConfigurationCommandsComplete: a state and operands that meet what it asks of clearOnRead. -/
theorem witness_clearOnRead_msix : ∃ (f : FnId) (off : Fin 0x200000) (a : Part) (s : State),
    (atOnce (.fn f) s) ∧
    (listens s) ∧
    (badAccess s.dev (.fn f) off.val false = false) :=
  ⟨{}, 8, .full, wS wDev, by decide +kernel⟩

/-- ConfigurationCommandsComplete: a state and operands that meet what it asks of clearOnRead. -/
theorem witness_clearOnRead_unsupported : ∃ (m : Master) (k : Bar) (off : Fin 0x200000) (a : Option Part) (s : State),
    (atOnce m s) ∧
    (listens s) ∧
    (badAccess s.dev m off.val a.isNone = true) :=
  ⟨.fn {}, .bar0, 8, none, wS wDev, by decide +kernel⟩

/-- ConfigurationCommandsComplete: a state and operands that meet what it asks of cfgCommit. -/
theorem witness_cfgCommit : ∃ (m : Master) (v : Wr) (s : State),
    (atOnce m s) ∧
    (listens s) ∧
    (mayWrite s.dev m = true ∧ (fld ((wrBits v).1 &&& (wrBits v).2) 0 11) ≠ 0 ∧ s.dev.cfg.busy = false) :=
  ⟨.fabricManager, .full 0x10, wS wDev, by decide +kernel⟩

/-- ConfigurationCommandsComplete: a state and operands that meet what it asks of cfgCommit. -/
theorem witness_cfgCommit_ignored : ∃ (m : Master) (v : Wr) (s : State),
    (atOnce m s) ∧
    (listens s) ∧
    (mayWrite s.dev m = true ∧ (fld ((wrBits v).1 &&& (wrBits v).2) 0 11 = 0 ∨ s.dev.cfg.busy = true)) :=
  ⟨.fabricManager, .full 0, wS wDev, by decide +kernel⟩

/-- ConfigurationCommandsComplete: a state and operands that meet what it asks of commitEvaluation. -/
theorem witness_commitEvaluation : ∃ (n : Nat) (s : State),
    (listens s) ∧
    (s.dev.cfg.commit = some n ∧ commitFails s.dev n = none) :=
  ⟨16, wS { wDev with cfg := { wDev.cfg with commit := some 16, busy := true } }, by decide +kernel⟩

/-- ConfigurationCommandsComplete: a state and operands that meet what it asks of commitEvaluation. -/
theorem witness_commitEvaluation_refused : ∃ (n : Nat) (e : Nat × Nat) (s : State),
    (listens s) ∧
    (s.dev.cfg.commit = some n ∧ commitFails s.dev n = some e) :=
  ⟨16, (4, 6), wS { wDev with cfg := { wDev.cfg with commit := some 16, busy := true, fenced := 16 } }, by decide +kernel⟩

/-- ConfigurationCommandsComplete: a state and operands that meet what it asks of crcSweepComplete. -/
theorem witness_crcSweepComplete : ∃ (s : State),
    (listens s) ∧
    (s.dev.cfg.dirty = false) :=
  ⟨wS { wDev with cfg := { wDev.cfg with dirty := false } }, by decide +kernel⟩

/-- ConfigurationCommandsComplete: a state and operands that meet what it asks of crcCapture. -/
theorem witness_crcCapture : ∃ (m : Master) (v : Wr) (s : State),
    (atOnce m s) ∧
    (listens s) ∧
    (mayWrite s.dev m = true ∧ bit ((wrBits v).1 &&& (wrBits v).2) 62 = true) :=
  ⟨.fabricManager, .full 0x4000000000000000, wS wDev, by decide +kernel⟩

/-- ConfigurationCommandsComplete: a state and operands that meet what it asks of cfgLock. -/
theorem witness_cfgLock : ∃ (m : Master) (v : Wr) (s : State),
    (atOnce m s) ∧
    (listens s) ∧
    (mayWrite s.dev m = true ∧ bit ((wrBits v).1 &&& (wrBits v).2) 0 = true) :=
  ⟨.fabricManager, .full 1, wS wDev, by decide +kernel⟩

/-- ConfigurationCommandsComplete: a state and operands that meet what it asks of regParityMismatch. -/
theorem witness_regParityMismatch_global : ∃ (f : FnId) (off : Fin 0x80000) (s : State),
    (listens s) ∧
    (blockOf off.val ≠ 1 ∧ hasParity s.dev off.val = true) :=
  ⟨{}, 0x38, wS wDev, by decide +kernel⟩

/-- ConfigurationCommandsComplete: a state and operands that meet what it asks of regParityMismatch. -/
theorem witness_regParityMismatch_function : ∃ (f : FnId) (off : Fin 0x80000) (s : State),
    (listens s) ∧
    (blockOf off.val = 1 ∧ fnHasParity off.val = true ∧ fnExists s.dev f = true) :=
  ⟨{}, 0x1008, wS wDev, by decide +kernel⟩

/-- ConfigurationCommandsComplete: a state and operands that meet what it asks of stagedParityMismatch. -/
theorem witness_stagedParityMismatch : ∃ (off : Fin 0x80000) (a : Word64) (r : Word64) (e : Nat) (s : State),
    (listens s) ∧
    (regT off.val = some (a, r, e) ∧ r ≠ 0) :=
  ⟨0x38, ((regT 0x38).getD (0, 0, 0)).1, ((regT 0x38).getD (0, 0, 0)).2.1, ((regT 0x38).getD (0, 0, 0)).2.2, wS wDev, by decide +kernel⟩

/-- MeterWritesDoWhatTheirRulesSay: values that each form of a write asks for, and blocks that fit and do not. -/
theorem witness_MeterWritesDoWhatTheirRulesSay :
    (∀ v, Wr.low 0 ≠ .full v) ∧ ({} : Isl).timeUnset = true ∧ ({} : Isl).lastEnd ≤ (5 : Word64).toNat ∧ (5 : Word64).toNat < ({ lastEnd := 6 } : Isl).lastEnd ∧
    bit (wrBits (.full 7)).2 0 = true ∧ bit (wrBits (.low 7)).2 0 = true ∧ bit (wrBits (.high 7)).2 0 = false ∧ ({ fwStatus := 1 } : Isl).fwStatus = 1 ∧ ({} : Isl).fwStatus ≠ 1 ∧
    fld (0x1000000000000008 : Word64) 60 4 = 1 ∧ fld (0x2000000000000008 : Word64) 60 4 = 2 ∧ fld (0x8 : Word64) 60 4 ≠ 1 ∧ (0 : Fin 2) ≠ 1 ∧
    (wIsl { timeUnset := false, opened := some {} }).dev.isl.opened = some {} ∧ blockFits (wIsl { timeUnset := false, opened := some {} }).dev {} = true := by
  refine ⟨fun v h => (by cases h), ?_⟩
  decide +kernel

/-- InkwellControlChecksInOrder: a unit that works and one that has failed, a recording that can be replayed, and modes. -/
theorem witness_InkwellControlChecksInOrder :
    let d : Dev := { wDev with mode := .replay, ink := { st := 3, segs := [(0, { used := true })] }, eng := { failed := 2 } }
    unitOk d 0 = true ∧ unitOk d 1 = false ∧ (oldestGood d).isSome = true ∧ headsMatch d 0 = false ∧ headsMatch { d with ink := { st := 3, segs := [(0, { used := true, head := List.replicate 0x20 0 ++ segStamp d 0 })] } } 0 = true ∧
    recordsIn wDev.mode = true ∧ recordsIn d.mode = false ∧ poolHas wDev 1 = true ∧ poolHas wDev 0 = false ∧ hasOwner wDev = false := by decide +kernel

/-! ### Terms that do not spell their rows -/

/-- An entry whose opcode, or whose DEVICE_RESET bit, is another row's is refused (R59, R72, R60). -/
theorem test_ill_formed_opcode_1 :
    ([.createSq {} { w0 := 0x2 },
      .destroySq {} { w0 := 0x3 },
      .createCq {} { w0 := 0x4 },
      .destroyCq {} { w0 := 0x5 },
      .createEq {} { w0 := 0x6 },
      .destroyEq {} { w0 := 0x7 },
      .subscribeEvents {} { w0 := 0x8 },
      .queryQueue {} { w0 := 0x9 },
      .createConn {} { w0 := 0x11 },
      .destroyConn {} { w0 := 0x12 },
      .modifyConn {} { w0 := 0x13 },
      .createMatchCtx {} { w0 := 0x19 },
      .destroyMatchCtx {} { w0 := 0x1a },
      .registerRegion {} { w0 := 0x21 },
      .deregisterRegion {} { w0 := 0x22 },
      .setTranslationRoot {} { w0 := 0x23 },
      .invalidate {} { w0 := 0x24 },
      .resumeMark {} { w0 := 0x25 },
      .joinTree {} { w0 := 0x29 },
      .leaveTree {} { w0 := 0x2a },
      .setShaper {} { w0 := 0x31 },
      .setPolicer {} { w0 := 0x32 },
      .parkFunction {} { w0 := 0x39 },
      .unparkFunction {} { w0 := 0x3a },
      .setFuncDomain {} { w0 := 0x41 },
      .setFuncQuota {} { w0 := 0x42 } {},
      .queryFunc {} { w0 := 0x43 },
      .setMode {} { w0 := 0x49 },
      .setMode {} { w0 := 0x48, w1 := 0x100 },
      .setModeDeviceReset {} { w0 := 0x49, w1 := 0x100 },
      .setModeDeviceReset {} { w0 := 0x48, w1 := 0x1 },
      .fabricMgmtSend {} { w0 := 0x4a } (List.replicate 1024 0),
      .fabricMgmtRecv {} { w0 := 0x4a, w2 := 0x10000 },
      .fabricMgmtLocal {} { w0 := 0x4a, w2 := 0x20000 } (List.replicate 1024 0),
      .faultClear {} { w0 := 0x4b },
      .identify {} { w0 := 0x51 },
      .nop {} 0 { w0 := 0x1 },
      .put {} 0 { w0 := 0x2 },
      .putFlag {} 0 { w0 := 0x3 },
      .get {} 0 { w0 := 0x4 }] : List Instr).all (fun i => !i.wellFormed) = true := by
  decide +kernel

/-- An entry whose opcode, or whose DEVICE_RESET bit, is another row's is refused (R59, R72, R60). -/
theorem test_ill_formed_opcode_2 :
    ([.atomic {} 0 { w0 := 0x5 },
      .sendTagged {} 0 { w0 := 0x6 },
      .postRecv {} 0 { w0 := 0x7 },
      .note {} 0 { w0 := 0x8 },
      .coll {} 0 { w0 := 0x9 },
      .fence {} 0 { w0 := 0xa }] : List Instr).all (fun i => !i.wellFormed) = true := by
  decide +kernel

/-- An FM_OP of another row, or a buffer that is not 1,024 bytes, is refused (R363). -/
theorem test_ill_formed_fabric_mgmt :
    ([.fabricMgmtSend {} { w0 := 0x49, w2 := 0x10000 } (List.replicate 1024 0),
      .fabricMgmtSend {} { w0 := 0x49, w2 := 0x20000 } (List.replicate 1024 0),
      .fabricMgmtSend {} { w0 := 0x49 } [],
      .fabricMgmtRecv {} { w0 := 0x49 },
      .fabricMgmtLocal {} { w0 := 0x49 } (List.replicate 1024 0),
      .fabricMgmtLocal {} { w0 := 0x49, w2 := 0x20000 } []] : List Instr).all (fun i => !i.wellFormed) = true := by
  decide +kernel

/-- A packet, message or frame of another type is refused (R121, R138, R166, R301, R352). -/
theorem test_ill_formed_type_1 :
    ([.putPacket { ptype := 0x2 },
      .putFlagPacket { ptype := 0x3 },
      .getReq { ptype := 0x4 },
      .getResp { ptype := 0x5 },
      .atomicReq { ptype := 0x6 },
      .sendPacket { ptype := 0x7 },
      .sendPacket { ptype := 6, key := 0x20000 },
      .rendezvousFinish { ptype := 0x7 },
      .rendezvousFinish { ptype := 6, key := 0 },
      .notePacket { ptype := 0x8 },
      .ack { ntype := 0x81 },
      .nak { ntype := 0x82 },
      .rnrNak { ntype := 0x83 },
      .accessNak { ntype := 0x84 },
      .atomicResp { ntype := 0x85 },
      .connReset { ntype := 0x86 },
      .funcReset { ntype := 0x87 },
      .destDown { ntype := 0x88 },
      .treeUp 0 { ptype := 0x11 },
      .treeDown 0 { ptype := 0x12 },
      .upCredit 0 { ptype := 0x13 },
      .downCredit 0 { ptype := 0x14 },
      .treeAck 0 { ptype := 0x15 },
      .treeDone 0 { ptype := 0x16 },
      .treeAbort 0 { ptype := 0x17 },
      .linkHello 0 { ntype := 0x2 },
      .changeReq 0 { ntype := 0x3 },
      .changeAck 0 { ntype := 0x4 },
      .changeGo 0 { ntype := 0x5 },
      .changeBusy 0 { ntype := 0x6 },
      .changeDone 0 { ntype := 0x7 },
      .linkMode 0 { ntype := 0x8 },
      .timeReq 0 { ntype := 0x11 },
      .timeResp 0 { ntype := 0x12 },
      .svcLinkAck 0 { ftype := 0x1 },
      .svcHello 0 { ftype := 0x2 },
      .speed 0 { ftype := 0x3 } 0,
      .discover 0 { ftype := 0x4 },
      .discoverReply 0 { ftype := 0x5 },
      .command 0 { ftype := 0x6 }] : List Instr).all (fun i => !i.wellFormed) = true := by
  decide +kernel

/-- A packet, message or frame of another type is refused (R121, R138, R166, R301, R352). -/
theorem test_ill_formed_type_2 :
    ([.response 0 { ftype := 0x7 },
      .heartbeat 0 { ftype := 0x8 },
      .notify 0 { ftype := 0x9 },
      .image 0 { ftype := 0xa }] : List Instr).all (fun i => !i.wellFormed) = true := by
  decide +kernel

/-- A payload longer than its length field says is refused (R119, R209, R351). -/
theorem test_ill_formed_length_packet :
    ([.putPacket { ptype := 0x1, payload := List.replicate 8140 0 },
      .putFlagPacket { ptype := 0x2, payload := List.replicate 8140 0 },
      .getReq { ptype := 0x3, payload := List.replicate 8140 0 }] : List Instr).all (fun i => !i.wellFormed) = true := by
  decide +kernel

/-- A payload longer than its length field says is refused (R119, R209, R351). -/
theorem test_ill_formed_length_treepkt :
    ([.treeUp 0 { ptype := 0x10, payload := List.replicate 8140 0 },
      .treeDown 0 { ptype := 0x11, payload := List.replicate 8140 0 },
      .upCredit 0 { ptype := 0x12, payload := List.replicate 8140 0 }] : List Instr).all (fun i => !i.wellFormed) = true := by
  decide +kernel

/-- Operands of the wrong count, and a read of neither half, are refused (R13, R282, R287). -/
theorem test_ill_formed_operand :
    ([.flitReceive 0 (.flit { valid := 4 } none) 1,
      .flitReceive 0 (.frame [1] []) 1,
      .paceMeasurement [] (List.replicate 136 0),
      .paceMeasurement (List.replicate 64 0) [],
      .thermalSample [] 0 0,
      .mtrWindowRead 0 .fabricManager 0 false false,
      .inkTransferDone (List.replicate 9 [])] : List Instr).all (fun i => !i.wellFormed) = true := by
  decide +kernel

/-- A payload longer than its length field says is refused (R119, R209, R351). -/
theorem test_ill_formed_length_frame :
    ([.svcLinkAck 0 { ftype := 0x0, payload := List.replicate 1025 0 },
      .svcHello 0 { ftype := 0x1, payload := List.replicate 1025 0 },
      .speed 0 { ftype := 0x2, payload := List.replicate 1025 0 } 0] : List Instr).all (fun i => !i.wellFormed) = true := by
  decide +kernel

/-! ### Values the specification works out or states -/

/-- The walk of the specification's example: the indices of 0x7F3A_8C45_1234 are 254, 234, 98 and 81 (R92, worked example). -/
theorem test_walk_indices :
    [4, 3, 2, 1].map (tableIndex 0x7F3A8C451234) = [254, 234, 98, 81] := by decide

/-- The entries of that example: a table, and a 2 MiB page that lacks A (R93, worked example). -/
theorem test_walk_entries :
    malformed 0x0000000123415003 4 = false ∧ isLeaf 0x0000000123415003 4 = false ∧ entryAddr 0x0000000123415003 = 0x123415000 ∧
      malformed 0x000000406E000027 2 = false ∧ isLeaf 0x000000406E000027 2 = true ∧ entryAddr 0x000000406E000027 = 0x406E000000 ∧
      bit (0x000000406E000027 : Word64) 4 = false ∧ bit (0x000000406E000027 : Word64) 5 = true := by decide

/-- A region key's index is bits [31:8] and its generation bits [7:0] (R86). -/
theorem test_region_key : keyIndex 0x12345678 = 0x123456 ∧ keyGen 0x12345678 = 0x78 := by decide

/-- The CRC-32C of the nine digits, the published check value of the polynomial R119 names. -/
theorem test_crc32c : crc32c [0x31, 0x32, 0x33, 0x34, 0x35, 0x36, 0x37, 0x38, 0x39] = 0xE3069283 := by decide +kernel

/-- The three inputs of the specification's example: the FP64 sum depends on the order (R220, R221, worked example). -/
theorem test_fp64_sum_order :
    combineElem 1 3 (combineElem 1 3 0x3FF8000000000000 0xBFF8000000000000) 0x3C10000000000001 = 0x3C10000000000001 ∧
      combineElem 1 3 (combineElem 1 3 0xBFF8000000000000 0x3C10000000000001) 0x3FF8000000000000 = 0 := by decide +kernel

/-- The same three under EXACT_SUM at scale -70: the leaves' integers, INEXACT for C, and the root's result in either order
(R222 to R226, worked example). -/
theorem test_exact_sum :
    toFixed fmt64 (-70) 0x3FF8000000000000 = (3 * 2 ^ 69, 0) ∧ toFixed fmt64 (-70) 0xBFF8000000000000 = (2 ^ 256 - 3 * 2 ^ 69, 0) ∧
      toFixed fmt64 (-70) 0x3C10000000000001 = (256, 1) ∧
      combineElem 7 3 (combineElem 7 3 (3 * 2 ^ 69) (2 ^ 256 - 3 * 2 ^ 69)) 256 = 256 ∧
      combineElem 7 3 (combineElem 7 3 (2 ^ 256 - 3 * 2 ^ 69) 256) (3 * 2 ^ 69) = 256 ∧
      fromFixed fmt64 (-70) 256 = (0x3C10000000000000, 0) ∧ (toFixed fmt64 (-70) 0x4A511B0EC57E649A).2 = 2 := by decide +kernel

/-- A BROADCAST whose second source's chunk comes ends at once: a contribution with data where another child's has some (R217). -/
theorem test_second_source :
    secondSource { cop := 9, elem := 7, count := 1 } { contribs := [{ child := 1, chunk := 0 }] } { child := 2, chunk := 0 } = true ∧
      secondSource { cop := 9, elem := 7, count := 1 } { contribs := [{ child := 1, chunk := 0 }] } { child := 2, chunk := 0, null := true } = false := by
  decide

/-- The block idles with nothing commanded, and the queue stays empty. -/
theorem test_idle : (match step State.reset with
    | .next t => t.pending == []
    | _ => false) = true := by decide +kernel

/-- No row of the table has bits, so no word spells a command. -/
theorem test_no_words : decodeTableWord 8 0 = none ∧ decodeTableWord 512 1 = none := by decide


/-- The comma of 8b/10b: K28.5 is 0011111010 from negative and 1100000101 from positive running disparity; D21.5 is 1010101010 from
both (the published code R348 names). -/
theorem test_8b10b :
    encodeSym false .comma = (0b0011111010, true) ∧ encodeSym true .comma = (0b1100000101, false) ∧
      encodeData false 0xB5 = (0b1010101010, false) ∧ encodeData true 0xB5 = (0b1010101010, true) := by decide +kernel

/-- Trailer symbols T0 to T3 hold the markers 0x3_D5A6 and 0x9_4E27, and T6 and T7 are alike (R283). -/
theorem test_trailer :
    (trailerSyms { width := 2, nextWidth := 1, nextLane := 1 }) =
      [0x1A6, 0x227, 0x0F5, 0x253, 0, 0, 0x26, 0x26] := by decide +kernel

/-- BIP-8 of the symbols 0x001 and 0x001: bits 0 and 10, so positions 0 and 2 (R284). -/
theorem test_bip8 : bip8 [1, 1] = 5 := by decide +kernel

/-- Symbol 0 of a message is bits 0 to 9, bit 0 of byte 0 first (R281). -/
theorem test_bytes_to_symbols : bytesToSyms [0x01, 0x02, 0x03, 0x04, 0x05] = [0x201, 0x0C0, 0x040, 0x014] := by decide +kernel

end Sys2Proof.Tests
end

section
/-!
PROOFS. The device without metering (R2): the island takes no command, the meter neither holds nor is full, and the export block
reads 0 and takes no write.
-/
namespace Sys2Proof.Machine

open Sys2Proof

/-! ### What the meter tells a device without metering -/

theorem meterHold_unmetered {d : Dev} (h : d.fuse.meter = false) : meterHold d = false := by simp [meterHold, h]

theorem meterFull_unmetered {d : Dev} (h : d.fuse.meter = false) : meterFull d = false := by simp [meterFull, h]

theorem islandCycle_unmetered {d : Dev} (h : d.fuse.meter = false) : islandCycle d = d := by simp [islandCycle, h]

theorem meterNotify_unmetered {d : Dev} (h : d.fuse.meter = false) : meterNotify d = d := by simp [meterNotify, h]

/-! ### Commands of the island and writes by its rows -/

/-- Whatever a command would do to the island. -/
theorem island_unmetered {g : Dev → Dev} {s : State} (h : s.dev.fuse.meter = false) : island g s = .next s := by
  simp [island, h]

theorem mtrWrite_unmetered {m : Master} {g : Isl → Isl} {s : State} (h : s.dev.fuse.meter = false) :
    mtrWrite m g s = .next s := island_unmetered h

theorem fwCtlRow_unmetered {cmd : Nat} {m : Master} {w : Wr} {s : State} (h : s.dev.fuse.meter = false) :
    fwCtlRow cmd m w s = .next s := by
  unfold fwCtlRow; split
  · exact mtrWrite_unmetered h
  · rfl

/-- Every command whose effect is the island's, and every write of the export block by its row, changes nothing. -/
theorem exec_island_unmetered {s : State} (h : s.dev.fuse.meter = false) (tap : Fin 8) (opened : Bool) (sig : List Byte)
    {m : Master} (w : Wr) (k : Fin 2) (v : Word32) (ha : atOnce m s) :
    ∀ c ∈ [Instr.tallyTapDelivery tap, .tapSilence tap, .meterSample, .minuteBoundary, .blockSigned, .flashWriteDone opened,
      .sealSample opened, .islandPowerUp opened, .mtrTimeSet m w, .mtrTimeAdj m w, .mtrAck m w, .mtrRdSel k m w, .trimSet m w,
      .operatorSet m w, .mtrFwBegin m w, .mtrFwData m w, .mtrFwActivate m w, .meterXoLoss, .vddMtrLoss,
      .mtrFwVerifyDone sig v], exec c s = .next s := by
  have event (row : State → Host.Outcome State Fault Refusal) {g : Dev → Dev} (hr : row s = island g s) : row s = .next s :=
    hr.trans (island_unmetered h)
  have write {i : Instr} {g : Isl → Isl} : fabRow m i s (mtrWrite m g s) = .next s :=
    (fabRow_atOnce ha).trans (mtrWrite_unmetered h)
  have fwCtl {i : Instr} {cmd : Nat} : fabRow m i s (fwCtlRow cmd m w s) = .next s :=
    (fabRow_atOnce ha).trans (fwCtlRow_unmetered h)
  simp only [List.forall_mem_cons]
  exact ⟨event (execTallyTapDelivery tap) rfl, event (execTapSilence tap) rfl, event execMeterSample rfl,
    event execMinuteBoundary rfl, event execBlockSigned rfl, event (execFlashWriteDone opened) rfl,
    event (execSealSample opened) rfl, event (execIslandPowerUp opened) rfl, write, write,
    (fabRow_atOnce ha).trans (island_unmetered h), write, write, write, fwCtl, write, fwCtl, event execMeterXoLoss rfl,
    event execVddMtrLoss rfl, event (execMtrFwVerifyDone sig v) rfl, List.forall_mem_nil _⟩

/-! ### Accesses to the export block by its offset -/

theorem blockOf_export {b : Nat} (hb : 0x80000 ≤ b) : blockOf b = 11 := by
  unfold blockOf
  rw [if_neg (by omega), if_neg (by omega), if_neg (by omega), if_neg (by omega), if_neg (by omega)]

theorem meterWrite_unmetered {off : Nat} {w : Wr} {d : Dev} (h : d.fuse.meter = false) : meterWrite off w d = d := by
  simp [meterWrite, h]

/-- A write of a register of the export block is the island's, taken or ignored as one (R14, R383). -/
theorem writeReg_export {f : FnId} {b : Nat} {w : Wr} {d : Dev} (hb : 0x80000 ≤ b) :
    writeReg f b w d = meterWrite (b - 0x80000) w d := by
  have hw : wholeWrite b = true := by simp [wholeWrite, hb]
  simp [writeReg, byHalves, hw, regAction, blockOf_export hb]

/-- Who may write does not matter: no write to the export block has an effect. -/
theorem windowWrite_export_unmetered {m : Master} {off b : Nat} {w : Wr} {d : Dev} (h : d.fuse.meter = false)
    (ho : baseOf off = some b) (hb : 0x80000 ≤ b) : windowWrite m off w d = d := by
  simp [windowWrite, ho, writeReg_export hb, meterWrite_unmetered h]

/-- Neither the mirrors nor the halves asked for matter: a register of the export block reads 0, and the read takes nothing. -/
theorem readAccess_export_unmetered {mir : Dev} {f : FnId} {b : Nat} {lo hi : Bool} {d : Dev} (h : d.fuse.meter = false)
    (hb : 0x80000 ≤ b) : readAccess mir f b lo hi d = (0, d) := by
  simp [readAccess, h, hb]

/-- A master that may not reach the export block reads 0 there as one that may. -/
theorem windowReadOf_export_unmetered {mir : Dev} {m : Master} {off b : Nat} {a : Part} {d : Dev} (h : d.fuse.meter = false)
    (ho : baseOf off = some b) (hb : 0x80000 ≤ b) : windowReadOf mir m off a d = (0, d) := by
  simp [windowReadOf, ho, readAccess_export_unmetered h hb]

/-- An effect that leaves the device as it is leaves the state as it is, or lets what follows at once follow. -/
theorem lift_unchanged {g : Dev → Dev} {s : State} (hg : g s.dev = s.dev) :
    lift g s = .next s ∨ lift g s = .next (s.after s.dev) := by
  cases hs : asleep s.dev with
  | true => left; simp [lift, hs]
  | false => right; simp [lift, State.after, hs, hg]

theorem exec_registerWrite_export_unmetered {s : State} {m : Master} {off : Fin 0x200000} {b : Nat} {w : Wr}
    (h : s.dev.fuse.meter = false) (ha : atOnce m s) (ho : baseOf off.val = some b) (hb : 0x80000 ≤ b)
    (hg : badAccess s.dev m off.val false = false) :
    exec (.registerWrite m .bar0 off (some w)) s = .next s ∨
      exec (.registerWrite m .bar0 off (some w)) s = .next (s.after s.dev) := by
  have hl := lift_unchanged (windowWrite_export_unmetered (m := m) (w := w) h ho hb)
  change execRegisterWrite m .bar0 off (some w) s = _ ∨ execRegisterWrite m .bar0 off (some w) s = _
  simp only [execRegisterWrite, fabRow_atOnce ha, Option.isNone_some, hg, Bool.false_eq_true, if_false]
  cases m with
  | fn f =>
    have hdoor {k : Nat} (hk : k < 0x80000) : ¬ baseOf off.val = some k := by rw [ho, Option.some.injEq]; omega
    dsimp only
    rw [if_neg (hdoor (k := 0x1020) (by decide)), if_neg (hdoor (k := 0x1028) (by decide))]
    split
    · exact .inl rfl
    · exact hl
  | fabricManager =>
    dsimp only
    split
    · exact .inl rfl
    · exact hl

theorem exec_clearOnRead_export_unmetered {s : State} {m : Master} {off : Fin 0x200000} {b : Nat} {a : Part}
    (h : s.dev.fuse.meter = false) (hl : listens s) (ha : atOnce m s) (ho : baseOf off.val = some b) (hb : 0x80000 ≤ b)
    (hg : badAccess s.dev m off.val false = false) :
    exec (.clearOnRead m .bar0 off (some a)) s = .next (s.now (emit (.readData 0) s.dev)) := by
  have hs : asleep s.dev = false := hl
  change execClearOnRead m .bar0 off (some a) s = _
  simp [execClearOnRead, fabRow_atOnce ha, lift0, hs, hg, windowReadOf_export_unmetered h ho hb, State.now]

/-- Settles O14: each part is the model's own refusal to act without the metering fuse (R2). -/
theorem unmeteredDeviceHasNoIsland : Obligations.UnmeteredDeviceHasNoIsland := fun _ h =>
  ⟨meterHold_unmetered h, meterFull_unmetered h, islandCycle_unmetered h, meterNotify_unmetered h,
    fun tap opened sig _ w k v ha => exec_island_unmetered h tap opened sig w k v ha,
    fun _ _ _ _ ha ho hb hg => exec_registerWrite_export_unmetered h ha ho hb hg,
    fun _ _ _ _ hl ha ho hb hg => exec_clearOnRead_export_unmetered h hl ha ho hb hg⟩

end Sys2Proof.Machine
end

section
/-!
PROOFS. Commits that are refused (R36, R498, R499): the check of PACE_TGT among those of block 0, the code of a refused block 0,
and what COMMIT_EVALUATION leaves of the device.
-/
namespace Sys2Proof.Machine

open Sys2Proof

/-! ### The checks of block 0 -/

theorem firstCode_of_first_two {a b : Bool} {x y : Nat} {l : List (Bool × Nat)} (h : a = true ∨ b = true) :
    firstCode ((a, x) :: (b, y) :: l) = x ∨ firstCode ((a, x) :: (b, y) :: l) = y := by
  cases a with
  | true => exact .inl rfl
  | false =>
    obtain rfl := h.resolve_left Bool.false_ne_true
    exact .inr rfl

/-- The set of PACE_TGT is one that a commit may put in force (R36). -/
def paceInRange (v : Word64) : Prop :=
  550 ≤ fld v 24 12 ∧ fld v 24 12 ≤ fld v 36 12 ∧ fld v 36 12 ≤ 850 ∧ 1 ≤ fld v 16 8 ∧ fld v 16 8 ≤ 25 ∧
    800 ≤ fld v 0 16 ∧ fld v 0 16 ≤ 2600

/-- The first check of block 0 is of each field of PACE_TGT by itself, the second of the order of its voltages. -/
theorem firstCode_checks0_of_pace {d : Dev} (h : ¬ paceInRange (snapOf d 0x38)) :
    firstCode (checks0 d) = 1 ∨ firstCode (checks0 d) = 2 := by
  refine firstCode_of_first_two ?_
  simp only [Bool.or_eq_true, decide_eq_true_eq]
  unfold paceInRange at h
  omega

/-! ### The code of a refused block 0 -/

/-- A fence is seen first, then a parity mismatch, then the set itself (R499). -/
theorem commitCode_block0 (d : Dev) :
    commitCode d 0 = if fencedBlk d 0 || fencedBlk d 10 then 6
      else if d.cfg.stagedBad.any (fun x => x.1 == 0) then 5 else firstCode (checks0 d) := rfl

theorem commitCode_block0_of_pace {d : Dev} (h : ¬ paceInRange (snapOf d 0x38)) :
    commitCode d 0 = 1 ∨ commitCode d 0 = 2 ∨ commitCode d 0 = 5 ∨ commitCode d 0 = 6 := by
  rw [commitCode_block0]
  split
  · simp
  · split
    · simp
    · rcases firstCode_checks0_of_pace h with hc | hc <;> simp [hc]

/-- No named block is below block 0: where block 0 is refused, the commit is refused for it. -/
theorem commitFails_of_block0 {d : Dev} {n : Nat} (hn : n.testBit 0 = true) (hc : commitCode d 0 ≠ 0) :
    commitFails d n = some (0, commitCode d 0) := by
  have hr : List.range 11 = 0 :: (List.range 10).map (· + 1) := List.range_succ_eq_map
  simp [commitFails, hr, hn, hc]

/-! ### The refused commit -/

/-- Only CFG_COMMIT and what was taken down for it change. -/
theorem evalCommit_refused {d : Dev} {n : Nat} {e : Nat × Nat} (hn : d.cfg.commit = some n) (he : commitFails d n = some e) :
    evalCommit d =
      { d with cfg := { d.cfg with commit := none, busy := false, snap := [], snapGcl := [], err := some e } } := by
  simp [evalCommit, hn, he]

theorem exec_commitEvaluation {s : State} (hl : listens s) : exec .commitEvaluation s = .next (s.after (evalCommit s.dev)) := by
  have hs : asleep s.dev = false := hl
  change lift evalCommit s = _
  simp [lift, hs, State.after]

/-- What follows a command at once leaves the configuration and the registers as the command left them. -/
theorem after_cfg_regs_stg (s : State) (d : Dev) :
    (s.after d).dev.cfg = d.cfg ∧ (s.after d).dev.regs = d.regs ∧ (s.after d).dev.stg = d.stg := by
  have h : kept (s.after d).dev = kept d := rest_kept d
  simp only [kept, Prod.mk.injEq] at h
  simp only [h, and_self]

/-- Settles O16: block 0 is the lowest named block, so its code is the commit's, and settling keeps what the refusal left. -/
theorem paceSetOutOfRangeIsRefused : Obligations.PaceSetOutOfRangeIsRefused := by
  intro n s hl hn hb v vmin vmax hp
  have hcode := commitCode_block0_of_pace (d := s.dev) hp
  have hfails : commitFails s.dev n = some (0, commitCode s.dev 0) := commitFails_of_block0 hb (by omega)
  obtain ⟨hcfg, hregs, hstg⟩ := after_cfg_regs_stg s (evalCommit s.dev)
  rw [evalCommit_refused hn hfails] at hcfg hregs hstg
  refine ⟨_, commitCode s.dev 0, exec_commitEvaluation hl, ?_⟩
  rw [evalCommit_refused hn hfails, hcfg, hregs, hstg]
  exact ⟨rfl, hcode, rfl, rfl, rfl, rfl⟩

end Sys2Proof.Machine
end

section
/-!
PROOFS. Rings and doorbells (R63, R64): slot and phase of the next count, the laps of 2^32 counts, and what of a write a doorbell
takes.
-/
namespace Sys2Proof.Machine

open Sys2Proof

/-! ### Slots and laps (R63) -/

/-- The counts make whole laps, and an even number of them. -/
theorem two_laps_dvd_counts {log2 : Nat} (h : log2 ≤ 20) : 2 ^ log2 * 2 ∣ 2 ^ 32 := by
  rw [← Nat.pow_succ]
  exact Nat.pow_dvd_pow 2 (by omega)

/-- What fits an even number of times into the modulus keeps the parity of its laps. -/
theorem lapParity_mod {n m : Nat} (h : n * 2 ∣ m) (a : Nat) : a % m / n % 2 = a / n % 2 := by
  rw [← Nat.mod_mul_right_div_self, Nat.mod_mod_of_dvd a h, Nat.mod_mul_right_div_self]

theorem b2n_decide_even (n : Nat) : b2n (decide (n % 2 = 0)) = 1 ^^^ (n % 2) := by
  rcases Nat.mod_two_eq_zero_or_one n with h | h <;> simp [h, b2n]

theorem b2n_ringPhase (log2 : Nat) (k : Word32) : b2n (ringPhase log2 k) = 1 ^^^ (k.toNat / 2 ^ log2 % 2) :=
  b2n_decide_even _

theorem ringSlot_add_one {log2 : Nat} (h : log2 ≤ 20) (k : Word32) :
    ringSlot log2 (k + 1) = (ringSlot log2 k + 1) % 2 ^ log2 := by
  calc (k + 1).toNat % 2 ^ log2
      = (k.toNat + 1) % 2 ^ 32 % 2 ^ log2 := by rw [BitVec.toNat_add]; rfl
    _ = (k.toNat + 1) % 2 ^ log2 := Nat.mod_mod_of_dvd _ (Nat.dvd_trans (Nat.dvd_mul_right ..) (two_laps_dvd_counts h))
    _ = (k.toNat % 2 ^ log2 + 1) % 2 ^ log2 := (Nat.mod_add_mod ..).symm

/-- The next count begins a lap exactly where the ring's size divides it, wrapped or not. -/
theorem ringSlot_add_one_eq_zero {log2 : Nat} (h : log2 ≤ 20) (k : Word32) :
    ringSlot log2 (k + 1) = 0 ↔ 2 ^ log2 ∣ k.toNat + 1 := by
  rw [ringSlot_add_one h, ringSlot, Nat.mod_add_mod, Nat.dvd_iff_mod_eq_zero]

/-- The phase of the next count is that of the count after k in the naturals: the wrap to 0 skips an even number of laps. -/
theorem ringPhase_add_one_eq {log2 : Nat} (h : log2 ≤ 20) (k : Word32) :
    ringPhase log2 (k + 1) = decide ((k.toNat + 1) / 2 ^ log2 % 2 = 0) := by
  have hk : (k + 1).toNat = (k.toNat + 1) % 2 ^ 32 := BitVec.toNat_add ..
  rw [ringPhase, hk, lapParity_mod (two_laps_dvd_counts h)]

theorem ringPhase_add_one {log2 : Nat} (h : log2 ≤ 20) (k : Word32) :
    ringPhase log2 (k + 1) = (ringPhase log2 k ^^ decide (ringSlot log2 (k + 1) = 0)) := by
  rw [ringPhase_add_one_eq h, ringPhase, decide_eq_decide.mpr (ringSlot_add_one_eq_zero h k), Nat.succ_div]
  by_cases hlap : 2 ^ log2 ∣ k.toNat + 1
  · rw [if_pos hlap, decide_eq_true hlap, Bool.xor_true, ← decide_not, decide_eq_decide]
    omega
  · rw [if_neg hlap, decide_eq_false hlap, Bool.xor_false, Nat.add_zero]

/-- Settles O11: both follow the naturals, since 2^32 counts are an even number of laps. -/
theorem ringSlotsAndLapsGoOn : Obligations.RingSlotsAndLapsGoOn := fun log2 k h =>
  ⟨rfl, b2n_ringPhase log2 k, ringSlot_add_one h k, ringPhase_add_one h k⟩

/-! ### What a write carries (R64) -/

theorem dbValue_low (x : Word32) : dbValue (.low x) = dbValue (.full (x.setWidth 64)) := by
  have hcount : (x.setWidth 64).setWidth 32 = x := BitVec.setWidth_setWidth_of_le x (by decide)
  have harm : (x.setWidth 64).getLsbD 32 = false := by simp
  simp only [dbValue, hcount, harm]

theorem setWidth_and_count (v : Word64) : (v &&& 0xFFFFFFFF).setWidth 32 = v.setWidth 32 := by
  rw [BitVec.setWidth_and]; exact BitVec.and_allOnes

/-- Bits 63 to 33 are reserved. -/
theorem dbValue_full_and (v : Word64) : dbValue (.full (v &&& 0x1FFFFFFFF)) = dbValue (.full v) := by
  have hcount : (v &&& 0x1FFFFFFFF).setWidth 32 = v.setWidth 32 := by
    rw [BitVec.setWidth_and]; exact BitVec.and_allOnes
  have harm : (v &&& 0x1FFFFFFFF).getLsbD 32 = v.getLsbD 32 := by
    rw [BitVec.getLsbD_and]; exact Bool.and_true _
  simp only [dbValue, hcount, harm]

/-! ### What a doorbell takes of a write -/

theorem lift_of_listens {g : Dev → Dev} {s : State} (h : listens s) : lift g s = .next (s.after (g s.dev)) := by
  have hs : asleep s.dev = false := h
  simp [lift, hs, State.after]

/-- A doorbell acts by COUNT and ARM alone, and ignores a write that carries none. -/
structure ActsByValue (c : Wr → Instr) : Prop where
  congr {w w' : Wr} (h : dbValue w = dbValue w') (s : State) : exec (c w) s = exec (c w') s
  ignores {w : Wr} {s : State} (h : dbValue w = none) (hl : listens s) : exec (c w) s = .next (s.after s.dev)

/-- Of a 64-bit write a doorbell takes COUNT alone: it has no ARM. -/
def ActsByCount (c : Wr → Instr) : Prop :=
  ∀ {v v' : Word64}, v.setWidth 32 = v'.setWidth 32 → ∀ s : State, exec (c (.full v)) s = exec (c (.full v')) s

theorem exec_sqDoorbell (f : FnId) (n : Fin 65536) (w : Wr) (s : State) : exec (.sqDoorbell f n w) s = execSqDoorbell f n w s := rfl

theorem sqDoorbell_actsByValue (f : FnId) (n : Fin 65536) : ActsByValue (.sqDoorbell f n) where
  congr h s := by simp only [exec_sqDoorbell, execSqDoorbell, h]
  ignores h hl := by simp only [exec_sqDoorbell, execSqDoorbell, lift_of_listens hl, h]

theorem exec_aqDb (f : FnId) (w : Wr) (s : State) : exec (.aqDb f w) s = execAqDb f w s := rfl

theorem aqDb_actsByValue (f : FnId) : ActsByValue (.aqDb f) where
  congr h s := by simp only [exec_aqDb, execAqDb, h]
  ignores h hl := by simp only [exec_aqDb, execAqDb, lift_of_listens hl, h]

theorem exec_acqDb (f : FnId) (w : Wr) (s : State) : exec (.acqDb f w) s = execAcqDb f w s := rfl

theorem acqDb_actsByValue (f : FnId) : ActsByValue (.acqDb f) where
  congr h s := by simp only [exec_acqDb, execAcqDb, h]
  ignores h hl := by simp only [exec_acqDb, execAcqDb, lift_of_listens hl, h]

theorem exec_cqDoorbell (f : FnId) (n : Fin 65536) (w : Wr) (s : State) : exec (.cqDoorbell f n w) s = execCqDoorbell f n w s := rfl

theorem cqDoorbell_actsByValue (f : FnId) (n : Fin 65536) : ActsByValue (.cqDoorbell f n) where
  congr h s := by simp only [exec_cqDoorbell, execCqDoorbell, h]
  ignores h hl := by simp only [exec_cqDoorbell, execCqDoorbell, lift_of_listens hl, h]

theorem exec_eqDoorbell (f : FnId) (n : Fin 4096) (w : Wr) (s : State) : exec (.eqDoorbell f n w) s = execEqDoorbell f n w s := rfl

theorem eqDoorbell_actsByValue (f : FnId) (n : Fin 4096) : ActsByValue (.eqDoorbell f n) where
  congr h s := by simp only [exec_eqDoorbell, execEqDoorbell, h]
  ignores h hl := by simp only [exec_eqDoorbell, execEqDoorbell, lift_of_listens hl, h]

theorem sqDoorbell_actsByCount (f : FnId) (n : Fin 65536) : ActsByCount (.sqDoorbell f n) := fun h s => by
  simp only [exec_sqDoorbell, execSqDoorbell, dbValue, h]

theorem aqDb_actsByCount (f : FnId) : ActsByCount (.aqDb f) := fun h s => by
  simp only [exec_aqDb, execAqDb, dbValue, h]

/-- Settles O10: each doorbell acts by what the write carries, and the submission doorbells by its count. -/
theorem doorbellsTakeCountAndArmWhole : Obligations.DoorbellsTakeCountAndArmWhole := by
  intro f n m v x s hl arms plain
  have hvalue : ∀ c ∈ arms ++ plain, ActsByValue c := by
    simp only [arms, plain, List.cons_append, List.nil_append, List.forall_mem_cons]
    exact ⟨acqDb_actsByValue f, cqDoorbell_actsByValue f n, eqDoorbell_actsByValue f m, sqDoorbell_actsByValue f n,
      aqDb_actsByValue f, List.forall_mem_nil _⟩
  have hcount : ∀ c ∈ plain, ActsByCount c := by
    simp only [plain, List.forall_mem_cons]
    exact ⟨sqDoorbell_actsByCount f n, aqDb_actsByCount f, List.forall_mem_nil _⟩
  refine ⟨fun c hc => ?_, fun c hc => hcount c hc (setWidth_and_count v).symm s⟩
  have act := hvalue c hc
  exact ⟨act.congr (dbValue_low x) s, act.ignores rfl hl, act.congr (dbValue_full_and v).symm s⟩

end Sys2Proof.Machine
end

section
/-!
PROOFS. Home slots (R187): the fields whose exclusive-or is the slot, the numbers assigned (R113, R163), and the engines of a
device just reset.
-/
namespace Sys2Proof.Machine

open Sys2Proof

/-! ### The fields of a number -/

theorem toNat_field {w : Nat} (x : BitVec w) (lo len : Nat) : (x.extractLsb' lo len).toNat = x.toNat / 2 ^ lo % 2 ^ len := by
  rw [BitVec.extractLsb'_toNat, Nat.shiftRight_eq_div_pow]

/-- A field shorter than a slot number enters the exclusive-or with zeros above it. -/
theorem toNat_field_setWidth {w len v : Nat} (x : BitVec w) (lo : Nat) (h : len ≤ v) :
    ((x.extractLsb' lo len).setWidth v).toNat = x.toNat / 2 ^ lo % 2 ^ len := by
  rw [BitVec.toNat_setWidth_of_le h, toNat_field]

theorem connSlot_toNat (n : BitVec 24) : connSlot n.toNat =
    (n.extractLsb' 0 5 ^^^ n.extractLsb' 5 5 ^^^ n.extractLsb' 10 5 ^^^ n.extractLsb' 15 5 ^^^
      (n.extractLsb' 20 4).setWidth 5).toNat := by
  have top : ((n.extractLsb' 20 4).setWidth 5).toNat = n.toNat / 2 ^ 20 % 2 ^ 4 := toNat_field_setWidth n 20 (by decide)
  simp only [BitVec.toNat_xor, toNat_field, top]
  simp [connSlot]

theorem mctxSlot_toNat (m : BitVec 16) : mctxSlot m.toNat =
    (m.extractLsb' 0 5 ^^^ m.extractLsb' 5 5 ^^^ m.extractLsb' 10 5 ^^^ (m.extractLsb' 15 1).setWidth 5).toNat := by
  have top : ((m.extractLsb' 15 1).setWidth 5).toNat = m.toNat / 2 ^ 15 % 2 ^ 1 := toNat_field_setWidth m 15 (by decide)
  simp only [BitVec.toNat_xor, toNat_field, top]
  simp [mctxSlot]

/-! ### The numbers assigned -/

/-- What the search finds is accepted. -/
theorem leastFrom_accepts {p : Nat → Bool} {fuel lo n : Nat} (h : leastFrom p fuel lo = some n) : p n = true := by
  induction fuel generalizing lo with
  | zero => cases h
  | succ fuel ih =>
    by_cases hp : p lo = true
    · obtain rfl : lo = n := by simpa [leastFrom, hp] using h
      exact hp
    · exact ih (by simpa [leastFrom, hp] using h)

theorem slotLost_of_freeConn {d : Dev} {n : Nat} (h : freeConn d = some n) : slotLost d (connSlot n) = false := by
  have hn := leastFrom_accepts h
  simp only [Bool.and_eq_true, Bool.not_eq_true'] at hn
  exact hn.2

theorem slotLost_of_freeMctx {d : Dev} {m : Nat} (h : freeMctx d = some m) : slotLost d (mctxSlot m) = false := by
  have hm := leastFrom_accepts h
  simp only [Bool.and_eq_true, Bool.not_eq_true'] at hm
  exact hm.2

/-! ### The engines of a device just reset -/

/-- A boot begins with the engines as the reset left them. -/
@[simp] theorem bootStart_eng (recovery : Bool) (d : Dev) : (bootStart recovery d).eng = d.eng := by
  unfold bootStart; dsimp only; split
  · rfl
  · split <;> rfl

/-- No engine failed, no slot lost or grafted. -/
@[simp] theorem deviceReset_eng (recovery : Bool) (d : Dev) : (deviceReset recovery d).eng = {} := by
  simp [deviceReset, wiped]

theorem exec_deviceReset {recovery : Bool} {s : State} (h : listens s) : exec (.deviceReset recovery) s =
    .next { s with dev := deviceReset recovery s.dev, mir := deviceReset recovery s.dev } := by
  have hs : asleep s.dev = false := h
  change execDeviceReset recovery s = _
  simp [execDeviceReset, resetTo, hs]

/-- Settles O15: the model's quotients are R187's fields, the search for a number refuses lost slots, and a device reset leaves
no slot with a spare. -/
theorem homeSlotsOfConnectionsAndContexts : Obligations.HomeSlotsOfConnectionsAndContexts :=
  ⟨connSlot_toNat, mctxSlot_toNat, fun _ _ => slotLost_of_freeConn, fun _ _ => slotLost_of_freeMctx, rfl, rfl,
    fun _ _ hl => ⟨_, exec_deviceReset hl, fun _ _ => by simp [tget]⟩⟩

end Sys2Proof.Machine
end

section
/-!
PROOFS. What collectives combine without regard to order (R219, R224): the integer operations and exact sum are operations of
words that are associative and commutative, so the order of the folds and the shape of the tree do not show.
-/
namespace Sys2Proof.Machine

open Sys2Proof

/-! ### Folds of an operation of words -/

/-- A combining step is an operation of w-bit words that is associative and commutative. -/
structure CombinesBy {w : Nat} (cop elem : Nat) (op : BitVec w → BitVec w → BitVec w) : Prop where
  step : ∀ x y : BitVec w, combineElem cop elem x.toNat y.toNat = (op x y).toNat
  assoc : Std.Associative op
  comm : Std.Commutative op

namespace CombinesBy

variable {w cop elem : Nat} {op : BitVec w → BitVec w → BitVec w}

theorem foldl_eq (c : CombinesBy cop elem op) (l : List (BitVec w)) (x : BitVec w) :
    (l.map (·.toNat)).foldl (combineElem cop elem) x.toNat = (l.foldl op x).toNat := by
  rw [List.foldl_map]
  exact List.foldl_hom BitVec.toNat c.step

theorem foldl_perm (c : CombinesBy cop elem op) {l m : List (BitVec w)} (p : l.Perm m) (x : BitVec w) :
    (l.map (·.toNat)).foldl (combineElem cop elem) x.toNat = (m.map (·.toNat)).foldl (combineElem cop elem) x.toNat := by
  have := c.assoc
  have := c.comm
  have swap : ∀ a b z, op (op z a) b = op (op z b) a := fun a b z => by
    rw [Std.Associative.assoc (op := op), Std.Commutative.comm (op := op) a, ← Std.Associative.assoc (op := op)]
  rw [c.foldl_eq, c.foldl_eq, p.foldl_eq' fun a _ b _ z => swap a b z]

theorem foldl_split (c : CombinesBy cop elem op) (l m : List (BitVec w)) (x y : BitVec w) :
    ((l ++ y :: m).map (·.toNat)).foldl (combineElem cop elem) x.toNat =
      combineElem cop elem ((l.map (·.toNat)).foldl (combineElem cop elem) x.toNat)
        ((m.map (·.toNat)).foldl (combineElem cop elem) y.toNat) := by
  have := c.assoc
  rw [c.foldl_eq, c.foldl_eq, c.foldl_eq, c.step, List.foldl_append, List.foldl_cons, List.foldl_assoc]

end CombinesBy

/-! ### The lesser and the greater of two words -/

/-- The word of lesser key, the first where the keys are equal. -/
def leastBy {w : Nat} (key : BitVec w → Int) (x y : BitVec w) : BitVec w :=
  if key x ≤ key y then x else y

/-- The word of greater key, the second where the keys are equal. -/
def greatestBy {w : Nat} (key : BitVec w → Int) (x y : BitVec w) : BitVec w :=
  if key x ≤ key y then y else x

section

variable {w : Nat} {key : BitVec w → Int} {op : BitVec w → BitVec w → BitVec w} {f : Int → Int → Int}

/-- An operation is associative where its keys, which tell words apart, are combined associatively. -/
theorem assoc_of_key (hkey : key.Injective) (h : ∀ x y, key (op x y) = f (key x) (key y)) [Std.Associative f] :
    Std.Associative op :=
  ⟨fun x y z => hkey (by rw [h, h, h, h, Std.Associative.assoc (op := f)])⟩

theorem comm_of_key (hkey : key.Injective) (h : ∀ x y, key (op x y) = f (key x) (key y)) [Std.Commutative f] :
    Std.Commutative op :=
  ⟨fun x y => hkey (by rw [h, h, Std.Commutative.comm (op := f)])⟩

theorem key_leastBy (key : BitVec w → Int) (x y : BitVec w) : key (leastBy key x y) = min (key x) (key y) := by
  rw [leastBy, apply_ite key, Int.min_def]

theorem key_greatestBy (key : BitVec w → Int) (x y : BitVec w) : key (greatestBy key x y) = max (key x) (key y) := by
  rw [greatestBy, apply_ite key, Int.max_def]

theorem CombinesBy.of_leastBy {cop elem : Nat} (hkey : key.Injective)
    (h : ∀ x y : BitVec w, combineElem cop elem x.toNat y.toNat = (leastBy key x y).toNat) :
    CombinesBy cop elem (leastBy key) :=
  ⟨h, assoc_of_key hkey (key_leastBy key), comm_of_key hkey (key_leastBy key)⟩

theorem CombinesBy.of_greatestBy {cop elem : Nat} (hkey : key.Injective)
    (h : ∀ x y : BitVec w, combineElem cop elem x.toNat y.toNat = (greatestBy key x y).toNat) :
    CombinesBy cop elem (greatestBy key) :=
  ⟨h, assoc_of_key hkey (key_greatestBy key), comm_of_key hkey (key_greatestBy key)⟩

end

/-- A word's unsigned value, as a key. -/
def unsignedKey {w : Nat} (x : BitVec w) : Int := x.toNat

theorem unsignedKey_le {w : Nat} (x y : BitVec w) : unsignedKey x ≤ unsignedKey y ↔ x.toNat ≤ y.toNat := Int.ofNat_le

theorem unsignedKey_injective {w : Nat} : (unsignedKey (w := w)).Injective := fun _ _ h =>
  BitVec.eq_of_toNat_eq (Int.ofNat.inj h)

theorem leastBy_unsignedKey_toNat {w : Nat} (x y : BitVec w) : (leastBy unsignedKey x y).toNat = min x.toNat y.toNat := by
  simp only [leastBy, apply_ite BitVec.toNat, unsignedKey_le, Nat.min_def]

theorem greatestBy_unsignedKey_toNat {w : Nat} (x y : BitVec w) :
    (greatestBy unsignedKey x y).toNat = max x.toNat y.toNat := by
  simp only [greatestBy, apply_ite BitVec.toNat, unsignedKey_le, Nat.max_def]

theorem toInt_injective {w : Nat} : (BitVec.toInt (n := w)).Injective := fun _ _ => BitVec.eq_of_toInt_eq

/-! ### The integer operations (R219) -/

theorem signed_toNat (x : BitVec 64) : signed 64 x.toNat = x.toInt := by
  rw [signed, BitVec.toInt_eq_toNat_cond]
  split <;> split <;> omega

theorem sum_combinesBy {elem : Nat} (he : elemFmt elem = none) : CombinesBy (w := 64) 0x01 elem (· + ·) :=
  ⟨fun x y => by simp only [combineElem, he, BitVec.toNat_add], inferInstance, inferInstance⟩

theorem min_signed_combinesBy : CombinesBy 0x02 1 (leastBy (BitVec.toInt (n := 64))) :=
  .of_leastBy toInt_injective fun x y => by
    simp only [combineElem, elemFmt, if_true, signed_toNat, leastBy, apply_ite BitVec.toNat]

theorem min_unsigned_combinesBy : CombinesBy 0x02 2 (leastBy (unsignedKey (w := 64))) :=
  .of_leastBy unsignedKey_injective fun x y => (leastBy_unsignedKey_toNat x y).symm

theorem max_signed_combinesBy : CombinesBy 0x03 1 (greatestBy (BitVec.toInt (n := 64))) :=
  .of_greatestBy toInt_injective fun x y => by
    simp only [combineElem, elemFmt, if_true, signed_toNat, greatestBy, apply_ite BitVec.toNat]

theorem max_unsigned_combinesBy : CombinesBy 0x03 2 (greatestBy (unsignedKey (w := 64))) :=
  .of_greatestBy unsignedKey_injective fun x y => (greatestBy_unsignedKey_toNat x y).symm

theorem and_combinesBy (elem : Nat) : CombinesBy (w := 64) 0x04 elem (· &&& ·) :=
  ⟨fun x y => (BitVec.toNat_and x y).symm, inferInstance, inferInstance⟩

theorem or_combinesBy (elem : Nat) : CombinesBy (w := 64) 0x05 elem (· ||| ·) :=
  ⟨fun x y => (BitVec.toNat_or x y).symm, inferInstance, inferInstance⟩

theorem xor_combinesBy (elem : Nat) : CombinesBy (w := 64) 0x06 elem (· ^^^ ·) :=
  ⟨fun x y => (BitVec.toNat_xor x y).symm, inferInstance, inferInstance⟩

theorem leastBy_toInt {w : Nat} (x y : BitVec w) : leastBy BitVec.toInt x y = if x.sle y then x else y := by
  simp only [leastBy, BitVec.sle_iff_toInt_le]

theorem greatestBy_toInt {w : Nat} (x y : BitVec w) : greatestBy BitVec.toInt x y = if x.sle y then y else x := by
  simp only [greatestBy, BitVec.sle_iff_toInt_le]

theorem leastBy_unsignedKey {w : Nat} (x y : BitVec w) : leastBy unsignedKey x y = if x.ule y then x else y := by
  simp only [leastBy, unsignedKey_le, BitVec.ule_iff_toNat_le]

theorem greatestBy_unsignedKey {w : Nat} (x y : BitVec w) : greatestBy unsignedKey x y = if x.ule y then y else x := by
  simp only [greatestBy, unsignedKey_le, BitVec.ule_iff_toNat_le]

/-- Every integer operation of R203 on both integer types is one of those above. -/
theorem exists_combinesBy_of_integer {cop elem : Nat} (hc : cop ∈ [0x01, 0x02, 0x03, 0x04, 0x05, 0x06]) (he : elem ∈ [1, 2]) :
    ∃ op : BitVec 64 → BitVec 64 → BitVec 64, CombinesBy cop elem op := by
  have he : elem = 1 ∨ elem = 2 := by simpa using he
  obtain rfl | rfl | rfl | rfl | rfl | rfl : cop = 1 ∨ cop = 2 ∨ cop = 3 ∨ cop = 4 ∨ cop = 5 ∨ cop = 6 := by simpa using hc
  · exact ⟨_, sum_combinesBy (he.elim (congrArg elemFmt) (congrArg elemFmt))⟩
  · obtain rfl | rfl := he
    · exact ⟨_, min_signed_combinesBy⟩
    · exact ⟨_, min_unsigned_combinesBy⟩
  · obtain rfl | rfl := he
    · exact ⟨_, max_signed_combinesBy⟩
    · exact ⟨_, max_unsigned_combinesBy⟩
  · exact ⟨_, and_combinesBy elem⟩
  · exact ⟨_, or_combinesBy elem⟩
  · exact ⟨_, xor_combinesBy elem⟩

/-! ### Flags of conversions and combining steps (R213, R218) -/

/-- Only exact sum converts a leaf's input. -/
theorem leafForm_of_ne {cop : Nat} (h : cop ≠ 0x07) (elem : Nat) (s : Int) (bs : List Byte) :
    leafForm cop elem s bs = (bs, 0) := if_neg h

/-- Only exact sum converts the root's result. -/
theorem resultForm_of_ne {cop : Nat} (h : cop ≠ 0x07) (elem : Nat) (s : Int) (raw : Bool) (bs : List Byte) :
    resultForm cop elem s raw bs = (bs, 0) := by
  rw [resultForm, if_neg]
  simp [h]

/-- The flags of both contributions are joined, NULL or not. -/
theorem combine2_flags (h : CollHdr) (a b : Contrib) : (combine2 h a b).flags = a.flags ||| b.flags := by
  unfold combine2
  dsimp only
  split
  · rfl
  · split <;> rfl

/-- Settles O12: each integer operation is an associative and commutative operation of 64-bit words, and only exact sum
converts. -/
theorem integerCombiningIsOrderFree : Obligations.IntegerCombiningIsOrderFree := by
  refine ⟨fun x y => ⟨(sum_combinesBy rfl).step x y, (sum_combinesBy rfl).step x y, ?_, ?_, ?_, ?_, fun e =>
    ⟨(and_combinesBy e).step x y, (or_combinesBy e).step x y, (xor_combinesBy e).step x y⟩⟩, ?_, combine2_flags, ?_⟩
  · rw [min_signed_combinesBy.step, leastBy_toInt]
  · rw [min_unsigned_combinesBy.step, leastBy_unsignedKey]
  · rw [max_signed_combinesBy.step, greatestBy_toInt]
  · rw [max_unsigned_combinesBy.step, greatestBy_unsignedKey]
  · intro cop elem s raw bs hc _
    have hne : cop ≠ 0x07 := fun h => absurd (h ▸ hc) (by decide)
    rw [leafForm_of_ne hne, resultForm_of_ne hne]
    exact ⟨rfl, rfl⟩
  · intro cop hc elem he x y l m
    obtain ⟨op, c⟩ := exists_combinesBy_of_integer hc he
    exact ⟨fun p => c.foldl_perm p x, c.foldl_split l m x y⟩

/-! ### Exact sum (R224) -/

theorem exactSum_combinesBy (elem : Nat) : CombinesBy (w := 256) 0x07 elem (· + ·) :=
  ⟨fun x y => (BitVec.toNat_add x y).symm, inferInstance, inferInstance⟩

/-- A fold of additions is the sum of the signed values, wrapped to the width once. -/
theorem toInt_foldl_add {w : Nat} (l : List (BitVec w)) (x : BitVec w) :
    (l.foldl (· + ·) x).toInt = (x.toInt + (l.map (·.toInt)).sum).bmod (2 ^ w) := by
  induction l generalizing x with
  | nil => simp
  | cons y l ih =>
    rw [List.foldl_cons, ih, BitVec.toInt_add, Int.bmod_add_bmod, List.map_cons, List.sum_cons, Int.add_assoc]

/-- Settles O13: a combining step is the addition of 256-bit words, and a fold of additions wraps the exact sum once. -/
theorem exactSumIsOrderFree : Obligations.ExactSumIsOrderFree := by
  intro elem x y l m
  have c := exactSum_combinesBy elem
  refine ⟨c.step x y, fun p => c.foldl_perm p x, c.foldl_split l m x y, fun lo hi => ?_⟩
  rw [c.foldl_eq, BitVec.ofNat_toNat, BitVec.setWidth_eq, toInt_foldl_add]
  exact Int.bmod_eq_of_le (by omega) (by omega)

end Sys2Proof.Machine
end

section
/-!
PROOFS. A write of MTR_ACK (R396): the three cases in which it is ignored, what it does in those and elsewhere, and that no
acknowledgement lowers MTR_SEQ_ACKED.
-/
namespace Sys2Proof.Machine

open Sys2Proof

/-! ### Commands of the island on a metered device -/

theorem updIsl_eq (g : Isl → Isl) (d : Dev) : updIsl g d = { d with isl := g d.isl } := rfl

theorem island_metered {g : Dev → Dev} {s : State} (h : s.dev.fuse.meter = true) :
    island g s = .next (s.now (meterNotify (g s.dev))) := by
  rw [island, if_pos h, State.now]

theorem acked_of_hard {d e : Dev} (h : hard e = hard d) : e.isl.acked = d.isl.acked := by
  simp only [hard, Prod.mk.injEq] at h
  obtain ⟨-, -, -, -, hacked, -⟩ := h
  exact hacked

@[simp] theorem meterNotify_acked (d : Dev) : (meterNotify d).isl.acked = d.isl.acked := acked_of_hard (meterNotify_hard d)

/-! ### What an acknowledgement does to the island -/

/-- The highest SEQ of a signed block. -/
def lastSignedSeq (i : Isl) : Nat := ((i.blocks.filter (·.signed)).map (·.seq)).foldl max 0

/-- The three cases in which the island ignores an acknowledgement of every block up to n (R396). -/
def AckIgnored (unit : Word64) (n : Nat) (i : Isl) : Prop :=
  lastSignedSeq i < n ∨ n ≤ i.acked ∨ ∃ b ∈ i.blocks, i.acked < b.seq ∧ b.seq ≤ n ∧ allRead unit b = false

theorem any_unread_iff (unit : Word64) (n : Nat) (i : Isl) :
    i.blocks.any (fun b => decide (i.acked < b.seq ∧ b.seq ≤ n) && !allRead unit b) = true ↔
      ∃ b ∈ i.blocks, i.acked < b.seq ∧ b.seq ≤ n ∧ allRead unit b = false := by
  simp only [List.any_eq_true, Bool.and_eq_true, decide_eq_true_eq, Bool.not_eq_true', and_assoc]

/-- The model's check is the three cases of R396. -/
theorem ackCheck_iff (unit : Word64) (n : Nat) (i : Isl) :
    (lastSignedSeq i < n || n ≤ i.acked
      || i.blocks.any (fun b => decide (i.acked < b.seq ∧ b.seq ≤ n) && !allRead unit b)) = true ↔ AckIgnored unit n i := by
  rw [Bool.or_eq_true, Bool.or_eq_true, decide_eq_true_eq, decide_eq_true_eq, any_unread_iff, or_assoc, AckIgnored]

theorem ackWrite_of_ignored {unit v : Word64} {i : Isl} (h : AckIgnored unit (fld v 0 48) i) :
    ackWrite unit (.full v) i = { i with wrIgnored := i.wrIgnored.add 1 } :=
  if_pos ((ackCheck_iff ..).mpr h)

theorem ackWrite_of_not_ignored {unit v : Word64} {i : Isl} (h : ¬ AckIgnored unit (fld v 0 48) i) :
    ackWrite unit (.full v) i = { i with acked := fld v 0 48 } :=
  if_neg (mt (ackCheck_iff ..).mp h)

/-! ### The command -/

theorem exec_mtrAck (m : Master) (w : Wr) (s : State) : exec (.mtrAck m w) s = execMtrAck m w s := rfl

theorem exec_mtrAck_metered {m : Master} {w : Wr} {s : State} (hf : s.dev.fuse.meter = true)
    (hp : s.dev.isl.powered = true) (hw : mayWrite s.dev m = true) (ha : atOnce m s) :
    exec (.mtrAck m w) s = .next (s.now (meterNotify (updIsl (ackWrite s.dev.fuse.unitId w) s.dev))) := by
  rw [exec_mtrAck, execMtrAck, fabRow_atOnce ha, island_metered hf, if_pos (by rw [hw, hp]; rfl)]

/-- Settles O17: the island's check is the three cases of R396, and neither branch, nor the notice that follows, lowers
MTR_SEQ_ACKED. -/
theorem meterAcknowledgeReleasesUpTo : Obligations.MeterAcknowledgeReleasesUpTo := by
  intro m v s hf hp hw ha
  rw [exec_mtrAck_metered hf hp hw ha]
  refine ⟨fun late => ?_, fun intime => ?_, fun t ht => ?_⟩
  · rw [updIsl_eq, ackWrite_of_ignored late]
  · rw [updIsl_eq, ackWrite_of_not_ignored intime]
  · obtain rfl := Host.Outcome.next.inj ht
    calc s.dev.isl.acked
        ≤ (ackWrite s.dev.fuse.unitId (.full v) s.dev.isl).acked := ackWrite_acked ..
      _ = _ := (meterNotify_acked (updIsl (ackWrite s.dev.fuse.unitId (.full v)) s.dev)).symm

end Sys2Proof.Machine
end

section
/-!
PROOFS. What every step keeps: each command of the block answers a next state with the queue as it was, and either leaves the
stored registers, fuses, straps and mirrors alone or keeps what the invariant says of them.
-/
namespace Sys2Proof.Machine

open Sys2Proof

/-! ### Every command, by what it may change -/

/-- A command outside setsRegs changes neither a register nor a fuse, strap or mirror. -/
theorem exec_firm (s : State) : ∀ c : Instr, setsRegs c = false → Firm s (exec c s)
  | .createSq .., _ => (execCreateSq_stays ..).firm
  | .destroySq .., _ => (execDestroySq_stays ..).firm
  | .createCq .., _ => (execCreateCq_stays ..).firm
  | .destroyCq .., _ => (execDestroyCq_stays ..).firm
  | .createEq .., _ => (execCreateEq_stays ..).firm
  | .destroyEq .., _ => (execDestroyEq_stays ..).firm
  | .subscribeEvents .., _ => (execSubscribeEvents_stays ..).firm
  | .queryQueue .., _ => (execQueryQueue_stays ..).firm
  | .createConn .., _ => (execCreateConn_stays ..).firm
  | .destroyConn .., _ => execDestroyConn_firm ..
  | .modifyConn .., _ => (execModifyConn_stays ..).firm
  | .createMatchCtx .., _ => (execCreateMatchCtx_stays ..).firm
  | .destroyMatchCtx .., _ => (execDestroyMatchCtx_stays ..).firm
  | .registerRegion .., _ => (execRegisterRegion_stays ..).firm
  | .deregisterRegion .., _ => (execDeregisterRegion_stays ..).firm
  | .deregisterRegionDone .., _ => (execDeregisterRegionDone_stays ..).firm
  | .setTranslationRoot .., _ => (execSetTranslationRoot_stays ..).firm
  | .setTranslationRootDone .., _ => (execSetTranslationRootDone_stays ..).firm
  | .invalidate .., _ => (execInvalidate_stays ..).firm
  | .invalidateDone .., _ => (execInvalidateDone_stays ..).firm
  | .resumeMark .., _ => (execResumeMark_stays ..).firm
  | .joinTree .., _ => (execJoinTree_stays ..).firm
  | .leaveTree .., _ => (execLeaveTree_stays ..).firm
  | .setShaper .., _ => (execSetShaper_stays ..).firm
  | .setPolicer .., _ => (execSetPolicer_stays ..).firm
  | .parkFunction .., _ => (execParkFunction_stays ..).firm
  | .parkFunctionDone .., _ => (execParkFunctionDone_stays ..).firm
  | .unparkFunction .., _ => (execUnparkFunction_stays ..).firm
  | .unparkFunctionDone .., _ => (execUnparkFunctionDone_stays ..).firm
  | .setFuncDomain .., _ => (execSetFuncDomain_stays ..).firm
  | .setFuncQuota .., _ => (execSetFuncQuota_stays ..).firm
  | .queryFunc .., _ => (execQueryFunc_stays ..).firm
  | .setMode .., _ => (execSetMode_stays ..).firm
  | .setModeDeviceReset .., _ => (execSetModeDeviceReset_stays ..).firm
  | .fabricMgmtRecv .., _ => (execFabricMgmtRecv_stays ..).firm
  | .faultClear .., _ => (execFaultClear_stays ..).firm
  | .identify .., _ => (execIdentify_stays ..).firm
  | .descriptorFetch .., _ => (execDescriptorFetch_stays ..).firm
  | .nop .., _ => (execNop_stays ..).firm
  | .put .., _ => (execPut_stays ..).firm
  | .putFlag .., _ => (execPutFlag_stays ..).firm
  | .get .., _ => (execGet_stays ..).firm
  | .atomic .., _ => (execAtomic_stays ..).firm
  | .sendTagged .., _ => (execSendTagged_stays ..).firm
  | .postRecv .., _ => (execPostRecv_stays ..).firm
  | .note .., _ => (execNote_stays ..).firm
  | .coll .., _ => (execColl_stays ..).firm
  | .fence .., _ => (execFence_stays ..).firm
  | .sqDoorbell .., _ => (execSqDoorbell_stays ..).firm
  | .aqDb .., _ => (execAqDb_stays ..).firm
  | .acqDb .., _ => (execAcqDb_stays ..).firm
  | .cqDoorbell .., _ => (execCqDoorbell_stays ..).firm
  | .eqDoorbell .., _ => (execEqDoorbell_stays ..).firm
  | .aqCfgWrite .., _ => (execAqCfgWrite_stays ..).firm
  | .acqCfgWrite .., _ => (execAcqCfgWrite_stays ..).firm
  | .cqStallTimeout .., _ => (execCqStallTimeout_stays ..).firm
  | .coalTimeExpiry .., _ => (execCoalTimeExpiry_stays ..).firm
  | .flrComplete .., _ => (execFlrComplete_stays ..).firm
  | .vfDisable .., _ => execVfDisable_firm ..
  | .vfTeardownDone .., _ => (execVfTeardownDone_stays ..).firm
  | .tlpDiscard .., _ => (execTlpDiscard_stays ..).firm
  | .hostReadFailure .., _ => (execHostReadFailure_stays ..).firm
  | .pcieCompletionTimeout .., _ => (execPcieCompletionTimeout_stays ..).firm
  | .payloadReadDone .., _ => (execPayloadReadDone_stays ..).firm
  | .walkReadResponse .., _ => (execWalkReadResponse_stays ..).firm
  | .markRereadResponse .., _ => (execMarkRereadResponse_stays ..).firm
  | .getTargetReadDone .., _ => (execGetTargetReadDone_stays ..).firm
  | .atomicTargetReadDone .., _ => (execAtomicTargetReadDone_stays ..).firm
  | .putPacket .., _ => (execPutPacket_stays ..).firm
  | .putFlagPacket .., _ => (execPutFlagPacket_stays ..).firm
  | .getReq .., _ => (execGetReq_stays ..).firm
  | .getResp .., _ => (execGetResp_stays ..).firm
  | .atomicReq .., _ => (execAtomicReq_stays ..).firm
  | .sendPacket .., _ => (execSendPacket_stays ..).firm
  | .rendezvousFinish .., _ => (execRendezvousFinish_stays ..).firm
  | .notePacket .., _ => (execNotePacket_stays ..).firm
  | .stagedCopyDone .., _ => (execStagedCopyDone_stays ..).firm
  | .ack .., _ => (execAck_stays ..).firm
  | .nak .., _ => (execNak_stays ..).firm
  | .rnrNak .., _ => (execRnrNak_stays ..).firm
  | .accessNak .., _ => (execAccessNak_stays ..).firm
  | .atomicResp .., _ => (execAtomicResp_stays ..).firm
  | .connReset .., _ => (execConnReset_stays ..).firm
  | .funcReset .., _ => (execFuncReset_stays ..).firm
  | .destDown .., _ => (execDestDown_stays ..).firm
  | .retransmitTimeout .., _ => (execRetransmitTimeout_stays ..).firm
  | .rnrWaitEnd .., _ => (execRnrWaitEnd_stays ..).firm
  | .ackTimer .., _ => (execAckTimer_stays ..).firm
  | .contextFetchDone .., _ => (execContextFetchDone_stays ..).firm
  | .contextWriteoutDone .., _ => (execContextWriteoutDone_stays ..).firm
  | .missWaitTimeout .., _ => (execMissWaitTimeout_stays ..).firm
  | .handshakeStall .., _ => (execHandshakeStall_stays ..).firm
  | .faultReport .., _ => (execFaultReport_stays ..).firm
  | .graftDone .., _ => (execGraftDone_stays ..).firm
  | .notifyHoldoffEnd .., _ => (execNotifyHoldoffEnd_stays ..).firm
  | .reportPathFailure .., _ => (execReportPathFailure_stays ..).firm
  | .faultRecordClear .., _ => (execFaultRecordClear_stays ..).firm
  | .corrClr .., _ => (execCorrClr_stays ..).firm
  | .fltForce .., _ => (execFltForce_stays ..).firm
  | .fltBreak .., _ => (execFltBreak_stays ..).firm
  | .eccUncorrectable .., _ => (execEccUncorrectable_stays ..).firm
  | .eccCorrected .., _ => (execEccCorrected_stays ..).firm
  | .hbmStackFailure .., _ => (execHbmStackFailure_stays ..).firm
  | .treeUp .., _ => (execTreeUp_stays ..).firm
  | .treeDown .., _ => (execTreeDown_stays ..).firm
  | .upCredit .., _ => (execUpCredit_stays ..).firm
  | .downCredit .., _ => (execDownCredit_stays ..).firm
  | .treeAck .., _ => (execTreeAck_stays ..).firm
  | .treeDone .., _ => (execTreeDone_stays ..).firm
  | .treeAbort .., _ => (execTreeAbort_stays ..).firm
  | .treeTimeout .., _ => (execTreeTimeout_stays ..).firm
  | .treeContribReadDone .., _ => (execTreeContribReadDone_stays ..).firm
  | .routePacket .., _ => (execRoutePacket_stays ..).firm
  | .packetAgeExpiry .., _ => (execPacketAgeExpiry_stays ..).firm
  | .nibStallDiscard .., _ => (execNibStallDiscard_stays ..).firm
  | .drainLimitExpiry .., _ => (execDrainLimitExpiry_stays ..).firm
  | .flitReceive .., _ => (execFlitReceive_stays ..).firm
  | .replayTimeout .., _ => (execReplayTimeout_stays ..).firm
  | .linkHello .., _ => (execLinkHello_stays ..).firm
  | .linkHelloTimer .., _ => (execLinkHelloTimer_stays ..).firm
  | .changeReq .., _ => (execChangeReq_stays ..).firm
  | .changeAck .., _ => (execChangeAck_stays ..).firm
  | .changeGo .., _ => (execChangeGo_stays ..).firm
  | .changeBusy .., _ => (execChangeBusy_stays ..).firm
  | .changeBusyWaitEnd .., _ => (execChangeBusyWaitEnd_stays ..).firm
  | .changeDone .., _ => (execChangeDone_stays ..).firm
  | .changeReqTimeout .., _ => (execChangeReqTimeout_stays ..).firm
  | .linkMode .., _ => (execLinkMode_stays ..).firm
  | .timeReq .., _ => (execTimeReq_stays ..).firm
  | .timeResp .., _ => (execTimeResp_stays ..).firm
  | .timeExchangeTimer .., _ => (execTimeExchangeTimer_stays ..).firm
  | .laneHealthWindow .., _ => (execLaneHealthWindow_stays ..).firm
  | .laneSignalLoss .., _ => (execLaneSignalLoss_stays ..).firm
  | .frameLockGained .., _ => (execFrameLockGained_stays ..).firm
  | .frameLockLost .., _ => (execFrameLockLost_stays ..).firm
  | .frameLockTimeout .., _ => (execFrameLockTimeout_stays ..).firm
  | .trainLockTimeout .., _ => (execTrainLockTimeout_stays ..).firm
  | .rateLockTimeout .., _ => (execRateLockTimeout_stays ..).firm
  | .portDownDwellEnd .., _ => (execPortDownDwellEnd_stays ..).firm
  | .laneRestoreTimer .., _ => (execLaneRestoreTimer_stays ..).firm
  | .laneSoakEnd .., _ => (execLaneSoakEnd_stays ..).firm
  | .narrowLane0 .., _ => (execNarrowLane0_stays ..).firm
  | .narrowLane1 .., _ => (execNarrowLane1_stays ..).firm
  | .widen .., _ => (execWiden_stays ..).firm
  | .retrainLane0 .., _ => (execRetrainLane0_stays ..).firm
  | .retrainLane1 .., _ => (execRetrainLane1_stays ..).firm
  | .portRestart .., _ => (execPortRestart_stays ..).firm
  | .paceEventHoldoffEnd .., _ => (execPaceEventHoldoffEnd_stays ..).firm
  | .governorEvaluation .., _ => (execGovernorEvaluation_stays ..).firm
  | .avsRequestComplete .., _ => (execAvsRequestComplete_stays ..).firm
  | .avsTimeout .., _ => (execAvsTimeout_stays ..).firm
  | .avsFault .., _ => (execAvsFault_stays ..).firm
  | .avsRetry .., _ => (execAvsRetry_stays ..).firm
  | .thermalSample .., _ => (execThermalSample_stays ..).firm
  | .thermtrip .., _ => (execThermtrip_stays ..).firm
  | .shaperRefill .., _ => (execShaperRefill_stays ..).firm
  | .gateEntryChange .., _ => (execGateEntryChange_stays ..).firm
  | .svcLinkAck .., _ => (execSvcLinkAck_stays ..).firm
  | .svcHello .., _ => (execSvcHello_stays ..).firm
  | .svcHelloTimer .., _ => (execSvcHelloTimer_stays ..).firm
  | .speed .., _ => (execSpeed_stays ..).firm
  | .speedSwitch .., _ => (execSpeedSwitch_stays ..).firm
  | .speedLockTimeout .., _ => (execSpeedLockTimeout_stays ..).firm
  | .discover .., _ => (execDiscover_stays ..).firm
  | .discoverReply .., _ => (execDiscoverReply_stays ..).firm
  | .response .., _ => (execResponse_stays ..).firm
  | .heartbeat .., _ => (execHeartbeat_stays ..).firm
  | .notify .., _ => (execNotify_stays ..).firm
  | .image .., _ => (execImage_stays ..).firm
  | .svcLockGained .., _ => (execSvcLockGained_stays ..).firm
  | .svcLockLost .., _ => (execSvcLockLost_stays ..).firm
  | .svcAckTimeout .., _ => (execSvcAckTimeout_stays ..).firm
  | .svcLinkAckTimer .., _ => (execSvcLinkAckTimer_stays ..).firm
  | .upstreamTimeout .., _ => (execUpstreamTimeout_stays ..).firm
  | .heartbeatTimer .., _ => (execHeartbeatTimer_stays ..).firm
  | .leaseTimeout .., _ => (execLeaseTimeout_stays ..).firm
  | .ppsInEdge .., _ => (execPpsInEdge_stays ..).firm
  | .ftSet .., _ => (execFtSet_stays ..).firm
  | .modeCtlReq .., _ => (execModeCtlReq_stays ..).firm
  | .modeCtlDeviceReset .., _ => (execModeCtlDeviceReset_stays ..).firm
  | .tallyTapDelivery .., _ => (execTallyTapDelivery_stays ..).firm
  | .tapSilence .., _ => (execTapSilence_stays ..).firm
  | .meterSample .., _ => (execMeterSample_stays ..).firm
  | .minuteBoundary .., _ => (execMinuteBoundary_stays ..).firm
  | .blockSigned .., _ => (execBlockSigned_stays ..).firm
  | .flashWriteDone .., _ => (execFlashWriteDone_stays ..).firm
  | .sealSample .., _ => (execSealSample_stays ..).firm
  | .islandPowerUp .., _ => (execIslandPowerUp_stays ..).firm
  | .mtrTimeSet .., _ => (execMtrTimeSet_stays ..).firm
  | .mtrTimeAdj .., _ => (execMtrTimeAdj_stays ..).firm
  | .mtrAck .., _ => execMtrAck_firm ..
  | .mtrRdSel .., _ => (execMtrRdSel_stays ..).firm
  | .mtrWindowRead .., _ => (execMtrWindowRead_stays ..).firm
  | .trimSet .., _ => (execTrimSet_stays ..).firm
  | .operatorSet .., _ => (execOperatorSet_stays ..).firm
  | .mtrFwBegin .., _ => (execMtrFwBegin_stays ..).firm
  | .mtrFwData .., _ => (execMtrFwData_stays ..).firm
  | .mtrFwActivate .., _ => (execMtrFwActivate_stays ..).firm
  | .meterXoLoss .., _ => (execMeterXoLoss_stays ..).firm
  | .vddMtrLoss .., _ => (execVddMtrLoss_stays ..).firm
  | .fwActivateDone .., _ => (execFwActivateDone_stays ..).firm
  | .getVersion .., _ => (execGetVersion_stays ..).firm
  | .getCapabilities .., _ => (execGetCapabilities_stays ..).firm
  | .negotiateAlgorithms .., _ => (execNegotiateAlgorithms_stays ..).firm
  | .getDigests .., _ => (execGetDigests_stays ..).firm
  | .getCertificate .., _ => (execGetCertificate_stays ..).firm
  | .challenge .., _ => (execChallenge_stays ..).firm
  | .getMeasurements .., _ => (execGetMeasurements_stays ..).firm
  | .spdmUnsupportedRequest .., _ => (execSpdmUnsupportedRequest_stays ..).firm
  | .refclkFabLoss .., _ => (execRefclkFabLoss_stays ..).firm
  | .bypass .., _ => (execBypass_stays ..).firm
  | .idcode .., _ => (execIdcode_stays ..).firm
  | .samplePreload .., _ => (execSamplePreload_stays ..).firm
  | .extest .., _ => (execExtest_stays ..).firm
  | .extestPulse .., _ => (execExtestPulse_stays ..).firm
  | .extestTrain .., _ => (execExtestTrain_stays ..).firm
  | .clamp .., _ => (execClamp_stays ..).firm
  | .highz .., _ => (execHighz_stays ..).firm
  | .smbReadTjMax .., _ => (execSmbReadTjMax_stays ..).firm
  | .smbReadHbm0Temp .., _ => (execSmbReadHbm0Temp_stays ..).firm
  | .smbReadHbm1Temp .., _ => (execSmbReadHbm1Temp_stays ..).firm
  | .smbReadStatus .., _ => (execSmbReadStatus_stays ..).firm
  | .smbReadVddReq .., _ => (execSmbReadVddReq_stays ..).firm
  | .smbReadPace .., _ => (execSmbReadPace_stays ..).firm
  | .smbReadUnitId .., _ => (execSmbReadUnitId_stays ..).firm
  | .smbWrite .., _ => (execSmbWrite_stays ..).firm
  | .bwWindowEnd .., _ => (execBwWindowEnd_stays ..).firm
  | .inkCheckpointDone .., _ => (execInkCheckpointDone_stays ..).firm
  | .inkSegmentFull .., _ => (execInkSegmentFull_stays ..).firm
  | .inkPostTriggerEnd .., _ => (execInkPostTriggerEnd_stays ..).firm
  | .inkTransferDone .., _ => (execInkTransferDone_stays ..).firm
  | .inkReplayDone .., _ => (execInkReplayDone_stays ..).firm
  | .cfgCommit .., _ => (execCfgCommit_stays ..).firm
  | .regParityMismatch .., _ => (execRegParityMismatch_stays ..).firm
  | .stagedParityMismatch .., _ => (execStagedParityMismatch_stays ..).firm
  | .clearOnRead .., _ => (execClearOnRead_stays ..).firm
  | .hostLinkUp .., _ => (execHostLinkUp_stays ..).firm
  | .flitSend .., _ => (execFlitSend_stays ..).firm
  | .mtrFwVerifyDone .., _ => (execMtrFwVerifyDone_stays ..).firm

/-- The commands that sample ROLE_SEL and BOOT_SRC (R435). -/
def samplesPins : Instr → Bool
  | .powerOnReset .. | .internalResetRelease .. => true
  | _ => false

/-- A command that may write registers, but samples no pin, keeps what okH says. -/
theorem exec_keeps_of_setsRegs {c : Instr} (s : State) (hc : setsRegs c = true) (hp : samplesPins c = false) :
    Keeps s (exec c s) := by
  cases c with
  | fabricMgmtSend => exact execFabricMgmtSend_keeps ..
  | fabricMgmtLocal => exact execFabricMgmtLocal_keeps ..
  | ownerCtlWrite => exact execOwnerCtlWrite_keeps ..
  | functionLevelReset => exact execFunctionLevelReset_keeps ..
  | hostLinkDown => exact execHostLinkDown_keeps ..
  | hostPortReset => exact execHostPortReset_keeps ..
  | quillWatchdog => exact execQuillWatchdog_keeps ..
  | armA => exact execArmA_keeps ..
  | armB => exact execArmB_keeps ..
  | retireA => exact execRetireA_keeps ..
  | retireB => exact execRetireB_keeps ..
  | stampWrite => exact execStampWrite_keeps ..
  | tableRead => exact execTableRead_keeps ..
  | tableWrite => exact execTableWrite_keeps ..
  | forcedWrite => exact execForcedWrite_keeps ..
  | rtCoordWrite => exact execRtCoordWrite_keeps ..
  | rtHpDrainWrite => exact execRtHpDrainWrite_keeps ..
  | portEnable => exact execPortEnable_keeps ..
  | portDisable => exact execPortDisable_keeps ..
  | paceMeasurement => exact execPaceMeasurement_keeps ..
  | gclRead => exact execGclRead_keeps ..
  | gclWrite => exact execGclWrite_keeps ..
  | command => exact execCommand_keeps ..
  | svcRestart => exact execSvcRestart_keeps ..
  | svcRtRead => exact execSvcRtRead_keeps ..
  | svcRtWrite => exact execSvcRtWrite_keeps ..
  | managerListenEnd => exact execManagerListenEnd_keeps ..
  | takeover => exact execTakeover_keeps ..
  | modeArbitration => exact execModeArbitration_keeps ..
  | deviceReset => exact execDeviceReset_keeps ..
  | bootComplete => exact execBootComplete_keeps ..
  | fwActivate => exact execFwActivate_keeps ..
  | fwCommit => exact execFwCommit_keeps ..
  | supplyBrownout => exact execSupplyBrownout_keeps ..
  | mgmtXoLoss => exact execMgmtXoLoss_keeps ..
  | pmuSelWrite => exact execPmuSelWrite_keeps ..
  | pmuClear => exact execPmuClear_keeps ..
  | dumpEnable => exact execDumpEnable_keeps ..
  | dumpBoundary => exact execDumpBoundary_keeps ..
  | inkStart => exact execInkStart_keeps ..
  | inkStop => exact execInkStop_keeps ..
  | inkDiscard => exact execInkDiscard_keeps ..
  | inkTransfer => exact execInkTransfer_keeps ..
  | inkReplay => exact execInkReplay_keeps ..
  | commitEvaluation => exact execCommitEvaluation_keeps ..
  | crcSweepComplete => exact execCrcSweepComplete_keeps ..
  | crcCapture => exact execCrcCapture_keeps ..
  | cfgLock => exact execCfgLock_keeps ..
  | registerWrite => exact execRegisterWrite_keeps ..
  | pcieConfigWrite => exact execPcieConfigWrite_keeps ..
  | slotVerifyDone => exact execSlotVerifyDone_keeps ..
  | powerOnReset => cases hp
  | internalResetRelease => cases hp
  | _ => cases hc

theorem exec_keeps {c : Instr} (s : State) (h : samplesPins c = false) : Keeps s (exec c s) :=
  match hc : setsRegs c with
  | false => (exec_firm s c hc).keeps
  | true => exec_keeps_of_setsRegs s hc h

theorem Keeps.samples {s : State} {o : Host.Outcome State Fault Refusal} (h : Keeps s o) : Samples s o :=
  let ⟨t, ho, hp, hm, hk⟩ := h
  ⟨t, ho, hp, hm, fun f0 _ k => hk f0 k⟩

theorem exec_samples (c : Instr) (s : State) : Samples s (exec c s) := by
  cases hc : samplesPins c with
  | false => exact (exec_keeps s hc).samples
  | true =>
    cases c with
    | powerOnReset => exact execPowerOnReset_samples ..
    | internalResetRelease => exact execInternalResetRelease_samples ..
    | _ => cases hc

/-! ### The mirrors -/

/-- A command answers a next state that differs in the device alone. -/
def DevOnly (s : State) (o : Host.Outcome State Fault Refusal) : Prop := ∃ d, o = .next (s.now d)

theorem same_devOnly (s : State) : DevOnly s (.next s) := ⟨s.dev, rfl⟩

theorem ite_devOnly {s : State} {c : Prop} [Decidable c] {a b : Host.Outcome State Fault Refusal} (ha : DevOnly s a)
    (hb : DevOnly s b) : DevOnly s (if c then a else b) := by
  split
  · exact ha
  · exact hb

theorem fabRow_devOnly {m : Master} {i : Instr} {s : State} {o : Host.Outcome State Fault Refusal} (h : DevOnly s o) :
    DevOnly s (fabRow m i s o) := ite_devOnly ⟨_, rfl⟩ h

theorem execRegisterWrite_devOnly (m : Master) (b : Bar) (off : Fin 0x200000) (w : Option Wr) (s : State) :
    DevOnly s (execRegisterWrite m b off w s) := by
  refine fabRow_devOnly (ite_devOnly ⟨_, rfl⟩ ?_)
  cases w with
  | none => exact same_devOnly s
  | some w =>
    cases m with
    | fabricManager =>
      cases b with
      | bar0 => exact ite_devOnly (same_devOnly s) ⟨_, rfl⟩
      | bar2 => exact same_devOnly s
      | bar4 => exact same_devOnly s
    | fn f =>
      cases b with
      | bar0 =>
        exact ite_devOnly (same_devOnly s) (ite_devOnly ⟨_, rfl⟩ (ite_devOnly ⟨_, rfl⟩ ⟨_, rfl⟩))
      | bar2 => exact ite_devOnly ⟨_, rfl⟩ (ite_devOnly ⟨_, rfl⟩ (ite_devOnly ⟨_, rfl⟩ ⟨_, rfl⟩))
      | bar4 => exact ⟨_, rfl⟩

/-- A command that may write registers, but takes no sample, changes the device alone. -/
theorem exec_devOnly_of_setsRegs {c : Instr} (s : State) (hc : setsRegs c = true) (hm : samples c = false) :
    DevOnly s (exec c s) := by
  cases c with
  | fabricMgmtSend => exact ite_devOnly (same_devOnly s) ⟨_, rfl⟩
  | fabricMgmtLocal => exact ite_devOnly (same_devOnly s) ⟨_, rfl⟩
  | ownerCtlWrite => exact fabRow_devOnly ⟨_, rfl⟩
  | functionLevelReset => exact ⟨_, rfl⟩
  | hostLinkDown => exact ⟨_, rfl⟩
  | hostPortReset => exact ⟨_, rfl⟩
  | armA => exact fabRow_devOnly ⟨_, rfl⟩
  | armB => exact fabRow_devOnly ⟨_, rfl⟩
  | retireA => exact fabRow_devOnly ⟨_, rfl⟩
  | retireB => exact fabRow_devOnly ⟨_, rfl⟩
  | stampWrite => exact fabRow_devOnly ⟨_, rfl⟩
  | tableRead => exact fabRow_devOnly ⟨_, rfl⟩
  | tableWrite => exact fabRow_devOnly ⟨_, rfl⟩
  | forcedWrite => exact fabRow_devOnly ⟨_, rfl⟩
  | rtCoordWrite => exact fabRow_devOnly ⟨_, rfl⟩
  | rtHpDrainWrite => exact fabRow_devOnly ⟨_, rfl⟩
  | portEnable => exact fabRow_devOnly ⟨_, rfl⟩
  | portDisable => exact fabRow_devOnly ⟨_, rfl⟩
  | gclRead => exact fabRow_devOnly ⟨_, rfl⟩
  | gclWrite => exact fabRow_devOnly ⟨_, rfl⟩
  | command => exact ⟨_, rfl⟩
  | svcRestart => exact fabRow_devOnly ⟨_, rfl⟩
  | svcRtRead => exact fabRow_devOnly ⟨_, rfl⟩
  | svcRtWrite => exact fabRow_devOnly ⟨_, rfl⟩
  | managerListenEnd => exact ⟨_, rfl⟩
  | takeover => exact ⟨_, rfl⟩
  | modeArbitration => exact ⟨_, rfl⟩
  | bootComplete => exact ⟨_, rfl⟩
  | fwActivate => exact fabRow_devOnly ⟨_, rfl⟩
  | fwCommit => exact fabRow_devOnly ⟨_, rfl⟩
  | pmuSelWrite => exact fabRow_devOnly ⟨_, rfl⟩
  | pmuClear => exact fabRow_devOnly ⟨_, rfl⟩
  | dumpEnable => exact fabRow_devOnly ⟨_, rfl⟩
  | dumpBoundary => exact ⟨_, rfl⟩
  | inkStart => exact fabRow_devOnly ⟨_, rfl⟩
  | inkStop => exact fabRow_devOnly ⟨_, rfl⟩
  | inkDiscard => exact fabRow_devOnly ⟨_, rfl⟩
  | inkTransfer => exact fabRow_devOnly ⟨_, rfl⟩
  | inkReplay => exact fabRow_devOnly ⟨_, rfl⟩
  | commitEvaluation => exact ⟨_, rfl⟩
  | crcSweepComplete => exact ⟨_, rfl⟩
  | crcCapture => exact fabRow_devOnly ⟨_, rfl⟩
  | cfgLock => exact fabRow_devOnly ⟨_, rfl⟩
  | registerWrite => exact execRegisterWrite_devOnly ..
  | pcieConfigWrite => exact ⟨_, rfl⟩
  | paceMeasurement => cases hm
  | powerOnReset => cases hm
  | deviceReset => cases hm
  | supplyBrownout => cases hm
  | mgmtXoLoss => cases hm
  | internalResetRelease => cases hm
  | quillWatchdog => cases hm
  | slotVerifyDone => cases hm
  | _ => cases hc

theorem exec_mir_of_not_samples {c : Instr} {s t : State} (hm : samples c = false) (h : exec c s = .next t) : t.mir = s.mir := by
  cases hc : setsRegs c with
  | false =>
    obtain ⟨u, hu, -, hmir, -⟩ := exec_firm s c hc
    obtain rfl := Host.Outcome.next.inj (h.symm.trans hu)
    exact hmir
  | true =>
    obtain ⟨d, hd⟩ := exec_devOnly_of_setsRegs s hc hm
    obtain rfl := Host.Outcome.next.inj (h.symm.trans hd)
    rfl

/-! ### A step, and no command at all -/

theorem step_front (c : Instr) (q : List Instr) (s : State) : step { s with pending := c :: q } = exec c { s with pending := q } := rfl

theorem step_idle {s : State} (h : s.pending = []) : step s = .next (idle s) := by simp only [step, h]

theorem step_of_pending {s : State} {c : Instr} {q : List Instr} (h : s.pending = c :: q) :
    step s = exec c { s with pending := q } := by simp only [step, h]

theorem idle_hard (s : State) : hard (idle s).dev = hard s.dev := by
  unfold idle; split <;> simp

/-- Every step answers a next state and takes off the front of the queue alone; the mirrors stay or are the device as it is left. -/
theorem step_samples (s : State) : ∃ t, step s = .next t ∧ t.pending = s.pending.tail ∧ (t.mir = s.mir ∨ t.mir = t.dev) ∧
    ∀ f0, f0.2.1 = none → okH f0 (hard s.dev) → okH f0 (hard t.dev) := by
  cases hq : s.pending with
  | nil =>
    rw [step_idle hq]
    exact ⟨idle s, rfl, hq, .inl rfl, fun f0 _ k => by rwa [idle_hard]⟩
  | cons c q =>
    rw [step_of_pending hq]
    exact exec_samples c { s with pending := q }

/-- A step whose command samples no pin leaves the pins as they are. -/
theorem step_keeps {s t : State} (hc : ∀ c, s.pending.head? = some c → samplesPins c = false) (h : step s = .next t) (f0 : Base)
    (k : okH f0 (hard s.dev)) : okH f0 (hard t.dev) := by
  cases hq : s.pending with
  | nil =>
    obtain rfl := Host.Outcome.next.inj ((step_idle hq).symm.trans h)
    rwa [idle_hard]
  | cons c q =>
    obtain ⟨u, hu, -, -, hk⟩ := exec_keeps { s with pending := q } (hc c (by rw [hq]; rfl))
    obtain rfl := Host.Outcome.next.inj ((step_of_pending hq).symm.trans h |>.symm.trans hu)
    exact hk f0 k

/-! ### The invariant -/

/-- What a device is held against: its own fuses and last acknowledgement, and the pins where they stay. -/
def devBase (p : Option (BitVec 2 × BitVec 2)) (d : Dev) : Base := (d.fuse, p, d.isl.acked)

theorem fuseKept_refl (a : Fuse) : fuseKept a a := ⟨Nat.le_refl _, rfl⟩

theorem okH_devBase {p : Option (BitVec 2 × BitVec 2)} {d : Dev} (hp : ∀ q, p = some q → pins d.strap = q) (h : soundDev d) :
    okH (devBase p d) (hard d) :=
  let ⟨hr, hg, ho⟩ := h
  ⟨fuseKept_refl _, hp, hr, hg, Nat.le_refl _, ho⟩

theorem soundDev_of_okH {f0 : Base} {d : Dev} (h : okH f0 (hard d)) : soundDev d :=
  let ⟨_, _, hr, hg, _, ho⟩ := h
  ⟨hr, hg, ho⟩

theorem okH_of_step {s t : State} (hs : Sound s) (h : step s = .next t) : okH (devBase none s.dev) (hard t.dev) := by
  obtain ⟨u, hu, -, -, hk⟩ := step_samples s
  obtain rfl := Host.Outcome.next.inj (h.symm.trans hu)
  exact hk _ rfl (okH_devBase nofun hs.1)

/-- Settles O4: every command keeps okH, which holds of a sound device against itself, and a new sample is the device left. -/
theorem soundKeptByEveryStep : Obligations.SoundKeptByEveryStep := by
  intro s t hs h
  have hdev : soundDev t.dev := soundDev_of_okH (okH_of_step hs h)
  obtain ⟨u, hu, -, hmir, -⟩ := step_samples s
  obtain rfl := Host.Outcome.next.inj (h.symm.trans hu)
  refine ⟨hdev, ?_⟩
  obtain hm | hm := hmir
  · rw [hm]; exact hs.2
  · rw [hm]; exact hdev

/-- Settles O6: okH against the device before says both. -/
theorem fusesOnlyRiseInEveryStep : Obligations.FusesOnlyRiseInEveryStep := by
  intro s t hs h
  obtain ⟨hfuse, -, -, -, hacked, -⟩ := okH_of_step hs h
  exact ⟨hfuse, hacked⟩

/-- Settles O3: a case for each command. -/
theorem everyCommandEndsAndLeavesTheQueue : Obligations.EveryCommandEndsAndLeavesTheQueue := by
  refine ⟨fun c s => ?_, fun s => ?_⟩
  · obtain ⟨t, ho, hp, -⟩ := exec_samples c s
    exact ⟨t, ho, hp⟩
  · obtain ⟨t, ho, hp, -⟩ := step_samples s
    exact ⟨t, ho, hp⟩

/-- Settles O7: a property of the four stored parts is one that a later acknowledgement leaves true. -/
theorem registersChangeOnlyByTheirCommands : Obligations.RegistersChangeOnlyByTheirCommands := by
  intro c s t hc h
  obtain ⟨u, hu, -, hmir, hk⟩ := exec_firm s c hc
  obtain rfl := Host.Outcome.next.inj (h.symm.trans hu)
  obtain ⟨hf, hs, hr, hg⟩ := hk
    (fun x => x.1 = s.dev.fuse ∧ x.2.1 = s.dev.strap ∧ x.2.2.1 = s.dev.regs ∧ x.2.2.2.1 = s.dev.stg)
    (fun _ _ _ q _ _ => q) ⟨rfl, rfl, rfl, rfl⟩
  exact ⟨hr, hg, hf, hs, hmir⟩

/-- Settles O8: commands that take no sample change the device alone, and every new sample is the device as it is left. -/
theorem mirrorsMoveOnlyAtTheTick : Obligations.MirrorsMoveOnlyAtTheTick := by
  refine ⟨fun c s t h => ⟨fun hm => exec_mir_of_not_samples hm h, ?_⟩, fun s t hq h => ?_⟩
  · obtain ⟨u, hu, -, hmir, -⟩ := exec_samples c s
    obtain rfl := Host.Outcome.next.inj (h.symm.trans hu)
    exact hmir
  · obtain rfl := Host.Outcome.next.inj ((step_idle hq).symm.trans h)
    rfl

/-- Settles O1. -/
theorem stepRunsFront : Obligations.StepRunsFront := step_front

/-- Settles O2: the cycle of the management clock is left out exactly where power-on reset is held. -/
theorem idleStepIsOneCycle : Obligations.IdleStepIsOneCycle := by
  refine fun s hq => ⟨fun hl => ?_, fun hl => ?_⟩
  · have hs : asleep s.dev = false := hl
    simp [step_idle hq, idle, hs]
  · have hs : asleep s.dev = true := by simpa [listens] using hl
    simp [step_idle hq, idle, hs]

/-- Settles O5: the tables are empty at reset. -/
theorem resetStateIsSound : Obligations.ResetStateIsSound := by
  have h : soundDev State.reset.dev := ⟨.nil, .nil, .nil, .nil, .nil, .nil⟩
  exact ⟨⟨h, h⟩, rfl, rfl⟩

/-- Settles O18: settling keeps what kept names. -/
theorem settlingKeepsControlState : Obligations.SettlingKeepsControlState := by
  intro s d
  have h : kept (rest d) = kept d := rest_kept d
  simp only [kept, Prod.mk.injEq] at h
  simp only [State.after, h, and_self]

end Sys2Proof.Machine
end

section
/-!
PROOFS. The checks of an admin command before its own (R521), what HOLD refuses (R398), and what Quarantine and a held sequencer
do to commands (R60, R410).
-/
namespace Sys2Proof.Machine

open Sys2Proof

/-! ### An admin entry whose turn it is -/

theorem runAdmin_ready {i : Instr} {op : Nat} {p : Perm} {f : FnId} {e : Desc} {body : FnId → Dev → AdmRes} {d : Dev}
    (ho : e.opcode = op) (hr : admReady d f e = true) :
    runAdmin i op p f e body d = match admStep f e p body (entryTaken f d) with
      | .done st r r2 d2 => postAcq f (admCqe e st r r2) d2
      | .later ids d2 => waiting op f e ids d2 := by
  simp only [admReady, Bool.and_eq_true, Bool.not_eq_true'] at hr
  obtain ⟨hturn, hseq⟩ := hr
  unfold runAdmin
  rw [if_neg (by simp [ho, hturn]), if_neg (by simp [hseq])]
  rfl

/-- An admin entry whose turn it is comes to its own completion where its checks end it at once. -/
theorem lift_runAdmin_done {i : Instr} {op : Nat} {p : Perm} {f : FnId} {e : Desc} {body : FnId → Dev → AdmRes} {s : State}
    {st : Status} {r r2 : Word64} {d2 : Dev} (h : nextEntry op f e s)
    (hb : admStep f e p body (entryTaken f s.dev) = .done st r r2 d2) :
    lift (runAdmin i op p f e body) s = .next (s.after (postAcq f (admCqe e st r r2) d2)) := by
  obtain ⟨hl, ho, hr⟩ := h
  rw [lift_of_listens hl, runAdmin_ready ho hr, hb]

theorem admStep_not_permitted {f : FnId} {e : Desc} {p : Perm} {body : FnId → Dev → AdmRes} {d : Dev}
    (h : permitted d f e p = false) : admStep f e p body d = .done (refusal521 f e p) 0 0 d := by simp [admStep, h]

theorem admStep_not_found {f : FnId} {e : Desc} {p : Perm} {body : FnId → Dev → AdmRes} {d : Dev}
    (h : permitted d f e p = true) (hx : fnExists d (targetOf f e) = false) : admStep f e p body d = .done .notFound 0 0 d := by
  simp [admStep, h, hx]

theorem admStep_state {f : FnId} {e : Desc} {p : Perm} {body : FnId → Dev → AdmRes} {d : Dev} {st : Status}
    (h : permitted d f e p = true) (hx : fnExists d (targetOf f e) = true) (hs : admState d (targetOf f e) e.opcode = some st) :
    admStep f e p body d = sayEarly st (targetOf f e) e d := by
  simp [admStep, h, hx, hs]

theorem admStep_busy {f : FnId} {e : Desc} {p : Perm} {body : FnId → Dev → AdmRes} {d : Dev}
    (h : permitted d f e p = true) (hx : fnExists d (targetOf f e) = true) (hs : admState d (targetOf f e) e.opcode = none)
    (hb : (getFn d (targetOf f e)).inFlr = true ∨ ((getFn d (targetOf f e)).park ≠ .no ∧ parkAdmits e.opcode = false)) :
    admStep f e p body d = sayEarly .busy (targetOf f e) e d := by
  have hc : ((getFn d (targetOf f e)).inFlr || ((getFn d (targetOf f e)).park ≠ .no && !parkAdmits e.opcode)) = true := by
    simpa using hb
  simp only [admStep, h, hx, hs, hc]
  rfl

/-- Of the commands that are rows of R61, those of FABRIC_MGMT's opcode are the owner's. -/
theorem adminOf_fabricMgmt {c : Instr} {p : Perm} {f : FnId} {e : Desc} (h : adminOf c = some (0x49, p, f, e)) : p = .owner := by
  cases c with
  | fabricMgmtRecv =>
    simp only [adminOf] at h
    split at h
    · cases h; rfl
    · cases h
  | setMode => simp [adminOf] at h
  | setModeDeviceReset => simp [adminOf] at h
  | _ => cases h

/-- Settles O9: each check of admStep is reached where those before it pass. -/
theorem adminChecksComeInOrder : Obligations.AdminChecksComeInOrder := by
  intro c op p f e s hc hn d t
  obtain ⟨body, hexec⟩ := exec_admin s hc
  have hop : e.opcode = op := hn.2.1
  have hdone {st : Status} {r r2 : Word64} {d2 : Dev} (hb : admStep f e p body d = .done st r r2 d2) :
      exec c s = .next (s.after (postAcq f (admCqe e st r r2) d2)) := hexec.trans (lift_runAdmin_done hn hb)
  refine ⟨fun hp h49 hown => ?_, fun hp hother => ?_, fun hp hx => ?_, fun st hp hx hs => ?_, fun hp hx hs hb => ?_⟩
  · have howner : p = .owner := adminOf_fabricMgmt (h49 ▸ hc)
    refine hdone ((admStep_not_permitted hp).trans ?_)
    rw [refusal521, if_pos ⟨howner, hop.trans h49, hown⟩]
  · refine hdone ((admStep_not_permitted hp).trans ?_)
    rw [refusal521, if_neg fun ⟨_, h49, hown⟩ => hother ⟨hop.symm.trans h49, hown⟩]
  · exact hdone (admStep_not_found hp hx)
  · exact hdone (admStep_state hp hx hs)
  · exact hdone (admStep_busy hp hx hs hb)

/-! ### HOLD (R398) -/

theorem aqCfgWrite_held {f : FnId} {w : Wr} {d : Dev} (hm : meterHold d = true) (hw : wouldEnable w (getFn d f) = true) :
    aqCfgWrite f w d = d := by simp [aqCfgWrite, hm, hw]

theorem lift0_of_listens {g : Dev → Dev} {s : State} (h : listens s) : lift0 g s = .next (s.now (g s.dev)) := by
  have hs : asleep s.dev = false := h
  simp [lift0, hs, State.now]

theorem exec_aqCfgWrite (f : FnId) (w : Wr) (s : State) : exec (.aqCfgWrite f w) s = lift0 (aqCfgWrite f w) s := rfl

theorem meterHold_entryTaken (f : FnId) (d : Dev) : meterHold (entryTaken f d) = meterHold d := rfl

/-- No drain refuses UNPARK_FUNCTION, and of the modes only Configure and Replay do. -/
theorem admState_unpark {d : Dev} {t : FnId} (hm : meterHold d = true) (h1 : d.mode ≠ .configure) (h2 : d.mode ≠ .replay) :
    admState d t 0x39 = some .meterRefused := by
  simp [admState, activates, modeRefusesAdmin, meterRefusesAdmin, hm, h1, h2]

/-- Settles O20: the hold is part of the register's own check, and of step 4 of R521. -/
theorem holdRefusesActivations : Obligations.HoldRefusesActivations := by
  intro f e w s hm
  refine ⟨fun hl _ hw => ?_, fun hn hp hx h1 h2 => ?_⟩
  · rw [exec_aqCfgWrite, lift0_of_listens hl, aqCfgWrite_held hm hw]
    rfl
  · obtain ⟨-, -, -, hstate, -⟩ := adminChecksComeInOrder (.unparkFunction f e) 0x39 .pfForItsFns f e s rfl hn
    refine hstate .meterRefused hp hx ?_
    rw [hn.2.1]
    exact admState_unpark hm h1 h2

/-! ### Quarantine (R410) -/

theorem dbLive_quarantine {d : Dev} {f : FnId} (h : d.mode = .quarantine) : dbLive d f = false := by simp [dbLive, h]

/-- A command that leaves the device alone lets what follows at once follow. -/
theorem lift_after_same {g : Dev → Dev} {s : State} (hl : listens s) (hg : g s.dev = s.dev) : lift g s = .next (s.after s.dev) := by
  rw [lift_of_listens hl, hg]

theorem doorbells_quarantine {s : State} (hl : listens s) (hq : s.dev.mode = .quarantine) (f : FnId) (n : Fin 65536) (m : Fin 4096)
    (w : Wr) : ∀ c ∈ [Instr.sqDoorbell f n w, .aqDb f w, .acqDb f w, .cqDoorbell f n w, .eqDoorbell f m w],
      exec c s = .next (s.after s.dev) := by
  have hd : dbLive s.dev f = false := dbLive_quarantine hq
  simp only [List.forall_mem_cons, exec_sqDoorbell, exec_aqDb, exec_acqDb, exec_cqDoorbell, exec_eqDoorbell, execSqDoorbell, execAqDb,
    execAcqDb, execCqDoorbell, execEqDoorbell, lift_of_listens hl]
  cases dbValue w <;> simp [hd]

theorem admTurn_quarantine {d : Dev} {f : FnId} {e : Desc} (h : d.mode = .quarantine) : admTurn d f e = false := by
  simp [admTurn, h]

theorem runAdmin_not_turn {i : Instr} {op : Nat} {p : Perm} {f : FnId} {e : Desc} {body : FnId → Dev → AdmRes} {d : Dev}
    (h : admTurn d f e = false) : runAdmin i op p f e body d = d := by simp [runAdmin, h]

/-! ### While a COMMAND holds the sequencer (R60) -/

theorem runAdmin_held {i : Instr} {op : Nat} {p : Perm} {f : FnId} {e : Desc} {body : FnId → Dev → AdmRes} {d : Dev}
    (ho : e.opcode = op) (ht : admTurn d f e = true) (hs : seqHeld d = true) :
    runAdmin i op p f e body d = if d.svc.cmds.any (·.row == some i) then d else queueRow i d := by
  simp [runAdmin, ho, ht, hs]

theorem runCmds_held (m : Dev) (n : Nat) {d : Dev} (h : seqHeld d = true) : runCmds m n d = d := by
  cases n with
  | zero => rfl
  | succ n => rw [runCmds]; exact if_pos h

/-- A row in front that waits for no mode is the next to be carried out. -/
theorem runCmds_row {m d : Dev} {n : Nat} {i : Instr} {r : List CmdRun} (h : d.svc.cmds = { row := some i } :: r)
    (hr : r.any (·.hold) = false) :
    runCmds m (n + 1) d = runCmds m n (runRow m i { d with svc := { d.svc with cmds := r } }) := by
  have hh : ¬ d.svc.cmds.any (·.hold) = true := by simp [h, hr]
  rw [runCmds, if_neg hh, h, List.find?_cons_of_pos (by rfl)]
  simp only [List.erase_cons_head]

/-- Settles O21: both kinds of command meet the sequencer's queue, and the doorbells and the admin ring meet the mode. -/
theorem commandsAreIgnoredInQuarantineAndWaitWhileHeld : Obligations.CommandsAreIgnoredInQuarantineAndWaitWhileHeld := by
  refine ⟨fun s hl hq => ⟨doorbells_quarantine hl hq, fun c op p f e hc => ?_⟩, fun s c hl hs => ⟨fun hm => ?_, ?_⟩,
    fun m d n h => runCmds_held m n h, fun m d n i r h hr => runCmds_row h hr⟩
  · obtain ⟨body, hexec⟩ := exec_admin s hc
    exact hexec.trans (lift_after_same hl (runAdmin_not_turn (admTurn_quarantine hq)))
  · obtain ⟨out, hexec⟩ := exec_master s hm
    exact hexec.trans (fabRow_waits hl hs)
  · intro op p f e hc ho ht
    obtain ⟨body, hexec⟩ := exec_admin s hc
    rw [hexec, lift_of_listens hl, runAdmin_held ho ht hs]
    rfl

end Sys2Proof.Machine
end

section
/-!
PROOFS. Resets (R435 to R438): what a boot's start and each reset leave, and the reset values of the field maps.
-/
namespace Sys2Proof.Machine

open Sys2Proof

/-! ### The start of a boot (R443) -/

/-- A boot's start sets the strap of RECOVERY_N, the mode and the boot's own state, and nothing else. -/
theorem bootStart_eq (recovery : Bool) (d : Dev) : bootStart recovery d =
    { d with strap := { d.strap with recovery := recovery }, mode := (bootStart recovery d).mode
             boot := (bootStart recovery d).boot } := by
  unfold bootStart
  dsimp only
  split
  · rfl
  · split <;> rfl

/-- Of the boot's state it sets the phase alone. -/
theorem bootStart_boot (recovery : Bool) (d : Dev) :
    (bootStart recovery d).boot = { d.boot with phase := (bootStart recovery d).boot.phase } := by
  unfold bootStart
  dsimp only
  split
  · rfl
  · split <;> rfl

theorem bootStart_recovery (d : Dev) : (bootStart true d).mode = .recovery ∧ (bootStart true d).boot.phase = .recovery :=
  ⟨rfl, rfl⟩

theorem bootStart_service {d : Dev} (h : d.strap.bootSrc = 1) :
    (bootStart false d).mode = d.mode ∧ (bootStart false d).boot.phase = .service := by
  simp [bootStart, h]

/-! ### Power-on reset (R436) -/

theorem exec_powerOnReset (role bs : BitVec 2) (rec' : Bool) (s : State) : exec (.powerOnReset role bs rec') s =
    .next { s with dev := powerOn role bs rec' s.dev, mir := powerOn role bs rec' s.dev } := rfl

theorem exec_internalResetRelease {s : State} (h : asleep s.dev = true) (role bs : BitVec 2) (rec' : Bool) :
    exec (.internalResetRelease role bs rec') s =
      .next { s with dev := powerOn role bs rec' s.dev, mir := powerOn role bs rec' s.dev } := by
  change execInternalResetRelease role bs rec' s = _
  rw [execInternalResetRelease, if_pos h, resetTo]

theorem powerOn_eq (role bs : BitVec 2) (rec' : Bool) (d : Dev) : powerOn role bs rec' d =
    { fuse := d.fuse, strap := { role := role, bootSrc := bs, recovery := rec' }, isl := { d.isl with acc := [] }
      out := d.out, free := d.free, boot := (powerOn role bs rec' d).boot, mode := (powerOn role bs rec' d).mode } :=
  bootStart_eq ..

theorem powerOn_boot (role bs : BitVec 2) (rec' : Bool) (d : Dev) : (powerOn role bs rec' d).boot =
    { flash := d.boot.flash, romMeas := d.boot.romMeas, keyDigest := d.boot.keyDigest, certChain := d.boot.certChain
      phase := (powerOn role bs rec' d).boot.phase } :=
  bootStart_boot ..

/-! ### Device reset (R438) -/

theorem deviceReset_eq (rec' : Bool) (d : Dev) : deviceReset rec' d =
    { fuse := d.fuse, strap := { d.strap with recovery := rec' }, isl := (flushTaps d).isl, out := (flushTaps d).out
      free := (flushTaps d).free, clk := (flushTaps d).clk, therm := { trip := (flushTaps d).therm.trip }
      jtag := { (flushTaps d).jtag with rstLow := false }
      flt := { (flushTaps d).flt with recs := (flushTaps d).flt.recs.map fun r => (r.1, { r.2 with fclass := 0 }) }
      boot := (deviceReset rec' d).boot, mode := (deviceReset rec' d).mode } := by
  have h : hard (flushTaps d) = hard d := flushTaps_hard d
  simp only [hard, Prod.mk.injEq] at h
  obtain ⟨hfuse, hstrap, -⟩ := h
  rw [← hfuse, ← hstrap]
  exact bootStart_eq ..

theorem deviceReset_boot (rec' : Bool) (d : Dev) : (deviceReset rec' d).boot =
    { flash := (flushTaps d).boot.flash, romMeas := (flushTaps d).boot.romMeas, keyDigest := (flushTaps d).boot.keyDigest
      certChain := (flushTaps d).boot.certChain, phase := (deviceReset rec' d).boot.phase } :=
  bootStart_boot ..

/-- Settles O23: a reset is a boot's start on what it keeps, and only the two resets from power-on sample the pins. -/
theorem strapsAreSampledByTheirResets : Obligations.StrapsAreSampledByTheirResets := by
  refine ⟨fun role bs rec' s => ?_, fun rec' s hl => ?_, fun s t hs hc h => ?_⟩
  · refine ⟨_, exec_powerOnReset role bs rec' s, rfl, fun ha => exec_internalResetRelease ha role bs rec', powerOn_eq ..,
      powerOn_boot .., fun hr => ?_, fun hr hb => ?_⟩
    · subst hr
      exact bootStart_recovery _
    · subst hr hb
      exact bootStart_service rfl
  · exact ⟨_, exec_deviceReset hl, rfl, deviceReset_eq .., deviceReset_boot ..⟩
  · have hfront : ∀ c, s.pending.head? = some c → samplesPins c = false := fun c hq => by
      cases c with
      | powerOnReset a b c => exact absurd hq (hc a b c).1
      | internalResetRelease a b c => exact absurd hq (hc a b c).2
      | _ => rfl
    obtain ⟨-, hpins, -⟩ := step_keeps hfront h _ (okH_devBase (p := some (pins s.dev.strap)) (fun _ q => Option.some.inj q) hs.1)
    exact Prod.mk.inj (hpins _ rfl)

/-! ### Reset values (R483) -/

/-- What a register reads straight after reset. -/
def readAtReset (off : Nat) : Word64 := readReg State.reset.dev State.reset.mir {} off

theorem readAtReset_port : ∀ n : Fin 64, readAtReset (0x10000 + n.val * 0x100) = 0xBB00010000080819 ∧
    readAtReset (0x31000 + n.val * 8) = 0x1010101010101010 ∧ readAtReset (0x32000 + n.val * 0x20) = 0 := by decide

theorem readAtReset_service : ∀ n : Fin 4, readAtReset (0x60000 + n.val * 0x20) = 0xC00000000000080A := by decide

/-- The Blotter's registers, sixteen sources at a time. -/
theorem readAtReset_fault (n : Fin 512) : readAtReset (0x5000 + n.val * 8) = 0 ∧ readAtReset (0x6000 + n.val * 8) = 0 := by
  have rows : ∀ (i : Fin 32) (j : Fin 16), readAtReset (0x5000 + (i.val * 16 + j.val) * 8) = 0 ∧
      readAtReset (0x6000 + (i.val * 16 + j.val) * 8) = 0 := by decide
  have h := rows ⟨n.val / 16, by omega⟩ ⟨n.val % 16, by omega⟩
  dsimp only at h
  rwa [Nat.div_add_mod'] at h

theorem readAtReset_calibration : ∀ n : Fin 36, readAtReset (0x8200 + n.val * 8) = 0 := by decide

/-- Settles O24: the registers of a table one table at a time, then those that stand alone. -/
theorem resetRegistersReadTheirResetValues : Obligations.ResetRegistersReadTheirResetValues := by
  refine ⟨readAtReset_port, readAtReset_service, readAtReset_fault, readAtReset_calibration, ?_⟩
  and_intros
  all_goals decide

end Sys2Proof.Machine
end

section
/-!
PROOFS. Records of errors (R411 to R413, R425) and the domain filter's drop (R51).
-/
namespace Sys2Proof.Machine

open Sys2Proof

/-! ### What a source captures (R411) -/

theorem getRec_setRec_other {k src : Nat} (h : k ≠ src) (r : FltRec) (d : Dev) : getRec (setRec src r d) k = getRec d k := by
  simp only [getRec, setRec, tget_tput_other _ _ _ _ h]

theorem reportError_masked {src cause n : Nat} {cls : FClass} {detail : Byte} {object : BitVec 24} {d : Dev}
    (h : (getRec d src).masked = true) : reportError src cls cause detail object n d = d := by simp [reportError, h]

theorem reportError_unmasked {src cause n : Nat} {cls : FClass} {detail : Byte} {object : BitVec 24} {d : Dev}
    (h : (getRec d src).masked = false) : reportError src cls cause detail object n d =
      setRec src { getRec d src with cap := some ((getRec d src).captured cls cause detail object n) } d := by simp [reportError, h]

theorem reportCorrected_masked {src n : Nat} {d : Dev} (h : (getRec d src).masked = true) : reportCorrected src n d = d := by
  simp [reportCorrected, h]

theorem reportCorrected_unmasked {src n : Nat} {d : Dev} (h : (getRec d src).masked = false) :
    reportCorrected src n d = setRec src { getRec d src with capCorr := (getRec d src).capCorr + n } d := by
  simp [reportCorrected, h]

/-! ### What the collector takes at a tick (R413) -/

theorem mem_of_tget {α : Type} : ∀ {t : Tbl α} {i : Nat} {x : α}, tget t i = some x → (i, x) ∈ t
  | (k, v) :: t, i, x, h => by
    unfold tget at h
    split at h
    · rename_i hk
      cases h
      exact hk ▸ List.mem_cons_self
    · exact List.mem_cons_of_mem _ (mem_of_tget h)

theorem samplePair_whole {n : Nat} {d : Dev} (h : (getRec d n).broken = 0) : samplePair n d = d := by simp [samplePair, h]

/-- A record of a table whose pairs are all whole is one whose pair is whole. -/
theorem getRec_whole {d : Dev} (h : ∀ x ∈ d.flt.recs, x.2.broken = 0) (n : Nat) : (getRec d n).broken = 0 := by
  unfold getRec
  cases hn : tget d.flt.recs n with
  | none => rfl
  | some r => exact h _ (mem_of_tget hn)

theorem foldl_samplePair_whole {d : Dev} (h : ∀ x ∈ d.flt.recs, x.2.broken = 0) (l : List Nat) :
    l.foldl (fun d n => samplePair n d) d = d := by
  induction l with
  | nil => rfl
  | cons n l ih => rw [List.foldl_cons, samplePair_whole (getRec_whole h n), ih]

theorem collect_whole {d : Dev} (h : ∀ x ∈ d.flt.recs, x.2.broken = 0) :
    collect d = (d.flt.recs.map (·.1)).foldl (fun d n => takeReport n d) d := by
  unfold collect
  rw [foldl_samplePair_whole h]

theorem takeReport_ignored {src : Nat} {d : Dev} (h : (getRec d src).masked = true ∨ 0 < (getRec d src).broken) :
    takeReport src d = d := by
  have hc : ((getRec d src).masked || decide (0 < (getRec d src).broken)) = true := by simpa using h
  rw [takeReport]
  exact if_pos hc

/-- The device once the corrected errors of a report are counted. -/
def corrTaken (src : Nat) (d : Dev) : Dev := if (getRec d src).capCorr = 0 then d else takeCorrected src d

theorem takeReport_none {src : Nat} {d : Dev} (hm : (getRec d src).masked = false) (hb : (getRec d src).broken = 0)
    (hc : (getRec d src).cap = none) : takeReport src d = corrTaken src d := by
  simp [takeReport, corrTaken, hm, hb, hc]

theorem takeReport_some {src : Nat} {d : Dev} {w : FltNew} (hm : (getRec d src).masked = false) (hb : (getRec d src).broken = 0)
    (hc : (getRec d src).cap = some w) : takeReport src d = takeErrors src w (corrTaken src d) := by
  simp [takeReport, corrTaken, hm, hb, hc]

/-- A report's errors, in the terms of the record before its corrected errors were counted. -/
theorem takeErrors_eq {src n : Nat} {w : FltNew} {e : Dev} {v : Bool} {c : FClass} {t : Word64} (hv : (getRec e src).valid = v)
    (hn : (getRec e src).count = n) (hc : (getRec e src).cls = c) (ht : e.clk.tsc = t) :
    takeErrors src w e =
      let q := getRec e src
      let d2 := if v then
          setRec src { q with count := satAdd 0xFFFF n w.count, merged := true, cls := if w.cls = .fatal then .fatal else c, cap := none } e
        else newRec src { q with
          valid := true, cls := w.cls, merged := false, cause := w.cause, count := w.count, time := t
          detail := w.detail, object := w.object, cap := none } e
      let d3 := inkFault src (!v) { d2 with svc := { d2.svc with notifyDue := true } }
      sendNotify (if w.cls = .fatal then enterQuarantine 3 d3 else d3) := by
  subst hv hn hc ht
  rfl

theorem getRec_takeCorrected (src : Nat) (d : Dev) : getRec (takeCorrected src d) src =
    { getRec d src with corr := satAdd 0xFFFFFFFF (getRec d src).corr (getRec d src).capCorr, capCorr := 0 } := by
  simp [takeCorrected, getRec, setRec]

/-- Counting the corrected errors leaves the rest of the record, and the clock. -/
theorem corrTaken_keeps (src : Nat) (d : Dev) :
    (getRec (corrTaken src d) src).valid = (getRec d src).valid ∧ (getRec (corrTaken src d) src).count = (getRec d src).count ∧
      (getRec (corrTaken src d) src).cls = (getRec d src).cls ∧ (corrTaken src d).clk = d.clk := by
  unfold corrTaken
  split
  · exact ⟨rfl, rfl, rfl, rfl⟩
  · rw [getRec_takeCorrected]
    exact ⟨rfl, rfl, rfl, rfl⟩

/-! ### Clearing a record (R425) -/

theorem exec_faultRecordClear {m : Master} {src : Fin 512} {s : State} (hl : listens s) (ha : atOnce m s)
    (hw : mayWrite s.dev m = true) (hk : knownSource s.dev src.val = true) :
    exec (.faultRecordClear m src) s = .next (s.now (clearRec src.val s.dev)) := by
  change execFaultRecordClear m src s = _
  rw [execFaultRecordClear, fabRow_atOnce ha, lift0_of_listens hl]
  simp [hw, hk]

theorem clearBarred_iff (d : Dev) (src : Nat) : clearBarred d src = true ↔
    d.mode = .quarantine ∧ (getRec d src).valid = true ∧ (getRec d src).cls = .fatal := by
  simp [clearBarred, and_assoc]

theorem clearRec_barred {d : Dev} {src : Nat} (h : clearBarred d src = true) : clearRec src d = d := if_pos h

theorem clearRec_not_barred {d : Dev} {src : Nat} (h : ¬ clearBarred d src = true) :
    clearRec src d = setRec src (getRec d src).cleared d := if_neg h

/-- Settles O22: what is captured, what the tick takes of it, and what a clear leaves. -/
theorem recordsKeepNewErrorsAndCounts : Obligations.RecordsKeepNewErrorsAndCounts := by
  refine ⟨fun src cls cause detail object n d => ⟨fun h => ⟨reportError_masked h, reportCorrected_masked h⟩, fun h hc => ?_,
    fun w h hc => ?_, fun h => reportCorrected_unmasked h⟩, fun d _ hb => collect_whole hb, fun src d => ?_,
    fun m src s hl ha hw hk => ?_⟩
  · rw [reportError_unmasked h, FltRec.captured, hc]
  · rw [reportError_unmasked h, FltRec.captured, hc]
  · obtain ⟨hv, hcount, hcls, hclk⟩ := corrTaken_keeps src d
    refine ⟨takeReport_ignored, fun hm hb hc => takeReport_none hm hb hc, fun w hm hb hc => ?_⟩
    exact (takeReport_some hm hb hc).trans (takeErrors_eq hv hcount hcls (congrArg Clk.tsc hclk))
  · have hbar := clearBarred_iff s.dev src.val
    rw [exec_faultRecordClear hl ha hw hk]
    refine ⟨fun h => ?_, fun h => ⟨_, rfl, ?_⟩⟩
    · rw [clearRec_barred (hbar.mpr h)]
      rfl
    · rw [clearRec_not_barred (mt hbar.mp h)]
      refine ⟨?_, fun k hk => getRec_setRec_other hk _ _, rfl⟩
      have hget : getRec (s.now (setRec src.val (getRec s.dev src.val).cleared s.dev)).dev src.val =
        (getRec s.dev src.val).cleared := getRec_setRec ..
      rw [hget]
      exact ⟨rfl, rfl, rfl, rfl, rfl, rfl, rfl, rfl, rfl, rfl, rfl, rfl⟩

/-! ### The domain filter (R51) -/

theorem fnKey_injective : fnKey.Injective := by
  rintro ⟨p, a⟩ ⟨q, b⟩ h
  simp only [fnKey] at h
  simp only [FnId.mk.injEq, Fin.ext_iff]
  omega

theorem getFn_updFn_other {f g : FnId} (h : g ≠ f) (u : Fn → Fn) (d : Dev) : getFn (updFn f u d) g = getFn d g := by
  simp only [getFn, updFn, setFn, tget_tput_other _ _ _ _ (fnKey_injective.ne h)]

/-- A drop touches the function's count and the record of its port's filter alone. -/
theorem domainDrop_eq (f : FnId) (d : Dev) : domainDrop f d =
    { d with fns := (domainDrop f d).fns, flt := { d.flt with recs := (domainDrop f d).flt.recs } } := by
  unfold domainDrop report reportError
  dsimp only
  split <;> rfl

theorem domainDrop_fns (f : FnId) (d : Dev) :
    (domainDrop f d).fns = (updFn f (fun x => { x with domDrop := x.domDrop + 1 }) d).fns := by
  unfold domainDrop report reportError
  dsimp only
  split <;> rfl

theorem getFn_domainDrop (f g : FnId) (d : Dev) :
    getFn (domainDrop f d) g = getFn (updFn f (fun x => { x with domDrop := x.domDrop + 1 }) d) g := by
  rw [getFn, domainDrop_fns]
  rfl

theorem domainDrop_flt (f : FnId) (d : Dev) :
    (domainDrop f d).flt = (reportError (srcDomain f.port.val) .contained caDomain 0 (fnObject f) 1 d).flt := by
  unfold domainDrop report reportError
  dsimp only
  split <;> split <;> rename_i h k
  · rfl
  · exact absurd h k
  · exact absurd k h
  · rfl

theorem getRec_domainDrop (f : FnId) (d : Dev) (k : Nat) :
    getRec (domainDrop f d) k = getRec (reportError (srcDomain f.port.val) .contained caDomain 0 (fnObject f) 1 d) k := by
  rw [getRec, domainDrop_flt]
  rfl

theorem arrived_flt (it : Item) (mine : Bool) (key : InkKey) (bs : List Byte) (d : Dev) : (arrived it mine key bs d).flt = d.flt := by
  obtain ⟨_, _, h⟩ := arrived_same it mine key bs d
  rw [h]

theorem getRec_arrived (it : Item) (mine : Bool) (key : InkKey) (bs : List Byte) (d : Dev) (k : Nat) :
    getRec (arrived it mine key bs d) k = getRec d k := by rw [getRec, arrived_flt]; rfl

theorem exec_putPacket (p : Packet) (s : State) : exec (.putPacket p) s = arrive (fun p => p.ptype = ptPut) arriveConn p s := rfl
theorem exec_putFlagPacket (p : Packet) (s : State) : exec (.putFlagPacket p) s = arrive (fun p => p.ptype = ptPutFlag) arriveConn p s := rfl
theorem exec_getReq (p : Packet) (s : State) : exec (.getReq p) s = arrive (fun p => p.ptype = ptGetReq) arriveConn p s := rfl
theorem exec_getResp (p : Packet) (s : State) : exec (.getResp p) s = arrive (fun p => p.ptype = ptGetResp) arriveConn p s := rfl
theorem exec_atomicReq (p : Packet) (s : State) : exec (.atomicReq p) s = arrive (fun p => p.ptype = ptAtomicReq) arriveConn p s := rfl
theorem exec_sendPacket (p : Packet) (s : State) : exec (.sendPacket p) s = arrive (fun p => p.ptype = ptSend && skind p != 2) arriveConn p s := rfl
theorem exec_rendezvousFinish (p : Packet) (s : State) : exec (.rendezvousFinish p) s = arrive (fun p => p.ptype = ptSend && skind p == 2) arriveConn p s := rfl
theorem exec_notePacket (p : Packet) (s : State) : exec (.notePacket p) s = arrive (fun p => p.ptype = ptNote) arriveNote p s := rfl

/-- A packet of a type its row takes is taken in outside Quarantine, unless a checkpoint holds it. -/
theorem arrive_taken {ok : Packet → Bool} {go : Packet → Dev → Dev} {p : Packet} {s : State} (hl : listens s)
    (hm : s.dev.mode ≠ .quarantine) (hi : (pktRecorded s.dev p && inkHolds s.dev) = false) (ho : ok p = true) :
    arrive ok go p s = .next (s.after (go p (pktArrived p s.dev))) := by
  rw [arrive, lift_of_listens hl, if_pos (by simp [ho, hm]), inkArrive_arrived hi]
  rfl

theorem arrive_quarantine {ok : Packet → Bool} {go : Packet → Dev → Dev} {p : Packet} {s : State} (hl : listens s)
    (hm : s.dev.mode = .quarantine) : arrive ok go p s = .next (s.after s.dev) := by
  rw [arrive, lift_of_listens hl, if_neg (by simp [hm])]

section

variable {p : Packet} {d : Dev} (hc : pktCrc p = p.crc) (hx : fnExists d (epFn p.rh.dest) = true)
  (hd : p.rh.domain ≠ (getFn d (epFn p.rh.dest)).domain)

include hc hx hd

theorem arriveConn_foreign : arriveConn p d = domainDrop (epFn p.rh.dest) d := by simp [arriveConn, hc, hx, hd]

theorem arriveNote_foreign : arriveNote p d = domainDrop (epFn p.rh.dest) d := by simp [arriveNote, hc, hx, hd]

end

/-- Settles O19: every row's packet meets the filter before anything of its own. -/
theorem domainFilterDropsForeignPackets : Obligations.DomainFilterDropsForeignPackets := by
  refine fun p s hl => ⟨fun hm hi hc hx hd => ?_, fun hm => ?_⟩
  · have hx' : fnExists (pktArrived p s.dev) (epFn p.rh.dest) = true := (fnExists_arrived ..).trans hx
    have hfn : ∀ g, getFn (pktArrived p s.dev) g = getFn s.dev g := getFn_arrived _ _ _ _ _
    have hrec : ∀ k, getRec (pktArrived p s.dev) k = getRec s.dev k := getRec_arrived _ _ _ _ _
    have hd' : p.rh.domain ≠ (getFn (pktArrived p s.dev) (epFn p.rh.dest)).domain := by rwa [hfn]
    have conn := arriveConn_foreign hc hx' hd'
    have note := arriveNote_foreign hc hx' hd'
    refine ⟨?_, domainDrop_eq .., ?_, fun g hg => ?_, fun hmask => ?_, fun hmask => ?_, fun k hk => ?_⟩
    · simp only [List.forall_mem_cons, exec_putPacket, exec_putFlagPacket, exec_getReq, exec_getResp, exec_atomicReq, exec_sendPacket, exec_rendezvousFinish, exec_notePacket]
      have row {ok : Packet → Bool} {go : Packet → Dev → Dev} (ho : ok p = true)
          (hg : go p (pktArrived p s.dev) = domainDrop (epFn p.rh.dest) (pktArrived p s.dev)) :=
        (arrive_taken hl hm hi ho).trans (congrArg (fun d => Host.Outcome.next (s.after d)) hg)
      exact ⟨fun h => row (by simpa using h) conn, fun h => row (by simpa using h) conn, fun h => row (by simpa using h) conn,
        fun h => row (by simpa using h) conn, fun h => row (by simpa using h) conn, fun h => row (by simpa using h) conn,
        fun h => row (by simpa using h) conn, fun h => row (by simpa using h) note, List.forall_mem_nil _⟩
    · rw [getFn_domainDrop, getFn_updFn, hfn]
    · rw [getFn_domainDrop, getFn_updFn_other hg, hfn]
    · rw [domainDrop_flt, reportError_masked (by rwa [hrec])]
      exact arrived_flt ..
    · rw [getRec_domainDrop, reportError_unmasked (by rwa [hrec]), getRec_setRec, hrec]
    · rw [getRec_domainDrop, reportError]
      split
      · exact hrec k
      · rw [getRec_setRec_other hk, hrec]
  · simp only [List.forall_mem_cons, exec_putPacket, exec_putFlagPacket, exec_getReq, exec_getResp, exec_atomicReq, exec_sendPacket, exec_rendezvousFinish, exec_notePacket]
    exact ⟨arrive_quarantine hl hm, arrive_quarantine hl hm, arrive_quarantine hl hm, arrive_quarantine hl hm,
      arrive_quarantine hl hm, arrive_quarantine hl hm, arrive_quarantine hl hm, arrive_quarantine hl hm, List.forall_mem_nil _⟩

end Sys2Proof.Machine
end

section
/-!
PROOFS. The admin commands on queues (R62, R80): each clause names the checks that pass.
-/
namespace Sys2Proof.Machine

open Sys2Proof

/-! ### Checks that pass -/

theorem firstOf_none : ∀ {l : List (Bool × Status)}, (∀ x ∈ l, x.1 = false) → firstOf l = none
  | [], _ => rfl
  | (b, s) :: l, h => by
    have hb : b = false := h (b, s) List.mem_cons_self
    rw [firstOf, hb]
    exact firstOf_none fun x hx => h x (List.mem_cons_of_mem _ hx)

theorem guard_pass {l : List (Bool × Status)} {act : AdmRes} {d : Dev} (h : ∀ x ∈ l, x.1 = false) : guard l act d = act := by
  rw [guard, firstOf_none h]

theorem badLink_eq_false {d : Dev} {f : FnId} {link : Bool} (h : link = true → (getHp d f.port).bifurcated = true) :
    badLink d f link = false := by
  cases link with
  | false => rfl
  | true => simp [badLink, h rfl]

/-- Settles O25: each command's own checks pass. -/
theorem queueCommandsComplete : Obligations.QueueCommandsComplete := by
  refine ⟨?_, ?_, ?_, ?_, ?_, ?_⟩
  · intro f e s
    dsimp only
    intro h hlog haddr hlink hnum hroom
    refine admin_done h (guard_pass ?_)
    simp [badLink_eq_false hlink, haddr, hnum, hroom, hlog]
  · intro f e q s
    dsimp only
    intro h hq hidle
    refine admin_done h ?_
    simp [hq, hidle, say]
  · intro f e s
    dsimp only
    intro h hlog haddr hstall hlink hnum hroom
    refine admin_done h (guard_pass ?_)
    simp [badLink_eq_false hlink, haddr, hnum, hroom, hlog]
    omega
  · intro f e s
    dsimp only
    intro h hq
    refine admin_done h (guard_pass ?_)
    simp [hq]
  · intro f e s
    dsimp only
    intro h hlog haddr hlink hnum hroom
    refine admin_done h (guard_pass ?_)
    simp [badLink_eq_false hlink, haddr, hnum, hroom, hlog]
  · intro f e s
    dsimp only
    intro h hq
    refine admin_done h (guard_pass ?_)
    simpa [hq] using hq.2

end Sys2Proof.Machine
end

section
/-!
PROOFS. The admin commands on connections, match contexts, regions, translations, trees, shapers and functions (R61): each clause
names the checks that pass.
-/
namespace Sys2Proof.Machine

open Sys2Proof

/-- The wait of an admin command ends with the status and the device its end answers. -/
theorem admDone_answers {op : Nat} {f : FnId} {ready : AdmWait → Dev → Bool} {fin : AdmWait → Dev → Status × Dev} {w : AdmWait}
    {s : State} {st : Status} {d : Dev} (h : awaited op f w s) (hr : ready w s.dev = true) (hf : fin w (waitEnded f s.dev) = (st, d)) :
    lift (admDone op f ready fin) s = .next (s.after (postAcq f (admCqe w.arg st 0 0) d)) := by
  rw [admDone_ends h hr, hf]

/-- Settles O26: each command's own checks pass. -/
theorem connectionAndContextCommandsComplete : Obligations.ConnectionAndContextCommandsComplete := by
  refine ⟨?_, ?_, ?_, ?_, ?_, ?_, ?_, ?_, ?_⟩
  · intro f e s
    dsimp only
    intro h heq
    refine admin_done h (guard_pass ?_)
    cases hun : bit e.w3 23 with
    | true => simp
    | false => simpa [hun] using heq
  · intro f e q s
    dsimp only
    intro h hkind hq
    exact admin_done h (by simp only [hkind, hq, Option.map_some])
  · intro f e q s
    dsimp only
    intro h hkind hq
    exact admin_done h (by simp only [hkind, hq, Option.map_some])
  · intro f e q s
    dsimp only
    intro h hkind hq
    exact admin_done h (by simp only [hkind, hq, Option.map_some])
  · intro f e n s
    dsimp only
    intro h hrto hdom hcq hquota hhbm hfree
    refine admin_done h ?_
    dsimp only
    rw [firstOf_none]
    · simp only [hfree]
    · simp only [List.forall_mem_cons, Bool.or_eq_false_iff, Bool.not_eq_false', decide_eq_false_iff_not]
      exact ⟨by omega, hdom, hcq, ⟨hquota, hhbm⟩, nofun⟩
  · intro f e c s
    dsimp only
    intro h hc
    obtain ⟨hfor, hidle⟩ := hc
    exact admin_done h (by simp only [hfor, hidle, if_true]; rfl)
  · intro f e c s
    dsimp only
    intro h hc hrto huna
    refine admin_done h ?_
    have hbad : ((e.f 0x20 0 6).testBit 4 && decide (1 ≤ e.f 0x18 32 16 ∧ e.f 0x18 32 16 < 60)) = false := by
      simp only [Bool.and_eq_false_imp, decide_eq_false_iff_not]
      exact fun hm => by have := hrto hm; omega
    have hbusy : (((e.f 0x20 0 6).testBit 0 || (e.f 0x20 0 6).testBit 1) && decide (c.una ≠ c.next)) = false := by
      simpa using huna
    simp only [hc, hbad, hbusy]
    rfl
  · intro f e m s
    dsimp only
    intro h hsize hdom hquota hhbm hfree
    refine admin_done h ?_
    dsimp only
    rw [firstOf_none]
    · simp only [hfree]
    · simp only [List.forall_mem_cons, Bool.or_eq_false_iff, decide_eq_false_iff_not]
      exact ⟨by omega, hdom, ⟨⟨hquota.1, by omega⟩, hhbm⟩, nofun⟩
  · intro f e x s
    dsimp only
    intro h hx hrecs
    obtain ⟨hget, hfn⟩ := hx
    refine admin_done h ?_
    have hopen : ((entryTaken f s.dev).mtc.recs.any
        fun r => r.mctx == e.f 0x08 0 16 && decide (r.st = .matched) && !r.closed) = false := by
      simpa [List.any_eq_false] using hrecs
    simp [hget, hfn, hopen, say]

/-- Settles O27: a command's own checks pass, or its wait is over. -/
theorem regionAndTranslationCommandsComplete : Obligations.RegionAndTranslationCommandsComplete := by
  refine ⟨?_, ?_, ?_, ?_, ?_, ?_, ?_, ?_⟩
  · intro f e i s
    dsimp only
    intro h hlen hroot hquota hhbm hnext
    refine admin_done h ?_
    dsimp only
    rw [firstOf_none]
    · simp only [hnext]
    · simp only [List.forall_mem_cons, Bool.or_eq_false_iff, Bool.not_eq_false', decide_eq_false_iff_not]
      exact ⟨by omega, hroot, ⟨hquota, hhbm⟩, nofun⟩
  · intro f e r s
    dsimp only
    intro h hr
    exact admin_later h (by simp only [hr])
  · intro f w s h
    exact admDone_ends h.1 h.2
  · intro f e s
    dsimp only
    intro h hroot hbusy
    refine admin_later h (guard_pass ?_)
    simpa using And.intro hroot hbusy
  · intro f w s
    dsimp only
    intro h
    exact admDone_ends h.1 h.2
  · intro f e s
    dsimp only
    intro h hlen hkey
    refine admin_later h (guard_pass ?_)
    simpa [Option.isSome_iff_ne_none] using And.intro hlen hkey
  · intro f w s
    dsimp only
    intro h
    exact admDone_ends h.1 h.2
  · intro f e tr s
    dsimp only
    intro h htr
    exact admin_done h (by simp only [htr]; rfl)

/-- Settles O28: a command's own checks pass, or its wait is over. -/
theorem treeShaperAndParkCommandsComplete : Obligations.TreeShaperAndParkCommandsComplete := by
  refine ⟨?_, ?_, ?_, ?_, ?_, ?_, ?_, ?_, ?_⟩
  · intro f e s
    dsimp only
    intro h hdom hnew htree
    refine admin_done h (guard_pass ?_)
    simp only [List.forall_mem_cons, decide_eq_false_iff_not]
    exact ⟨hdom, hnew, htree, nofun⟩
  · intro f e m s
    dsimp only
    intro h hm hidle
    refine admin_done h ?_
    simp only [hm, hidle]
    rfl
  · intro f e s
    dsimp only
    intro h hrate
    refine admin_done h ?_
    dsimp only
    refine if_neg ?_
    simp only [Bool.and_eq_true, decide_eq_true_eq, not_and]
    exact fun hen => by have := hrate hen; omega
  · intro f e s
    dsimp only
    intro h hkeep hout hin
    refine admin_done h ?_
    dsimp only
    rw [if_neg (by simp [hkeep]), if_neg]
    simp only [Bool.or_eq_true, Bool.and_eq_true, decide_eq_true_eq, not_or, not_and]
    exact ⟨fun hen => by have := hout hen; omega, fun hen => by have := hin hen; omega⟩
  · intro f e s
    dsimp only
    intro h hkeep
    exact admin_done h (if_pos hkeep)
  · intro f e s
    dsimp only
    intro h hidle hneed
    refine admin_later h ?_
    dsimp only
    rw [if_neg, if_neg (by omega)]
    simpa using hidle
  · intro f w s
    dsimp only
    intro h hdone
    obtain ⟨hpark, hwritten⟩ := hdone
    exact admDone_answers h (by simp [hwritten]) (if_neg (by simp [hpark]))
  · intro f e s
    dsimp only
    intro h hpark
    refine admin_later h ?_
    rw [if_neg (by simp [hpark])]
  · intro f w crcOk s
    dsimp only
    intro h hpark
    cases crcOk with
    | true => exact admDone_answers h rfl (if_neg (by simp [hpark]))
    | false => exact admDone_answers h rfl (if_neg (by simp [hpark]))

/-- Settles O29: each command's own checks pass; arbitration carries out the winner. -/
theorem functionAndModeCommandsComplete : Obligations.FunctionAndModeCommandsComplete := by
  refine ⟨?_, ?_, ?_, ?_, ?_, ?_, ?_, ?_, ?_⟩
  · intro f e s
    dsimp only
    intro h hholds hsplit
    refine admin_done h ?_
    rw [if_neg (by simp [hholds, hsplit])]
    rfl
  · intro f e q s
    dsimp only
    intro h
    exact admin_done h rfl
  · intro f e s
    dsimp only
    intro h
    exact admin_done h rfl
  · intro f e s
    dsimp only
    intro h
    exact admin_done h rfl
  · intro f e s
    dsimp only
    intro h hreset hcheck
    change execSetMode f e s = _
    rw [execSetMode, if_neg (by simp [hreset])]
    exact admin_later h (by simp only [hcheck])
  · intro f e s
    dsimp only
    intro h hreset hlease
    change execSetModeDeviceReset f e s = _
    rw [execSetModeDeviceReset, if_neg (by simp [hreset])]
    exact admin_done h (if_neg (by simp [hlease]))
  · intro r s
    dsimp only
    intro h hwin
    obtain ⟨hl, hmode⟩ := h
    change lift (arbitration s.mir) s = _
    rw [lift_of_listens hl, arbitration, if_neg hmode, arbitrate, hwin]
  · intro s h
    obtain ⟨hl, hmode⟩ := h
    change lift (arbitration s.mir) s = _
    rw [lift_of_listens hl, arbitration, if_pos hmode]
  · intro f e s
    dsimp only
    intro h hall hsrc
    obtain ⟨hknown, hbar⟩ := hsrc
    refine admin_done h ?_
    dsimp only
    rw [if_neg (by simp [hall]), if_neg (by simp [hknown]), if_neg (by simp [hbar]), clearRec_not_barred (by simp [hbar])]

end Sys2Proof.Machine
end

section
/-!
PROOFS. FABRIC_MGMT and descriptor fetches (R66, R67, R363).
-/
namespace Sys2Proof.Machine

open Sys2Proof

/-! ### FABRIC_MGMT (R363) -/

/-- An admitted command's course on the device whose step completes at once. -/
theorem runAdmin_done {i : Instr} {op : Nat} {p : Perm} {f : FnId} {e : Desc} {body : FnId → Dev → AdmRes} {s : State}
    {st : Status} {r r2 : Word64} {d : Dev} (h : admitted op p f e s)
    (hb : body (targetOf f e) (entryTaken f s.dev) = .done st r r2 d) :
    runAdmin i op p f e body s.dev = postAcq f (admCqe e st r r2) d := by
  rw [runAdmin_admitted h, hb]

/-- The same of one whose effect takes time. -/
theorem runAdmin_later {i : Instr} {op : Nat} {p : Perm} {f : FnId} {e : Desc} {body : FnId → Dev → AdmRes} {s : State}
    {ids : List Nat} {d : Dev} (h : admitted op p f e s)
    (hb : body (targetOf f e) (entryTaken f s.dev) = .later ids d) :
    runAdmin i op p f e body s.dev = waiting op f e ids d := by
  rw [runAdmin_admitted h, hb]

/-- LOCAL puts its COMMAND in front of those in hand, and waits. -/
theorem fmLocal_admitted {f : FnId} {e : Desc} {buf : List Byte} {s : State} (h : admitted 0x49 .owner f e s)
    (hfm : hostFm (entryTaken f s.dev) = true) (hbuf : e.f 0x08 0 3 = 0) :
    fmLocal f e buf s.dev = waiting 0x49 f e [] { entryTaken f s.dev with svc := { (entryTaken f s.dev).svc with
      cmds := { frame := { ftype := 0x5, payload := buf.take 1024 }, fn := f, desc := e } :: (entryTaken f s.dev).svc.cmds } } :=
  runAdmin_later h (by simp [hfm, hbuf])

theorem exec_fabricMgmtLocal {f : FnId} {e : Desc} {buf : List Byte} {s : State} (hl : listens s) (h : fmOp e = 2) :
    exec (.fabricMgmtLocal f e buf) s = .next (s.after (pumpCmds s.mir (fmLocal f e buf s.dev))) := by
  change execFabricMgmtLocal f e buf s = _
  rw [execFabricMgmtLocal, if_neg (by simp [h]), lift_of_listens hl]

/-- A COMMAND that is alone in hand and has not begun is begun. -/
theorem runCmds_begin {m d : Dev} {n : Nat} {c : CmdRun} (h : d.svc.cmds = [c]) (hh : c.hold = false) (hm : c.waitMode = none)
    (hr : c.row = none) (hs : c.started = false) :
    runCmds m (n + 1) d = runCmds m n (cmdBegin m c { d with svc := { d.svc with cmds := [] } }) := by
  rw [runCmds]
  simp [h, hh, hm, hr, hs]

theorem withCmds_of_eq {d : Dev} {l : List CmdRun} (h : d.svc.cmds = l) : { d with svc := { d.svc with cmds := l } } = d := by
  subst h; rfl

theorem pumpCmds_begin {m d : Dev} {c : CmdRun} (hd : d.svc.cmds = []) (hh : c.hold = false) (hm : c.waitMode = none)
    (hr : c.row = none) (hs : c.started = false) :
    pumpCmds m { d with svc := { d.svc with cmds := [c] } } = runCmds m 2 (cmdBegin m c d) := by
  change runCmds m (2 + 1) _ = _
  rw [runCmds_begin rfl hh hm hr hs]
  exact congrArg (fun d => runCmds m 2 (cmdBegin m c d)) (withCmds_of_eq hd)

/-! ### Descriptor fetches (R66, R67) -/

theorem exec_fetchSq {f : FnId} {n : Fin 65536} {res : List FetchRes} {q : Sq} {s : State} (hl : listens s)
    (hq : tget (getFn s.dev f).sqs n.val = some q) (hh : q.halted = none) (hs : fnSuspended s.dev f = false) :
    exec (.descriptorFetch f (.sq n) res) s = .next (s.after (wbSq f n.val (fetchSq f n res s.dev))) := by
  change execDescriptorFetch f (.sq n) res s = _
  rw [execDescriptorFetch, lift_of_listens hl]
  simp [hq, hh, hs]

theorem exec_fetchAq {f : FnId} {res : List FetchRes} {s : State} (hl : listens s)
    (hx : (getFn s.dev f).aqEnable = true ∧ (getFn s.dev f).aqHalted = none ∧ (getFn s.dev f).inFlr = false ∧
      (getFn s.dev f).fenced = false ∧ (getFn s.dev f).acqSlot = [])
    (hd : fnExists s.dev f = true ∧ s.dev.mode ≠ .quarantine ∧ s.dev.boot.phase = .running) :
    exec (.descriptorFetch f .admin res) s = .next (s.after (wbAq f (fetchAq f res s.dev))) := by
  change execDescriptorFetch f .admin res s = _
  rw [execDescriptorFetch, lift_of_listens hl]
  simp [hx, hd]

section

variable {f : FnId} {n : Fin 65536} {q : Sq} {d : Dev} (hq : tget (getFn d f).sqs n.val = some q) (hc : q.c ≠ q.p)

include hq hc

/-- An entry whose SEQ is the count's is taken in. -/
theorem fetchSq_entry {r : Desc} (hr : r.seq = q.c.toNat % 256) : fetchSq f n [.entry r] d =
    wbSq f n.val (updFn f (fun x => { x with sqs := tput x.sqs n.val { q with
      c := q.c + 1, fetched := q.fetched ++ [{ cnt := q.c, d := r, t0 := d.clk.tsc, tdb := dbTime q d.clk.tsc }] } }) d) := by
  simp [fetchSq, hq, hc, hr]

theorem fetchSq_mismatch {r : Desc} (hr : r.seq ≠ q.c.toNat % 256) : fetchSq f n [.entry r] d =
    postHalted f (.sq n) .sqSeqMismatch (badDesc f n.val q.cq (some r) .sqSeqMismatch
      (updFn f (fun x => { x with sqs := tput x.sqs n.val { q with c := q.c + 1, halted := some .sqSeqMismatch } }) d)) := by
  simp [fetchSq, hq, hc, hr, beyond, flushDescs, fetchFaults]

theorem fetchSq_failed (aer : Fin 32) : fetchSq f n [.failed aer] d =
    postHalted f (.sq n) .ringReadError (badDesc f n.val q.cq none .ringReadError
      (haltSq f n.val .ringReadError (pcieError f aer.val d))) := by
  simp [fetchSq, hq, hc, beyond, flushDescs, fetchFaults, fetchFault]

end

/-- No count is written back that has advanced by less than 16 while slots are left. -/
theorem wbSq_not_due {f : FnId} {n : Nat} {q : Sq} {d : Dev} (hq : tget (getFn d f).sqs n = some q) (hp : q.c ≠ q.p)
    (hw : (q.c - q.lastWb).toNat < 16) : wbSq f n d = d := by
  rw [wbSq, hq]
  refine if_neg ?_
  rw [Bool.or_eq_true, decide_eq_true_eq, decide_eq_true_eq]
  exact not_or.mpr ⟨hp, by omega⟩

theorem wbAq_not_due {f : FnId} {d : Dev} (hp : (getFn d f).aqC ≠ (getFn d f).aqP)
    (hw : ((getFn d f).aqC - (getFn d f).aqLastWb).toNat < 16) : wbAq f d = d := by
  rw [wbAq]
  exact if_neg fun ⟨_, h⟩ => h.elim (fun he => hp he) (fun hd => absurd hd (Nat.not_le.mpr hw))

theorem fetchAq_entry {f : FnId} {r : Desc} {d : Dev} (hc : (getFn d f).aqC ≠ (getFn d f).aqP)
    (hr : r.seq = (getFn d f).aqC.toNat % 256) : fetchAq f [.entry r] d =
      wbAq f (setFn f { getFn d f with aqC := (getFn d f).aqC + 1, admFetched := (getFn d f).admFetched ++ [r] } d) := by
  simp [fetchAq, hc, hr]

theorem fetchAq_mismatch {f : FnId} {r : Desc} {d : Dev} (hc : (getFn d f).aqC ≠ (getFn d f).aqP)
    (hr : r.seq ≠ (getFn d f).aqC.toNat % 256) : fetchAq f [.entry r] d =
      postHalted f .admin .sqSeqMismatch (badAdmin f (some r) .sqSeqMismatch
        (setFn f { getFn d f with aqC := (getFn d f).aqC + 1, aqHalted := some .sqSeqMismatch } d)) := by
  simp [fetchAq, hc, hr, beyond, fetchFaults]

/-- Settles O30: FABRIC_MGMT's own checks pass, and each fetch is of the one slot it brings. -/
theorem fabricMgmtAndFetchComplete : Obligations.FabricMgmtAndFetchComplete := by
  refine ⟨?_, ?_, ?_, ?_, ?_, ?_, ?_, ?_, ?_, ?_, ?_, ?_⟩
  · intro f e buf s
    dsimp only
    intro h hop hfm hlen
    obtain ⟨hlen, hbuf⟩ := hlen
    change execFabricMgmtSend f e buf s = _
    rw [execFabricMgmtSend, if_neg (by omega), lift_of_listens h.1, fmSend, runAdmin_done h]
    dsimp only
    rw [if_neg (by omega), if_neg (by simp [hfm]), if_neg]
    · rfl
    · simp only [Bool.or_eq_true, decide_eq_true_eq]
      omega
  · intro f e fr more s
    dsimp only
    intro h hop hbuf hrx
    change execFabricMgmtRecv f e s = _
    rw [execFabricMgmtRecv, if_neg (by simp [hop])]
    exact admin_done h (by simp only [hbuf, hrx]; rfl)
  · intro f e s
    dsimp only
    intro h hop hbuf hrx
    change execFabricMgmtRecv f e s = _
    rw [execFabricMgmtRecv, if_neg (by simp [hop])]
    exact admin_done h (by simp only [hbuf, hrx]; rfl)
  · intro f e buf s
    dsimp only
    intro h hop hfm hbuf
    rw [exec_fabricMgmtLocal h.1 hop, fmLocal_admitted h hfm hbuf]
  · intro f e buf s
    dsimp only
    intro h hop hfm hidle
    obtain ⟨hbuf, hcmds⟩ := hidle
    rw [exec_fabricMgmtLocal h.1 hop, fmLocal_admitted h hfm hbuf, hcmds]
    exact congrArg (fun d => Host.Outcome.next (s.after d)) (pumpCmds_begin (d := waiting 0x49 f e [] (entryTaken f s.dev)) hcmds
      rfl rfl rfl rfl)
  · intro f n r q s hl hq hrun hseq
    obtain ⟨hhalt, hsusp, hcp⟩ := hrun
    obtain ⟨hr, hp, hw⟩ := hseq
    rw [exec_fetchSq hl hq hhalt hsusp, fetchSq_entry hq hcp hr]
    have hget : tget (getFn (updFn f (fun x => { x with sqs := tput x.sqs n.val { q with
      c := q.c + 1, fetched := q.fetched ++ [{ cnt := q.c, d := r, t0 := s.dev.clk.tsc, tdb := dbTime q s.dev.clk.tsc }] } }) s.dev) f).sqs
        n.val = some { q with
      c := q.c + 1, fetched := q.fetched ++ [{ cnt := q.c, d := r, t0 := s.dev.clk.tsc, tdb := dbTime q s.dev.clk.tsc }] } := by
      rw [getFn_updFn, tget_tput_same]
    rw [wbSq_not_due hget hp hw, wbSq_not_due hget hp hw]
  · intro f n r q s hl hq hrun hr
    obtain ⟨hhalt, hsusp, hcp⟩ := hrun
    rw [exec_fetchSq hl hq hhalt hsusp, fetchSq_mismatch hq hcp hr]
  · intro f n aer q s hl hq hrun
    obtain ⟨hhalt, hsusp, hcp⟩ := hrun
    rw [exec_fetchSq hl hq hhalt hsusp, fetchSq_failed hq hcp]
  · intro f n res q s hl hq hrun
    exact exec_fetchSq hl hq hrun.1 hrun.2
  · intro f r s
    dsimp only
    intro hl hx hd hseq
    obtain ⟨hcp, hr, hp, hw⟩ := hseq
    rw [exec_fetchAq hl hx hd, fetchAq_entry hcp hr]
    have hdue : wbAq f (setFn f { getFn s.dev f with
        aqC := (getFn s.dev f).aqC + 1, admFetched := (getFn s.dev f).admFetched ++ [r] } s.dev) =
      setFn f { getFn s.dev f with aqC := (getFn s.dev f).aqC + 1, admFetched := (getFn s.dev f).admFetched ++ [r] } s.dev :=
      wbAq_not_due (by rw [getFn_setFn]; exact hp) (by rw [getFn_setFn]; exact hw)
    rw [hdue, hdue]
  · intro f r s
    dsimp only
    intro hl hx hd hseq
    rw [exec_fetchAq hl hx hd, fetchAq_mismatch hseq.1 hseq.2]
  · intro f res s
    dsimp only
    exact exec_fetchAq

end Sys2Proof.Machine
end

section
/-!
PROOFS. Work descriptors (R71 to R73, R124 to R127, R167 to R170, R204, R205) and the doorbells (R65, R68, R69).
-/
namespace Sys2Proof.Machine

open Sys2Proof

/-! ### Work on connections -/

/-- An operation whose checks pass and whose destination can be reached is made an operation of its connection. -/
theorem goConn_ok {kind : OpKind} {w : Start} {c : Conn} {d : Dev} (h : connStatus d w.fn w.e = .ok c) (hr : reachable d c.peer = true) :
    goConn kind w d = startOp w.e.conn (newOp w kind (if kind = .atomic then 8 else w.e.length)) d := by
  simp [goConn, h, hr]

theorem goConn_starts {op : Nat} {kind : OpKind} {f : FnId} {sq : Fin 65536} {e : Desc} {q : Sq} {y : Fetched} {c : Conn} {s : State}
    (hs : starts op f sq e q y s) (hc : connStatus (descTaken op f sq e q y s.dev) f e = .ok c)
    (hr : reachable (descTaken op f sq e q y s.dev) c.peer = true) :
    lift (startWork op f sq e (goConn kind)) s = .next (s.after (startOp e.conn
      (newOp (startOf f sq e q y s.dev) kind (if kind = .atomic then 8 else e.length)) (descTaken op f sq e q y s.dev))) := by
  rw [startWork_starts _ hs, goConn_ok (w := startOf f sq e q y s.dev) hc hr]
  rfl

/-- Settles O31: each opcode's own start. -/
theorem workOnConnectionsComplete : Obligations.WorkOnConnectionsComplete := by
  refine ⟨?_, ?_, ?_, ?_, ?_, ?_, ?_⟩
  · intro f sq e q y c s
    exact goConn_starts (kind := .put)
  · intro f sq e q y c s
    exact goConn_starts (kind := .putFlag)
  · intro f sq e q y c s
    exact goConn_starts (kind := .get)
  · intro f sq e q y c s
    exact goConn_starts (kind := .atomic)
  · intro f sq e q y c s d w hs hc hr
    refine (goConn_starts (kind := if byRendezvous e then .sendRts else .sendEager) hs hc hr).trans ?_
    cases byRendezvous e <;> rfl
  · intro f sq e q y s
    exact startWork_starts _
  · intro f sq e q y s
    exact startWork_starts _

/-! ### Work on contexts -/

/-- The posted receive of a POST_RECV that passed its checks. -/
def postedOf (w : Start) (x : Mctx) : Posted :=
  { seq := x.postSeq, tag := w.e.remoteVa, ignore := w.e.ignore, va := w.e.w2, key := w.e.localKey, len := w.e.length,
    source := w.e.source, anySource := w.e.anySource, wild := w.e.anySource || w.e.ignore != 0, mctx := w.e.mctx, fn := w.fn,
    sq := w.sq, cnt := w.cnt, cq := w.cq, userCtx := w.e.userCtx }

/-- The device once the unexpected messages of its context have been searched for it. -/
def recvSearched (w : Start) (x : Mctx) (d : Dev) : Dev :=
  setMctx w.e.mctx { x with postSeq := x.postSeq + 1 } (noteSearch w.fn (msgsExamined d w.e.mctx (postedOf w x)) d)

/-- What a NOTE's payload is read by. -/
def noteAccess (w : Start) : Access :=
  { fn := w.fn, key := w.e.localKey, va := w.e.localVa, len := w.e.length, right := .localRead, sq := w.sq,
    cont := .noteRead w.sq w.cnt w.e }

section

variable {w : Start} {d : Dev}

theorem goRecv_refused {st : Status} (h : recvStatus d w.fn w.e = .error st) : goRecv w d = endStart w st 0 0 d := by rw [goRecv, h]

theorem goRecv_matched {x : Mctx} {r : MsgRec} (h : recvStatus d w.fn w.e = .ok x)
    (hs : selectMsg (recvSearched w x d) w.e.mctx (postedOf w x) = some r) :
    goRecv w d = joinMsg r.id (postedOf w x) (recvSearched w x d) := by
  rw [recvSearched, postedOf] at hs
  simp only [goRecv, h, hs]
  rfl

theorem goRecv_posted {x : Mctx} (h : recvStatus d w.fn w.e = .ok x)
    (hs : selectMsg (recvSearched w x d) w.e.mctx (postedOf w x) = none) :
    goRecv w d =
      let ix := takeFree (recvSearched w x d)
      let p := { postedOf w x with ix := ix.1.toNat % 2 ^ 22, app := ix.2.xpt.nextId }
      setMctx w.e.mctx { x with postSeq := x.postSeq + 1, posted := x.posted ++ [p] }
        { ix.2 with xpt := { ix.2.xpt with nextId := ix.2.xpt.nextId + 1 } } := by
  rw [recvSearched, postedOf] at hs
  simp only [goRecv, h, hs]
  rfl

theorem goNote_ok {r : Region} (h : noteStatus d w.fn w.e = .ok r) :
    goNote w d = if w.e.length = 0 then readDone (noteAccess w) [] d else askChecked (noteAccess w) r d := by
  simp only [goNote, h]
  rfl

theorem goColl_ok (h : collStatus d w.fn w.e = none) :
    goColl w d =
      let r : CollReq := { fn := w.fn, sq := w.sq, cnt := w.cnt, cq := w.cq, cls := w.cls, desc := w.e }
      updFn w.fn (fun x => { x with trees := tmod x.trees w.e.tree fun m => { m with waitQ := m.waitQ ++ [r] } }) d := by
  simp only [goColl, h]

end

/-- R169: the context's own limit, or the device's, is the last of a receive's checks. -/
theorem recvStatus_full {d : Dev} {f : FnId} {e : Desc} {x : Mctx} {g : Region} (hst : refusedByState d f = none) (hsig : e.signal = true)
    (hx : getMctx d e.mctx = some x) (hf : x.fn = f) (hlost : x.st ≠ .lost)
    (hg : checkRegion d f e.localKey e.localVa e.length .localWrite = .ok g)
    (hfull : (x.maxPosted ≠ 0 ∧ x.maxPosted ≤ postedIn d e.mctx x) ∨ 4194304 ≤ postedUsed d) :
    recvStatus d f e = .error .noResources := by
  simp [recvStatus, hst, hsig, hx, hf, hlost, hg, hfull]

/-- What a work descriptor that starts leaves, from what its own course makes of the device. -/
theorem starts_leaves {op : Nat} {f : FnId} {sq : Fin 65536} {e : Desc} {q : Sq} {y : Fetched} {s : State} {go : Start → Dev → Dev}
    {d : Dev} (hs : starts op f sq e q y s) (hd : go (startOf f sq e q y s.dev) (descTaken op f sq e q y s.dev) = d) :
    lift (startWork op f sq e go) s = .next (s.after d) := by
  rw [startWork_starts go hs, hd]

/-- Settles O32: each check of a receive, a NOTE and a COLL, and where it goes past them. -/
theorem workOnContextsComplete : Obligations.WorkOnContextsComplete := by
  refine ⟨?_, ?_, ?_, ?_, ?_, ?_, ?_⟩
  · intro f sq e q y x r s d p d1 hs hx hsel
    exact starts_leaves hs (goRecv_matched (w := startOf f sq e q y s.dev) hx hsel)
  · intro f sq e q y x s d p d1 ix p1 hs hx hsel
    exact starts_leaves hs (goRecv_posted (w := startOf f sq e q y s.dev) hx hsel)
  · intro f sq e q y x g s d hs hst hx hg hfull
    obtain ⟨hdrain, hsig⟩ := hst
    obtain ⟨hget, hfn, hlost⟩ := hx
    have hno : recvStatus d f e = .error .noResources := recvStatus_full hdrain hsig hget hfn hlost hg hfull
    exact starts_leaves hs (goRecv_refused (w := startOf f sq e q y s.dev) hno)
  · intro f sq e q y st s d hs hst
    exact starts_leaves hs (goRecv_refused (w := startOf f sq e q y s.dev) hst)
  · intro f sq e q y r s d a hs hr hlen
    exact starts_leaves hs ((goNote_ok (w := startOf f sq e q y s.dev) hr).trans (if_neg hlen))
  · intro f sq e q y r s d a hs hr hlen
    exact starts_leaves hs ((goNote_ok (w := startOf f sq e q y s.dev) hr).trans (if_pos hlen))
  · intro f sq e q y s d r hs hst
    exact starts_leaves hs (goColl_ok (w := startOf f sq e q y s.dev) hst)

/-! ### Doorbells -/

/-- A count beyond a ring's room is refused (R65). -/
theorem dbAdvance_beyond {log2 : Nat} {p c count : Word32} (h : 2 ^ log2 - (p - c).toNat < (count - p).toNat) :
    dbAdvance log2 p c count = .error () := by
  simp only [dbAdvance]
  rw [if_neg (by omega), if_neg (by omega)]

/-- Settles O33: each doorbell's checks pass. -/
theorem doorbellsComplete : Obligations.DoorbellsComplete := by
  refine ⟨?_, ?_, ?_, ?_, ?_⟩
  · intro f n w q count arm p s
    dsimp only
    intro ⟨hl, hd⟩ hw ⟨hq, hh⟩ hp
    simp only [exec_sqDoorbell, execSqDoorbell, lift_of_listens hl, hw, hd, hq, hh, hp]
    rfl
  · intro f w count arm p s
    dsimp only
    intro ⟨hl, hd⟩ hw ⟨ha, hh⟩ hp
    simp only [exec_aqDb, execAqDb, lift_of_listens hl, hw, hd, ha, hh, hp]
    rfl
  · intro f w count arm s
    dsimp only
    intro ⟨hl, hd⟩ hw ⟨ha, hc⟩
    simp only [exec_acqDb, execAcqDb, lift_of_listens hl, hw, hd, ha, hc]
    rfl
  · intro f n w q count arm s
    dsimp only
    intro ⟨hl, hd⟩ hw ⟨hq, hc⟩
    simp only [exec_cqDoorbell, execCqDoorbell, lift_of_listens hl, hw, hd, hq, hc]
    rfl
  · intro f n w r count arm s
    dsimp only
    intro ⟨hl, hd⟩ hw ⟨hr, hc⟩
    simp only [exec_eqDoorbell, execEqDoorbell, lift_of_listens hl, hw, hd, hr, hc]
    rfl

/-- Settles O34: each of the checks that fail, after those before it. -/
theorem doorbellsOutOfPlace : Obligations.DoorbellsOutOfPlace := by
  refine ⟨?_, ?_, ?_, ?_, ?_, ?_, ?_, ?_, ?_, ?_, ?_⟩
  · intro f n w q count arm s
    dsimp only
    intro ⟨hl, hd⟩ hw ⟨hq, hh⟩ hc
    simp only [exec_sqDoorbell, execSqDoorbell, lift_of_listens hl, hw, hd, hq, hh, dbAdvance_beyond hc]
    rfl
  · intro f n w count arm s
    dsimp only
    intro ⟨hl, hd⟩ hw hh
    simp only [exec_sqDoorbell, execSqDoorbell, lift_of_listens hl, hw, hd]
    cases hq : tget (getFn s.dev f).sqs n.val with
    | none => rfl
    | some q =>
      rw [hq, Option.all_some] at hh
      simp only [hh]
      rfl
  · intro f n w q count arm s
    dsimp only
    intro ⟨hl, hd⟩ hw ⟨hq, hc⟩
    simp only [exec_cqDoorbell, execCqDoorbell, lift_of_listens hl, hw, hd, hq, hc]
    rfl
  · intro f n w r count arm s
    dsimp only
    intro ⟨hl, hd⟩ hw ⟨hr, hc⟩
    simp only [exec_eqDoorbell, execEqDoorbell, lift_of_listens hl, hw, hd, hr, hc]
    rfl
  · intro f n w count arm s
    dsimp only
    intro ⟨hl, hd⟩ hw hq
    simp only [exec_cqDoorbell, execCqDoorbell, lift_of_listens hl, hw, hd, hq]
    rfl
  · intro f n w count arm s
    dsimp only
    intro ⟨hl, hd⟩ hw hq
    simp only [exec_eqDoorbell, execEqDoorbell, lift_of_listens hl, hw, hd, hq]
    rfl
  · intro f w count arm s
    dsimp only
    intro ⟨hl, hd⟩ hw ⟨ha, hh⟩ hc
    simp only [exec_aqDb, execAqDb, lift_of_listens hl, hw, hd, ha, hh, dbAdvance_beyond hc]
    rfl
  · intro f w count arm s
    dsimp only
    intro ⟨hl, hd⟩ hw ⟨ha, hh⟩
    simp only [exec_aqDb, execAqDb, lift_of_listens hl, hw, hd, ha, hh]
    rfl
  · intro f w s
    dsimp only
    intro hl ha
    simp only [exec_aqDb, execAqDb, lift_of_listens hl, ha]
    cases dbValue w <;> simp
  · intro f w count arm s
    dsimp only
    intro ⟨hl, hd⟩ hw ⟨ha, hc⟩
    simp only [exec_acqDb, execAcqDb, lift_of_listens hl, hw, hd, ha, hc]
    rfl
  · intro f w s
    dsimp only
    intro hl ha
    simp only [exec_acqDb, execAcqDb, lift_of_listens hl, ha]
    cases dbValue w <;> simp

end Sys2Proof.Machine
end

section
/-!
PROOFS. The registers of the admin queues and the timers of completion queues (R56, R57, R69, R78), resets and configuration of the
functions (R48, R81, R83, R100, R520), and the answers to host reads (R83, R94, R103).
-/
namespace Sys2Proof.Machine

open Sys2Proof

/-! ### What a command leaves, from what its own function makes of the device -/

section

variable {g : Dev → Dev} {s : State} {d : Dev} (hl : listens s) (h : g s.dev = d)

include hl h

theorem lift_leaves : lift g s = .next (s.after d) := by rw [lift_of_listens hl, h]

theorem lift0_leaves : lift0 g s = .next (s.now d) := by rw [lift0_of_listens hl, h]

theorem fabRow_lift_leaves {m : Master} {i : Instr} (ha : atOnce m s) : fabRow m i s (lift g s) = .next (s.after d) :=
  (fabRow_atOnce ha).trans (lift_leaves hl h)

theorem fabRow_lift0_leaves {m : Master} {i : Instr} (ha : atOnce m s) : fabRow m i s (lift0 g s) = .next (s.now d) :=
  (fabRow_atOnce ha).trans (lift0_leaves hl h)

end

/-! ### Queue registers and timers -/

/-- Settles O35: the register or the queue is there, and nothing holds it. -/
theorem queueRegistersAndTimersComplete : Obligations.QueueRegistersAndTimersComplete := by
  refine ⟨?_, ?_, ?_, ?_⟩
  · intro f w s
    dsimp only
    intro hl ⟨hx, hd3⟩ hhold
    change execAqCfgWrite f w s = _
    refine lift0_leaves hl (if_neg ?_)
    cases hm : meterHold s.dev with
    | true => simp [hx, hd3, hhold hm]
    | false => simp [hx, hd3]
  · intro f w s
    dsimp only
    intro hl ⟨hx, hd3⟩
    change execAcqCfgWrite f w s = _
    exact lift0_leaves hl (if_pos (by simp [hx, hd3]))
  · intro f n q s
    dsimp only
    intro hl ⟨hq, hfull, hst⟩
    change execCqStallTimeout f n s = _
    refine lift_leaves hl ?_
    simp only [hq]
    exact if_neg (by simp [hfull, hst])
  · intro f n q s
    dsimp only
    intro hl ⟨hq, hien, hpend, htime⟩
    change execCoalTimeExpiry f n s = _
    refine lift_leaves hl ?_
    simp only [hq]
    exact if_pos (by simp [hien, hpend, htime])

/-! ### Functions -/

/-- A configuration write reaches a function whose link is up and which is in no reset. -/
theorem configWrite_leaves {f : FnId} {c : CfgWr} {s : State} {d : Dev} (hl : listens s)
    (hf : fnExists s.dev f = true ∧ (getHp s.dev f.port).linkUp = true ∧ (getFn s.dev f).inFlr = false)
    (h : configWrite f c s.dev = d) : exec (.pcieConfigWrite f c) s = .next (s.after d) := by
  obtain ⟨hx, hup, hflr⟩ := hf
  change execPcieConfigWrite f c s = _
  exact lift_leaves hl ((if_pos (by simp [hx, hup, hflr])).trans h)

/-- Settles O36: each event's own condition holds. -/
theorem functionEventsComplete : Obligations.FunctionEventsComplete := by
  refine ⟨?_, ?_, ?_, ?_, ?_, ?_, ?_, ?_, ?_, ?_, ?_, ?_, ?_, ?_, ?_, ?_, ?_⟩
  · intro m w s ha hl hm
    change execOwnerCtlWrite m w s = _
    exact fabRow_lift0_leaves hl (if_pos hm) ha
  · intro f s hl ⟨hx, hflr⟩
    change execFunctionLevelReset f s = _
    exact lift_leaves hl (if_neg (by simp [hx, hflr]))
  · intro f s hl ⟨hflr, hx⟩
    change execFlrComplete f s = _
    exact lift_leaves hl (if_pos (by simp [hx, hflr]))
  · intro p num en s
    dsimp only
    intro hl
    change execVfDisable p num en s = _
    exact lift_leaves hl rfl
  · intro f s hl ⟨hflr, hnum⟩
    change execVfTeardownDone f s = _
    exact lift_leaves hl (if_pos (by simp [hflr, hnum]))
  · intro p s
    dsimp only
    intro hl hup
    change execHostLinkDown p s = _
    exact lift_leaves hl (if_neg (by simp [hup]))
  · intro p s hl
    change execHostPortReset p s = _
    exact lift_leaves hl rfl
  · intro p s hl ⟨ht, hr, _⟩
    change execHostLinkUp p s = _
    exact lift0_leaves hl (if_neg (by simp [ht, hr]))
  · intro f on s hl hf
    exact configWrite_leaves hl hf rfl
  · intro f n a s base ⟨hl, hnum⟩ hf
    exact configWrite_leaves hl hf (if_neg (by simp [hnum]))
  · intro f n a s base ⟨hl, hnum⟩ hf
    exact configWrite_leaves hl hf (if_neg (by simp [hnum]))
  · intro f n s ⟨hl, hnum⟩ hf hv
    exact configWrite_leaves hl hf (if_neg (by simp [hnum, hv]))
  · intro f on s ⟨hl, hnum⟩ hf hv
    exact configWrite_leaves hl hf (if_neg (by simp [hnum, hv]))
  · intro f w s hl hf
    exact configWrite_leaves hl hf (by cases w <;> rfl)
  · intro f en mask s hl hf
    exact configWrite_leaves hl hf rfl
  · intro f on s ⟨hl, hnum⟩ hf hb
    exact configWrite_leaves hl hf (if_neg (by simp [hnum, hb]))
  · intro f w s ⟨hl, hnum⟩ hf hb
    exact configWrite_leaves hl hf (if_neg (by simp [hnum, hb]))

/-! ### Answers to host reads -/

/-- The awaited answer to a read of a page table. -/
theorem walkAnswer_leaves {mark : Bool} {id k : Nat} {e : Word64} {r : ReadReq} {d1 d2 d : Dev} {w : Walk} {s : State} (hl : listens s)
    (hr : takeRead id s.dev = some (r, d1)) (hk : r.why = .walk k) (hw : takeWalk k d1 = some (w, d2))
    (hd : (match w.reread, mark with
      | none, false => applyRes (walkEntry w e d2)
      | some l, true => applyRes (rereadEntry w l e d2)
      | _, _ => s.dev) = d) : walkAnswer mark id e s = .next (s.after d) := by
  refine lift_leaves hl ?_
  simp only [hr, hk, hw]
  exact hd

/-- A read that was awaited fails. -/
theorem failRead_awaited {id aer : Nat} {r : ReadReq} {d d1 : Dev} (h : takeRead id d = some (r, d1)) :
    failRead id aer d = readFailed r (pcieError r.fn aer d1) := by rw [failRead, h]

/-- Settles O37: the answer is awaited, and its kind is the command's. -/
theorem hostReadAnswersComplete : Obligations.HostReadAnswersComplete := by
  refine ⟨?_, ?_, ?_, ?_, ?_, ?_, ?_, ?_, ?_, ?_⟩
  · intro id data a r d1 n q s h hc
    change execPayloadReadDone id data s = _
    exact readAnswer_answers h (by rw [hc])
  · intro id data a r d1 n c e s h hc
    change execPayloadReadDone id data s = _
    exact readAnswer_answers h (by rw [hc])
  · intro id data a r d1 n q p s h hc
    change execGetTargetReadDone id data s = _
    exact readAnswer_answers h (by rw [hc])
  · intro id w a r d1 n p s h hc
    change execAtomicTargetReadDone id w s = _
    exact readAnswer_answers h (by rw [hc])
  · intro id data a r d1 n o k s h hc
    change execTreeContribReadDone id data s = _
    exact readAnswer_answers h (by rw [hc])
  · intro id k e r d1 d2 w s hl ⟨hr, hk⟩ ⟨hw, hre⟩
    change execWalkReadResponse id e s = _
    exact walkAnswer_leaves hl hr hk hw (by rw [hre])
  · intro id k e r d1 d2 w l s hl ⟨hr, hk⟩ ⟨hw, hre⟩
    change execMarkRereadResponse id e s = _
    exact walkAnswer_leaves hl hr hk hw (by rw [hre])
  · intro id aer r d1 s hl hr
    change execHostReadFailure id aer s = _
    exact lift_leaves hl (failRead_awaited hr)
  · intro id r d1 s hl hr
    change execPcieCompletionTimeout id s = _
    exact lift_leaves hl (failRead_awaited hr)
  · intro p aer s hl
    change execTlpDiscard p aer s = _
    exact lift0_leaves hl rfl

end Sys2Proof.Machine
end

section
/-!
PROOFS. Data packets (R121 to R133, R175 to R181), transport messages (R138 to R147) and tree packets (R212 to R228).
-/
namespace Sys2Proof.Machine

open Sys2Proof

/-! ### What a packet's type executes (R125, R126, R166, R175 to R180) -/

section

variable {n : Nat} {c : Conn} {p : Packet} {d : Dev}

theorem execPkt_void (hv : p.void = true) : execPkt n c p d = markExec n p.psn d := if_pos hv

theorem execPkt_put (ht : p.ptype = ptPut ∨ p.ptype = ptPutFlag) (hv : p.void = false) : execPkt n c p d = askPut n c p d := by
  rcases ht with ht | ht <;> simp [execPkt, ht, hv, ptPut, ptPutFlag, ptGetReq, ptAtomicReq, ptSend]

theorem execPkt_get (ht : p.ptype = ptGetReq) :
    execPkt n c p d = if p.void || p.aux == 0 then markExec n p.psn d else askGet n c p d := by
  cases hv : p.void <;> simp [execPkt, ht, hv]

theorem execPkt_atomic (ht : p.ptype = ptAtomicReq) :
    execPkt n c p d = if p.void then markExec n p.psn d else askAtomic n c p d := by
  cases hv : p.void <;> simp [execPkt, ht, hv, ptGetReq, ptAtomicReq]

theorem execPkt_send (ht : p.ptype = ptSend) (hk : skind p ≠ 2) (hv : p.void = false) :
    execPkt n c p d = execSend n p (if p.first && decide (psnDist c p.psn = 0) then handOver n p d else d) := by
  simp [execPkt, ht, hk, hv, ptGetReq, ptAtomicReq, ptSend]

theorem execPkt_finish (ht : p.ptype = ptSend) (hk : skind p = 2) :
    execPkt n c p d = if p.void then markExec n p.psn d else finishSend n p (markExec n p.psn d) := by
  cases hv : p.void <;> simp [execPkt, ht, hk, hv, ptGetReq, ptAtomicReq, ptSend]

end

/-- A packet accepted, and not a flagged one above BASE, leaves what its execution makes of the device. -/
theorem arrive_executed {ok : Packet → Bool} {p : Packet} {c : Conn} {s : State} {d : Dev} (h : packetAccepted p c s)
    (ho : ok p = true) (hg : p.ptype ≠ ptGetResp) (hf : ¬ (p.ptype = ptPutFlag ∧ psnDist c p.psn ≠ 0))
    (he : execPkt p.conn.toNat (markPkt c p) p (packetMarked p c s.dev) = d) :
    arrive ok arriveConn p s = .next (s.after (afterExec p.conn.toNat false d)) := by
  rw [arrive_accepted h ho hg, if_neg hf, he]

theorem arrive_held {ok : Packet → Bool} {p : Packet} {c : Conn} {s : State} (h : packetAccepted p c s)
    (ho : ok p = true) (ht : p.ptype = ptPutFlag) (hd : psnDist c p.psn ≠ 0) :
    arrive ok arriveConn p s =
      .next (s.after (updConn p.conn.toNat (fun c => { c with held := c.held ++ [p.psn] }) (packetMarked p c s.dev))) := by
  rw [arrive_accepted h ho (by simp [ht, ptPutFlag, ptGetResp]), if_pos ⟨ht, hd⟩]

/-- The awaited operation of a GET_RESP. -/
abbrev awaitsGet (p : Packet) (o : Op) : Bool := o.kind = .get && o.psn0 == p.psn && o.npk != 0 && !o.written

section

variable {n : Nat} {c : Conn} {p : Packet} {o : Op} {d : Dev}

theorem recvGetResp_stray (h : c.ops.find? (awaitsGet p) = none) :
    recvGetResp n c p d = { d with xpt := { d.xpt with stray := d.xpt.stray.add 1 } } := by simp only [recvGetResp, h]

theorem recvGetResp_void (h : c.ops.find? (awaitsGet p) = some o) (hv : p.void = true) :
    recvGetResp n c p d = failOp n o.msn .remoteAccess (setConn n { c with retries := 0 } d) := by
  simp only [recvGetResp, h, hv, if_true]

theorem recvGetResp_placed {r : Region} (h : c.ops.find? (awaitsGet p) = some o) (hv : p.void = false) (hl : 0 < p.payload.length)
    (ho : p.offset.toNat + p.payload.length ≤ o.len)
    (hr : checkRegion d c.fn o.desc.localKey (o.desc.localVa + p.offset.toNat) p.payload.length .localWrite = .ok r) :
    recvGetResp n c p d =
      askChecked { fn := c.fn, key := o.desc.localKey, va := o.desc.localVa + p.offset.toNat, len := p.payload.length,
                   right := .localWrite, sq := o.sq, conn := n,
                   cont := .getPlace n o.msn p.offset.toNat p.payload p.rh.det } r
        (tagResponse o (setConn n { updOp o.msn (fun o => { o with placing := o.placing + 1 }) c with retries := 0 } d)) := by
  simp only [recvGetResp, h, hv, hr]
  rw [if_neg nofun, if_neg (by omega)]

end

theorem overhead_pktArrived (p : Packet) (d : Dev) : overhead (pktArrived p d) = overhead d := by
  obtain ⟨_, _, h⟩ := arrived_same (.data p) (pktRecorded d p) (if p.ptype = ptNote then .once else .conn p.conn.toNat) (pktBytes p) d
  rw [pktArrived, h]
  rfl

/-- A NOTE that meets its match context past every check of its way there (R127, R181, R335). -/
theorem arriveNote_matched {p : Packet} {x : Fn} {m : Mctx} {b : Option Bucket} {d : Dev} (hc : pktCrc p = p.crc)
    (hx : fnExists d (epFn p.rh.dest) = true) (hf : getFn d (epFn p.rh.dest) = x) (hr : x.inFlr = false) (hd : p.rh.domain = x.domain)
    (hp : portDrained d (epFn p.rh.dest).port = false) (hpol : police x.polIn (pktLen p + overhead d) = (true, b))
    (hm : getMctx (tally (epFn p.rh.dest) 1 (pktLen p) (setFn (epFn p.rh.dest) { x with polIn := b } d)) (pktMctx p) = some m)
    (hmf : m.fn = epFn p.rh.dest ∧ m.st = .active ∧
      slotGrafting (tally (epFn p.rh.dest) 1 (pktLen p) (setFn (epFn p.rh.dest) { x with polIn := b } d)) (mctxSlot (pktMctx p)) = false)
    (hk : skind p = 0) :
    arriveNote p d = matchNote p m (tally (epFn p.rh.dest) 1 (pktLen p) (setFn (epFn p.rh.dest) { x with polIn := b } d)) := by
  obtain ⟨hmf, hst, hg⟩ := hmf
  rw [arriveNote]
  dsimp only
  rw [if_neg (not_not_intro hc), if_neg (by simp [hx]), hf, if_neg (not_not_intro hd), if_neg (by simp [hp, hr]), hpol, if_neg (by simp), hm]
  exact if_neg (by simp [hmf, hst, hg, hk])

/-- Settles O38: each row takes its type, and the type says what is executed. -/
theorem dataPacketsComplete : Obligations.DataPacketsComplete := by
  refine ⟨?_, ?_, ?_, ?_, ?_, ?_, ?_, ?_, ?_, ?_, ?_, ?_, ?_, ?_⟩
  · intro p c s n c1 d h ⟨ht, hv⟩
    exact (exec_putPacket p s).trans (arrive_executed h (by simp [ht]) (by simp [ht, ptPut, ptGetResp]) (by simp [ht, ptPut, ptPutFlag]) (execPkt_put (.inl ht) hv))
  · intro p c s n d h ⟨ht, hv⟩
    exact (exec_putPacket p s).trans (arrive_executed h (by simp [ht]) (by simp [ht, ptPut, ptGetResp]) (by simp [ht, ptPut, ptPutFlag]) (execPkt_void hv))
  · intro p c s n c1 d h ⟨ht, hv, hb⟩
    exact (exec_putFlagPacket p s).trans (arrive_executed h (by simp [ht]) (by simp [ht, ptPutFlag, ptGetResp]) (by simp [hb]) (execPkt_put (.inr ht) hv))
  · intro p c s n d h ⟨ht, hv, hb⟩
    exact (exec_putFlagPacket p s).trans (arrive_executed h (by simp [ht]) (by simp [ht, ptPutFlag, ptGetResp]) (by simp [hb]) (execPkt_void hv))
  · intro p c s n d h ⟨ht, hb⟩
    exact (exec_putFlagPacket p s).trans (arrive_held h (by simp [ht]) ht hb)
  · intro p c s n c1 d h ht
    exact (exec_getReq p s).trans (arrive_executed h (by simp [ht]) (by simp [ht, ptGetReq, ptGetResp]) (by simp [ht, ptGetReq, ptPutFlag]) (execPkt_get ht))
  · intro p c s n c1 d h ht
    exact (exec_atomicReq p s).trans (arrive_executed h (by simp [ht]) (by simp [ht, ptAtomicReq, ptGetResp]) (by simp [ht, ptAtomicReq, ptPutFlag]) (execPkt_atomic ht))
  · intro p c s n c1 d h ⟨ht, hk, hv⟩
    exact (exec_sendPacket p s).trans (arrive_executed h (by simp [ht, hk]) (by simp [ht, ptSend, ptGetResp]) (by simp [ht, ptSend, ptPutFlag]) (execPkt_send ht hk hv))
  · intro p c s n d h ⟨ht, hk, hv⟩
    exact (exec_sendPacket p s).trans (arrive_executed h (by simp [ht, hk]) (by simp [ht, ptSend, ptGetResp]) (by simp [ht, ptSend, ptPutFlag]) (execPkt_void hv))
  · intro p c s n d h ⟨ht, hk⟩
    exact (exec_rendezvousFinish p s).trans (arrive_executed h (by simp [ht, hk]) (by simp [ht, ptSend, ptGetResp]) (by simp [ht, ptSend, ptPutFlag]) (execPkt_finish ht hk))
  · intro p c o r s a n d ⟨hf, ht⟩ ho ⟨hv, hlen, hoff⟩ hr
    rw [exec_getResp, arrive_resp hf ht, recvGetResp_placed ho hv hlen hoff hr]
  · intro p c o s n d ⟨hf, ht⟩ ho hv
    rw [exec_getResp, arrive_resp hf ht, recvGetResp_void ho hv]
  · intro p c s d ⟨hf, ht⟩ ho
    rw [exec_getResp, arrive_resp hf ht, recvGetResp_stray ho]
  · intro p x m b s f d d1 ⟨hl, hm, ht, hk, hc⟩ ⟨hx, hf, hr, hd, hp⟩ ⟨hpol, hi⟩ ⟨hget, hmc⟩
    have hx' : fnExists (pktArrived p s.dev) (epFn p.rh.dest) = true := (fnExists_arrived ..).trans hx
    have hf' : getFn (pktArrived p s.dev) (epFn p.rh.dest) = x := (getFn_arrived ..).trans hf
    have hp' : portDrained (pktArrived p s.dev) (epFn p.rh.dest).port = false := (portDrained_arrived ..).trans hp
    rw [← overhead_pktArrived p s.dev] at hpol
    rw [exec_notePacket, arrive_taken hl hm hi (by simp [ht]), arriveNote_matched hc hx' hf' hr hd hp' hpol hget hmc hk]

/-! ### Transport messages -/

/-- A stale ACK, NAK or RNR_NAK does nothing (R138). -/
theorem onCover_eq (m : Nib) (react : Nat → Dev → Dev) (n : Nat) (c : Conn) (d : Dev) :
    onCover m react n c d = if ackInRange c m.psn then react n (ackTo n c m.psn m.value d) else d := by
  rw [onCover]
  cases ackInRange c m.psn <;> rfl

/-- A transport message that reaches its connection leaves what its own course makes of the device. -/
theorem arriveNib_leaves {nt : Byte} {m : Nib} {c : Conn} {s : State} {go : Nat → Conn → Dev → Dev} {d : Dev}
    (h : nibReaches nt m c s) (hd : go m.conn.toNat c (nibTaken m s.dev) = d) : arriveNib nt m go s = .next (s.after d) := by
  rw [arriveNib_reaches go h, hd]

/-- Settles O39: each message reaches its connection. -/
theorem transportMessagesComplete : Obligations.TransportMessagesComplete := by
  refine ⟨?_, ?_, ?_, ?_, ?_, ?_, ?_, ?_⟩
  · intro m c s n d h
    change execAck m s = _
    exact arriveNib_leaves h (onCover_eq ..)
  · intro m c s n d h
    change execNak m s = _
    exact arriveNib_leaves h (onCover_eq ..)
  · intro m c s n d h
    change execRnrNak m s = _
    exact arriveNib_leaves h (onCover_eq ..)
  · intro m c o s n d sent h ho
    change execAccessNak m s = _
    refine arriveNib_leaves h ?_
    rw [onAccessNak, ho]
  · intro m c o r s a n d h ho hr
    change execAtomicResp m s = _
    refine arriveNib_leaves h ?_
    rw [onAtomicResp, ho]
    simp only [show checkRegion (nibTaken m s.dev) _ _ _ _ _ = _ from hr]
    rfl
  · intro m c s n d h
    change execConnReset m s = _
    exact arriveNib_leaves h rfl
  · intro m c s n d h
    change execFuncReset m s = _
    exact arriveNib_leaves h rfl
  · intro m c s n d h
    change execDestDown m s = _
    exact arriveNib_leaves h rfl

/-! ### Tree packets -/

/-- A tree packet that reaches its node leaves what its own course makes of the device. -/
theorem onTree_leaves {pt : Byte} {port : Fin 64} {p : TreePkt} {t : TreeWords} {s : State} {act : TreeWords → Dev → Dev} {d : Dev}
    (h : treeReaches pt port p t s) (hd : act t (treeArrived p s.dev) = d) : onTree pt port p act s = .next (s.after d) := by
  rw [onTree_reaches act h, hd]

/-- A contribution carries a chunk unless it is null and names none (R198). -/
theorem carriesChunk (p : TreePkt) : (!(p.null && p.chunk == 0xFFFFFFFF)) = (!p.null || p.chunk ≠ 0xFFFFFFFF) := by
  refine (Bool.not_and _ _).trans (congrArg (!p.null || ·) ?_)
  by_cases h : p.chunk = 0xFFFFFFFF
  · exact (congrArg (!·) (beq_iff_eq.mpr h)).trans (decide_eq_false (not_not_intro h)).symm
  · exact (congrArg (!·) (beq_eq_false_iff_ne.mpr h)).trans (decide_eq_true h).symm

/-- Settles O40: each packet reaches its node. -/
theorem treePacketsComplete : Obligations.TreePacketsComplete := by
  refine ⟨?_, ?_, ?_, ?_, ?_, ?_, ?_, ?_, ?_⟩
  · intro port p t s n d credit e h
    change execTreeUp port p s = _
    refine onTree_leaves h ?_
    rw [← carriesChunk]
    rfl
  · intro port p t s n d credit e h
    change execTreeDown port p s = _
    exact onTree_leaves h rfl
  · intro port p t s n d h
    change execUpCredit port p s = _
    exact onTree_leaves h rfl
  · intro port p t s n d h
    change execDownCredit port p s = _
    exact onTree_leaves h rfl
  · intro port p t s n d h
    change execTreeAck port p s = _
    exact onTree_leaves h rfl
  · intro port p t s n d h
    change execTreeDone port p s = _
    exact onTree_leaves h rfl
  · intro port p t s n d h
    change execTreeAbort port p s = _
    exact onTree_leaves h rfl
  · intro tree s hl ho
    change execTreeTimeout tree s = _
    exact lift_leaves hl (if_pos ho)
  · intro id r s hl ⟨hr, hi⟩
    change execStagedCopyDone id s = _
    refine lift_leaves hl ?_
    simp only [hr]
    exact if_neg hi

end Sys2Proof.Machine
end

section
/-!
PROOFS. Fault reports, clears and injections (R190, R412 to R432), the transport's timers and contexts (R137 to R154), and routing
(R245 to R251, R265).
-/
namespace Sys2Proof.Machine

open Sys2Proof

/-! ### Faults -/

/-- An error of a known, unmasked source is told to its host, acts, and is driven by its capture registers. -/
theorem faultReport_driven {x : FltIn} {k : FClass} {d : Dev} (hc : causeClass x.src.val x.cause.toNat x.detail.toNat = some k)
    (hs : knownSource d x.src.val = true ∧ (getRec d x.src.val).masked = false) :
    faultReport x d = (recordOn x.src.val x.cause.toNat).foldl (fun d q => report q k x.cause.toNat x.detail x.object x.n d)
      (faultEffect x.src.val x.cause.toNat x.detail.toNat x.object.toNat (tellHost x.src.val x.cause.toNat x.detail x.object d)) := by
  simp only [faultReport, hc]
  exact if_neg (by simp [hs])

/-- Only an error of a host port is told to its host. -/
theorem tellHost_of_ne {src cause : Nat} {detail : Byte} {object : BitVec 24} {d : Dev} (h : cause ≠ caPcie) :
    tellHost src cause detail object d = d := if_neg (by simp [h])

theorem fltForce_driven {src fc : Nat} {d : Dev} (he : bit (fltCtl d) 0 = true) (hb : fencedBlk d 2 = false)
    (hf : fc ≠ 3 ∨ bit (fltCtl d) 1 = true) :
    fltForce src fc d =
      report src (if fc = 1 then .corrected else if fc = 3 then .fatal else .contained) caForced
        ((takeFree (putFclass src fc d)).1.setWidth 8) (((takeFree (putFclass src fc d)).1 >>> 8).setWidth 24) 1
        (takeFree (putFclass src fc d)).2 := by
  rw [fltForce]
  refine if_neg ?_
  simpa [he, hb] using hf.resolve_left ∘ not_not_intro

/-- Settles O41: each command's source is known, and nothing masks or bars it. -/
theorem faultCommandsComplete : Obligations.FaultCommandsComplete := by
  refine ⟨?_, ?_, ?_, ?_, ?_, ?_, ?_, ?_, ?_, ?_, ?_, ?_⟩
  · intro y k s hl hc hs
    change execFaultReport y s = _
    exact lift_leaves hl (faultReport_driven hc hs)
  · intro src k s hl hc hs
    change execHandshakeStall src s = _
    refine lift_leaves hl ((faultReport_driven (x := { src := src, cause := BitVec.ofNat 8 caStall }) hc hs).trans ?_)
    rw [tellHost_of_ne (show (BitVec.ofNat 8 caStall).toNat ≠ caPcie by decide)]
    rfl
  · intro slot a k sp s d hl hg
    change execGraftDone slot s = _
    refine lift_leaves hl ?_
    simp only [hg]
    rfl
  · intro s hl
    change execNotifyHoldoffEnd s = _
    exact lift0_leaves hl rfl
  · intro src s d hl hs
    change execReportPathFailure src s = _
    exact lift_leaves hl (if_neg (by simp [hs]))
  · intro m src s r ha hl hs hq
    rw [exec_faultRecordClear hl ha hs.1 hs.2, clearRec_not_barred (by simpa [clearBarred] using hq)]
    rfl
  · intro m src s ha hl hs
    change execCorrClr m src s = _
    exact fabRow_lift0_leaves hl (if_pos (by simp [hs])) ha
  · intro m src fc s d v k ha hl ⟨hm, hs, hb⟩ he hf
    change execFltForce m src fc s = _
    exact fabRow_lift_leaves hl ((if_pos (by simp [hm, hs])).trans (fltForce_driven he hb hf)) ha
  · intro m src s ha hl ⟨hm, hb, he⟩ hs
    change execFltBreak m src s = _
    exact fabRow_lift_leaves hl ((if_pos (by simp [hm, hb, he])).trans (if_pos (by simp [hs]))) ha
  · intro src detail object c s hl hc
    change execEccUncorrectable src detail object s = _
    refine lift_leaves hl ?_
    simp only [hc]
  · intro src s hl hs
    change execEccCorrected src s = _
    exact lift0_leaves hl (if_pos hs)
  · intro n s t hl
    change execHbmStackFailure n s = _
    exact lift_leaves hl rfl

/-! ### Timers and contexts of the transport -/

/-- Settles O42: the timer runs, or the copy of the context is under way. -/
theorem transportTimersAndContextsComplete : Obligations.TransportTimersAndContextsComplete := by
  refine ⟨?_, ?_, ?_, ?_, ?_, ?_⟩
  · intro n c s hl ⟨hc, hr, ha⟩
    change execRetransmitTimeout n s = _
    refine lift_leaves hl ?_
    simp only [hc]
    exact if_pos (by simp [hr, ha])
  · intro n c s hl ⟨hc, hr, ha⟩
    change execRnrWaitEnd n s = _
    refine lift_leaves hl ?_
    simp only [hc]
    exact if_pos (by simp [hr, ha])
  · intro n c s hl ⟨hc, hd, he, ha⟩
    change execAckTimer n s = _
    refine lift_leaves hl ?_
    simp only [hc]
    exact if_pos (by simp [hd, he, ha])
  · intro n s k r handle hl ⟨hf, hr⟩
    change execContextFetchDone n s = _
    exact lift_leaves hl (if_neg (by rw [hf, hr]; exact nofun))
  · intro n k v s d hl hw
    change execContextWriteoutDone n s = _
    refine lift_leaves hl ?_
    simp only [hw]
    rfl
  · intro n k v s hl hw
    change execMissWaitTimeout n s = _
    refine lift_leaves hl ?_
    simp only [hw]

/-! ### Routing -/

section

variable {ing : Nat} {it : Item} {d : Dev}

theorem takeRoute_none (h : (d.rt.routeQ.find? fun q => q.item == it && q.ingress == ing) = none) : takeRoute ing it d = (none, d) := by
  rw [takeRoute, h]

theorem takeRoute_some {q : QItem} (h : (d.rt.routeQ.find? fun q => q.item == it && q.ingress == ing) = some q) :
    takeRoute ing it d = (some q, { d with rt := { d.rt with routeQ := d.rt.routeQ.erase q } }) := by
  rw [takeRoute, h]

end

theorem releaseHold_nil (ing : Nat) (d : Dev) : releaseHold ing [] d = d := if_neg (by simp)

section

variable {y : QItem} {r : RouteIn} {d : Dev} (hr : routeIn y.ingress y.item = some r) (hh : y.hold = [])

include hr hh

/-- R248's first step, for an item that holds no ingress buffer. -/
theorem routeItem_badEpoch (hb : bankState d r.epoch ≠ .armed ∨ coordValid d = false) :
    routeItem y d = { d with rt := { d.rt with badEpoch := d.rt.badEpoch.add 1 } } := by
  simp only [routeItem, hr]
  rw [if_pos (by simpa using hb), hh, releaseHold_nil]

variable (hb : bankState d r.epoch = .armed ∧ coordValid d = true)

include hb

theorem routeItem_aged (ha : 250 ≤ ageNow (itemAge y.item) y.since d.clk.now) :
    routeItem y d = { d with rt := { d.rt with aged := d.rt.aged.add 1 } } := by
  simp only [routeItem, hr]
  rw [if_neg (by simp [hb]), if_pos ha, hh, releaseHold_nil]

variable (ha : ageNow (itemAge y.item) y.since d.clk.now < 250)

include ha

theorem routeItem_here (hc : r.dest = coord d) :
    routeItem y d = tallyTx y.ingress y.item { d with rt := { d.rt with localQ := d.rt.localQ ++ [y.item] } } := by
  simp only [routeItem, hr]
  rw [if_neg (by simp [hb]), if_neg (by omega), if_pos hc, hh, releaseHold_nil]

variable (hc : r.dest ≠ coord d)

include hc

theorem routeItem_hop (ht : r.t = 8) : routeItem y d = { d with rt := { d.rt with hop := d.rt.hop.add 1 } } := by
  simp only [routeItem, hr]
  rw [if_neg (by simp [hb]), if_neg (by omega), if_neg hc, if_pos ht, hh, releaseHold_nil]

variable (ht : r.t ≠ 8)

include ht

theorem routeItem_noRoute (hn : routeChoice d y.ingress r = .noRoute) :
    routeItem y d = { d with rt := { d.rt with noroute := d.rt.noroute.add 1 } } := by
  simp only [routeItem, hr, hn]
  rw [if_neg (by simp [hb]), if_neg (by omega), if_neg hc, if_neg ht, hh, releaseHold_nil]

omit hh in
theorem routeItem_port {p : Nat} {dim : Option Nat} (hn : routeChoice d y.ingress r = .port p dim) :
    routeItem y d =
      let d1 := queuePort p { y with dims := dim.elim 0 (2 ^ ·) } (tallyTx y.ingress y.item d)
      { d1 with rt := { d1.rt with leastQ := tput d1.rt.leastQ y.ingress p } } := by
  simp only [routeItem, hr, hn]
  rw [if_neg (by simp [hb]), if_neg (by omega), if_neg hc, if_neg ht]
  cases dim <;> rfl

end

/-- A packet as it comes to be routed first. -/
def newItem (ing : Fin 65) (it : Item) (resid : Nat) (d : Dev) : QItem := { item := it, ingress := ing.val, since := d.clk.now - resid }

/-- A packet the routing queue does not hold is routed as it came. -/
theorem exec_routePacket_new {ing : Fin 65} {it : Item} {resid : Nat} {s : State} {d : Dev} (hl : listens s)
    (h : (s.dev.rt.routeQ.find? fun q => q.item == it && q.ingress == ing.val) = none)
    (hd : routeItem (newItem ing it resid s.dev) s.dev = d) :
    exec (.routePacket ing it resid) s = .next (s.after d) := by
  change execRoutePacket ing it resid s = _
  refine lift_leaves hl ?_
  rw [takeRoute_none h]
  exact hd

/-- Settles O43: each step of the routing is reached where those before it let the packet go on. -/
theorem routingCommandsComplete : Obligations.RoutingCommandsComplete := by
  refine ⟨?_, ?_, ?_, ?_, ?_, ?_, ?_, ?_, ?_, ?_, ?_, ?_, ?_⟩
  · intro ing it resid s t hl
    change execRoutePacket ing it resid s = _
    exact lift_leaves hl rfl
  · intro ing it resid r s hl ⟨hq, hr⟩ hb
    exact exec_routePacket_new hl hq (routeItem_badEpoch (y := newItem ing it resid s.dev) hr rfl hb)
  · intro ing it resid r s y hl ⟨hq, hr⟩ hb ha
    exact exec_routePacket_new hl hq (routeItem_aged (y := newItem ing it resid s.dev) hr rfl hb ha)
  · intro ing it resid r s y hl ⟨hq, hr⟩ hb ha hc
    exact exec_routePacket_new hl hq (routeItem_here (y := newItem ing it resid s.dev) hr rfl hb ha hc)
  · intro ing it resid r s y hl ⟨hq, hr⟩ hb ha ⟨hc, ht⟩
    exact exec_routePacket_new hl hq (routeItem_hop (y := newItem ing it resid s.dev) hr rfl hb ha hc ht)
  · intro ing it resid r s y hl ⟨hq, hr⟩ hb ha ⟨hc, ht, hn⟩
    exact exec_routePacket_new hl hq (routeItem_noRoute (y := newItem ing it resid s.dev) hr rfl hb ha hc ht hn)
  · intro ing it resid r p dim s y d hl ⟨hq, hr⟩ hb ha ⟨hc, ht, hn⟩
    exact exec_routePacket_new hl hq (routeItem_port (y := newItem ing it resid s.dev) hr hb ha hc ht hn |>.trans (by cases dim <;> rfl))
  · intro ing it resid q s hl hq
    change execRoutePacket ing it resid s = _
    refine lift_leaves hl ?_
    rw [takeRoute_some hq]
    rfl
  · intro it d s hl hd
    change execPacketAgeExpiry it s = _
    refine lift0_leaves hl ?_
    simp only [hd]
  · intro p q s l hl hq
    change execNibStallDiscard p s = _
    refine lift0_leaves hl ?_
    simp only [show ((tget s.dev.rt.egress p.val).getD []).find? isNib = some q from hq]
    rfl
  · intro m v s c d ha hl hm
    change execRtHpDrainWrite m v s = _
    exact fabRow_lift_leaves hl (if_pos hm) ha
  · intro p s hl hp
    change execDrainLimitExpiry p s = _
    exact lift_leaves hl (if_pos hp)
  · intro p s hl hp
    change execDrainLimitExpiry p s = _
    exact lift_leaves hl (if_neg (by simp [hp]))

end Sys2Proof.Machine
end

section
/-!
PROOFS. EPOCH_CTL, the table window and RT_COORD (R240, R257 to R261, R271).
-/
namespace Sys2Proof.Machine

open Sys2Proof

/-! ### EPOCH_CTL (R257, R259) -/

/-- The device once DRAIN is stored. -/
def epochWritten (v : Wr) (d : Dev) : Dev := putReg 0x20000 0 (mergeWr (regInForce d 0x20000 0) (ins 32 0xFFFF) v) d

theorem epochCtlWrite_live {v : Wr} {d : Dev} (hw : bit (wrBits v).2 0 = true) (hb : fencedBlk d 5 = false) :
    epochCtlWrite v d = stampTo (bit (wrBits v).1 0) (epochCmd (fld (wrBits v).1 8 4) (epochWritten v d)) := by
  rw [epochCtlWrite]
  dsimp only
  rw [if_neg (by simp [hw]), if_neg (by simp [hb])]
  rfl

theorem stampTo_same {e : Bool} {d : Dev} (h : e = d.rt.stamp) : stampTo e d = d := if_pos h

theorem stampTo_refused {e : Bool} {d : Dev} (h : e ≠ d.rt.stamp) (hb : bankState d e ≠ .armed) : stampTo e d = setCmdErr 1 d := by
  rw [stampTo, if_neg h, if_pos hb]

theorem stampTo_moved {e : Bool} {d : Dev} (h : e ≠ d.rt.stamp) (hb : bankState d e = .armed) :
    stampTo e d = { noteWrite d with rt := { (noteWrite d).rt with
      stamp := e, stampTime := BitVec.ofNat 32 (fld d.clk.tsc 10 32)
      last0 := if e then some d.clk.now else d.rt.last0
      last1 := if e then d.rt.last1 else some d.clk.now } } := by
  rw [stampTo, if_neg h, if_neg (not_not_intro hb)]
  rfl

section

variable {bank : Bool} {d : Dev}

theorem armBank_armed (h : bankState d bank = .idle ∧ coordValid d = true ∧ armCheck d bank = true) :
    armBank bank d = setCmdErr 0 (setBank bank .armed d) := by simp [armBank, h]

theorem armBank_barred (h : bankState d bank ≠ .idle ∨ coordValid d = false) : armBank bank d = setCmdErr 1 d :=
  if_pos (by simpa using h)

theorem armBank_unchecked (h : bankState d bank = .idle ∧ coordValid d = true ∧ armCheck d bank = false) :
    armBank bank d = setCmdErr 2 d := by simp [armBank, h]

/-- When a bank was last stamped. -/
def lastStamped (bank : Bool) (d : Dev) : Option Nat := if bank then d.rt.last1 else d.rt.last0

theorem retireBank_retiring (h : bankState d bank = .armed ∧ d.rt.stamp ≠ bank)
    (hd : ((lastStamped bank d).any fun t => decide (d.clk.now < t + epochDrain d)) = false) :
    retireBank bank d = setCmdErr 0 (retireBanks (setBank bank .retiring d)) := by
  rw [lastStamped] at hd
  rw [retireBank]
  rw [if_neg (by simp [h]), if_neg (by simp [hd])]

theorem retireBank_barred (h : bankState d bank ≠ .armed ∨ d.rt.stamp = bank) : retireBank bank d = setCmdErr 1 d :=
  if_pos (by simpa using h)

theorem retireBank_draining {t : Nat} (h : bankState d bank = .armed ∧ d.rt.stamp ≠ bank) (hl : lastStamped bank d = some t)
    (hd : d.clk.now < t + epochDrain d) : retireBank bank d = setCmdErr 3 d := by
  rw [lastStamped] at hl
  rw [retireBank]
  rw [if_neg (by simp [h]), if_pos (by simp [hl, hd])]

end

theorem retireBanks_stamp (d : Dev) : (retireBanks d).rt.stamp = d.rt.stamp := by
  rw [retireBanks]
  split <;> split <;> rfl

section

variable {c : Nat} {m : Master} {i : Instr} {v : Wr} {s : State} {d : Dev} (ha : atOnce m s) (hl : listens s)
  (hw : isFab m = true ∧ bit (wrBits v).2 0 = true ∧ fld (wrBits v).1 8 4 = c ∧ fencedBlk s.dev 5 = false)

include ha hl hw

/-- A write of EPOCH_CTL that reaches CMD and STAMP leaves what CMD and then STAMP make of the device. -/
theorem epochRow_leaves (hd : stampTo (bit (wrBits v).1 0) (epochCmd c (epochWritten v s.dev)) = d) :
    fabRow m i s (epochRow c m v s) = .next (s.after d) := by
  obtain ⟨hm, hb, hc, hf⟩ := hw
  refine fabRow_lift_leaves hl ?_ ha
  rw [if_pos (by simp [hm, wrCmd, hb, hc]), epochCtlWrite_live hb hf, hc, hd]

/-- With STAMP as it stands, CMD alone. -/
theorem epochRow_unstamped (he : bit (wrBits v).1 0 = s.dev.rt.stamp) (hd : epochCmd c (epochWritten v s.dev) = d)
    (hs : d.rt.stamp = (epochWritten v s.dev).rt.stamp) : fabRow m i s (epochRow c m v s) = .next (s.after d) := by
  refine epochRow_leaves ha hl hw ?_
  rw [hd, stampTo_same]
  rw [he, hs, epochWritten, putReg_rt]

end

section

variable {bank : Bool} {c : Nat} {m : Master} {i : Instr} {v : Wr} {s : State} (ha : atOnce m s) (hl : listens s)
  (hw : isFab m = true ∧ bit (wrBits v).2 0 = true ∧ fld (wrBits v).1 8 4 = c ∧ fencedBlk s.dev 5 = false)
  (he : bit (wrBits v).1 0 = s.dev.rt.stamp)

theorem epochWritten_rt (v : Wr) (d : Dev) : (epochWritten v d).rt = d.rt := putReg_rt ..

theorem epochWritten_clk (v : Wr) (d : Dev) : (epochWritten v d).clk = d.clk := putReg_clk ..

theorem bankState_epochWritten (v : Wr) (d : Dev) (bank : Bool) : bankState (epochWritten v d) bank = bankState d bank := by
  rw [bankState, bankState, epochWritten_rt]

section

variable (hcmd : ∀ d, epochCmd c d = armBank bank d)

include ha hl hw he hcmd

theorem arm_done (hb : bankState s.dev bank = .idle)
    (hc : coordValid (epochWritten v s.dev) = true ∧ armCheck (epochWritten v s.dev) bank = true) :
    fabRow m i s (epochRow c m v s) = .next (s.after (setCmdErr 0 (setBank bank .armed (epochWritten v s.dev)))) :=
  epochRow_unstamped ha hl hw he ((hcmd _).trans (armBank_armed ⟨(bankState_epochWritten ..).trans hb, hc⟩))
    (by cases bank <;> rfl)

theorem arm_barred (hb : bankState s.dev bank ≠ .idle ∨ coordValid (epochWritten v s.dev) = false) :
    fabRow m i s (epochRow c m v s) = .next (s.after (setCmdErr 1 (epochWritten v s.dev))) :=
  epochRow_unstamped ha hl hw he ((hcmd _).trans (armBank_barred (by rwa [bankState_epochWritten]))) rfl

theorem arm_unchecked (hb : bankState s.dev bank = .idle)
    (hc : coordValid (epochWritten v s.dev) = true ∧ armCheck (epochWritten v s.dev) bank = false) :
    fabRow m i s (epochRow c m v s) = .next (s.after (setCmdErr 2 (epochWritten v s.dev))) :=
  epochRow_unstamped ha hl hw he ((hcmd _).trans (armBank_unchecked ⟨(bankState_epochWritten ..).trans hb, hc⟩)) rfl

end

section

variable (hcmd : ∀ d, epochCmd c d = retireBank bank d)

include ha hl hw he hcmd

theorem retire_done (hb : bankState s.dev bank = .armed) (hst : s.dev.rt.stamp ≠ bank)
    (hd : ((lastStamped bank s.dev).any fun t => decide (s.dev.clk.now < t + epochDrain (epochWritten v s.dev))) = false) :
    fabRow m i s (epochRow c m v s) =
      .next (s.after (setCmdErr 0 (retireBanks (setBank bank .retiring (epochWritten v s.dev))))) := by
  refine epochRow_unstamped ha hl hw he ((hcmd _).trans (retireBank_retiring ⟨(bankState_epochWritten ..).trans hb, ?_⟩ ?_)) ?_
  · rwa [epochWritten_rt]
  · rwa [lastStamped, epochWritten_rt, epochWritten_clk]
  · exact (retireBanks_stamp _).trans (by cases bank <;> rfl)

theorem retire_barred (hb : bankState s.dev bank ≠ .armed ∨ s.dev.rt.stamp = bank) :
    fabRow m i s (epochRow c m v s) = .next (s.after (setCmdErr 1 (epochWritten v s.dev))) :=
  epochRow_unstamped ha hl hw he ((hcmd _).trans (retireBank_barred (by rwa [bankState_epochWritten, epochWritten_rt]))) rfl

theorem retire_draining {t : Nat} (hb : bankState s.dev bank = .armed) (hst : s.dev.rt.stamp ≠ bank)
    (ht : lastStamped bank s.dev = some t) (hd : s.dev.clk.now < t + epochDrain (epochWritten v s.dev)) :
    fabRow m i s (epochRow c m v s) = .next (s.after (setCmdErr 3 (epochWritten v s.dev))) := by
  refine epochRow_unstamped ha hl hw he ((hcmd _).trans (retireBank_draining ⟨(bankState_epochWritten ..).trans hb, ?_⟩ (t := t) ?_ ?_)) rfl
  · rwa [epochWritten_rt]
  · rwa [lastStamped, epochWritten_rt]
  · rwa [epochWritten_clk]

end

end

/-! ### The table window (R260, R261, R271) -/

section

variable {ok : Word64 → Bool} {m : Master} {i : Instr} {v : Wr} {s : State} {d : Dev}

/-- An access through TBL_WIN_ADDR leaves what the access makes of the device with the address stored. -/
theorem tblRow_leaves (ha : atOnce m s) (hl : listens s) (hm : isFab m = true) (hw : bit (wrBits v).2 0 = true)
    (ho : ok (wrBits v).1 = true)
    (hd : tblAccess (mergeWr (regInForce s.dev 0x20010 0) 0x3FFFFF v)
      (putReg 0x20010 0 (mergeWr (regInForce s.dev 0x20010 0) 0x3FFFFF v) s.dev) = d) :
    fabRow m i s (tblRow ok m v s) = .next (s.after d) := by
  refine fabRow_lift_leaves hl ?_ ha
  rw [if_pos (by simp [hm, hw, ho])]
  exact (if_pos hw).trans hd

end

section

variable {a : Word64} {d : Dev} (hf : fencedBlk d 5 = false)

include hf

theorem tblAccess_beyond (hi : tblSize (fld a 16 3) ≤ fld a 0 16) : tblAccess a d = tblStatus 4 d := by
  rw [tblAccess]
  rw [if_neg (by simp [hf]), if_pos hi]

theorem tblAccess_read (hi : fld a 0 16 < tblSize (fld a 16 3)) (hr : bit a 20 = false) :
    tblAccess a d = tblRead (fld a 16 3) (fld a 0 16) (bit a 19) d := by
  rw [tblAccess]
  rw [if_neg (by simp [hf]), if_neg (Nat.not_le.mpr hi), if_neg (by simp [hr])]

theorem tblAccess_write (hi : fld a 0 16 < tblSize (fld a 16 3)) (hw : bit a 20 = true) :
    tblAccess a d = tblWrite (fld a 16 3) (fld a 0 16) (bit a 19) (bit a 21) d := by
  rw [tblAccess]
  rw [if_neg (by simp [hf]), if_neg (Nat.not_le.mpr hi), if_pos hw]

end

theorem retiring_or_armed {b : BankSt} (h : b ≠ .idle) : b = .retiring ∨ b = .armed := by
  cases b with
  | idle => exact absurd rfl h
  | armed => exact .inr rfl
  | retiring => exact .inl rfl

theorem idle_or_armed {b : BankSt} (h : b ≠ .retiring) : b = .idle ∨ b = .armed := by
  cases b with
  | idle => exact .inl rfl
  | armed => exact .inr rfl
  | retiring => exact absurd rfl h

section

variable {table idx : Nat} {bank force : Bool} {d : Dev}

theorem lt_tblSize_of_eq {k : Nat} (ht : table = k) (hi : idx < tblSize k) : idx < tblSize table := ht ▸ hi

theorem lt_tblSize_exception (w : Word64) (ht : table = 1) : fld w 0 16 < tblSize table := by
  rw [ht]
  exact Nat.mod_lt _ (by decide)

theorem lt_tblSize_of_lt_two (ht : table < 2) (hi : idx < 64) : idx < tblSize table := by
  match table, ht with
  | 0, _ => exact hi
  | 1, _ => exact Nat.lt_trans hi (by decide)

theorem tblWrite_reach (ht : table = 3) :
    tblWrite table idx bank force d = tblStatus 0 { d with rt := { d.rt with reach := tput d.rt.reach idx (tblData d 0) } } := if_pos ht

/-- A bank that is not IDLE refuses a write of its maps, unless one ARMED is forced. -/
theorem tblWrite_barred (ht : table < 2) (hs : bankState d bank = .retiring ∨ (bankState d bank = .armed ∧ force = false)) :
    tblWrite table idx bank force d = tblStatus 1 d := by
  have h2 : table ≠ 2 := by omega
  unfold tblWrite
  rw [if_neg (by omega), if_pos (by simpa using hs), if_neg (by simp [h2])]

variable (hs : bankState d bank = .idle ∨ (bankState d bank = .armed ∧ force = true))

include hs

theorem bank_takes : ¬ (bankState d bank = .retiring || (bankState d bank = .armed && !force)) = true := by
  rcases hs with h | h <;> simp [h]

theorem tblWrite_portMap (ht : table = 0) (hok : pmOk (tblData d 0) = true) : tblWrite table idx bank force d =
    tblStatus 0 (if bank then { d with rt := { d.rt with pmB := tput d.rt.pmB idx (tblData d 0) } }
      else { d with rt := { d.rt with pmA := tput d.rt.pmA idx (tblData d 0) } }) := by
  subst ht
  exact (if_neg (bank_takes hs)).trans (if_neg (by simp [hok]))

theorem tblWrite_portMap_bad (ht : table = 0) (hok : pmOk (tblData d 0) = false) :
    tblWrite table idx bank force d = tblStatus 2 d := by
  subst ht
  exact (if_neg (bank_takes hs)).trans (if_pos (by simp [hok]))

theorem tblWrite_exception (ht : table = 1) (hok : exOk (tblData d 0) = true) : tblWrite table idx bank force d =
    tblStatus 0 (if bank then { d with rt := { d.rt with exB := tput d.rt.exB idx (tblData d 0, tblData d 1) } }
      else { d with rt := { d.rt with exA := tput d.rt.exA idx (tblData d 0, tblData d 1) } }) := by
  subst ht
  exact (if_neg (bank_takes hs)).trans (if_neg (by simp [hok]))

theorem tblWrite_exception_bad (ht : table = 1) (hok : exOk (tblData d 0) = false) :
    tblWrite table idx bank force d = tblStatus 2 d := by
  subst ht
  exact (if_neg (bank_takes hs)).trans (if_pos (by simp [hok]))

theorem tblWrite_tree {t : TreeWords} (ht : table = 2) (hw : t = { w0 := tblData d 0, w1 := tblData d 1, w2 := tblData d 2, w3 := tblData d 3 })
    (hok : treeOk d bank idx t = true) (hb : boundTo d idx bank = true → bankState d bank = .armed) :
    tblWrite table idx bank force d =
      tblStatus 0 (putTree bank idx t (if boundTo d idx bank then endIfRunning idx .treeFault d else d)) := by
  subst ht hw
  exact (if_neg (bank_takes hs)).trans ((if_neg (by simp [hok])).trans (if_neg (by simpa using hb)))

end

/-! ### RT_COORD (R240) -/

section

variable {v : Wr} {d : Dev}

theorem coordWrite_barred (hb : d.rt.bankA ≠ .idle ∨ d.rt.bankB ≠ .idle) : coordWrite v d = d := if_pos (by simpa using hb)

variable (hb : d.rt.bankA = .idle ∧ d.rt.bankB = .idle)

include hb

theorem coordWrite_changed (hc : mergeWr (rtCoordWord d) 0x1FFFF v ≠ rtCoordWord d) :
    coordWrite v d = svcHellos d (helloAll (putReg 0x20040 0 (mergeWr (rtCoordWord d) 0x1FFFF v) d)) := by
  rw [coordWrite, if_neg (by simp [hb]), if_neg hc]

theorem coordWrite_same (hc : mergeWr (rtCoordWord d) 0x1FFFF v = rtCoordWord d) :
    coordWrite v d = putReg 0x20040 0 (mergeWr (rtCoordWord d) 0x1FFFF v) d := by
  rw [coordWrite, if_neg (by simp [hb]), if_pos hc]

end

theorem execRtCoordWrite_leaves {m : Master} {v : Wr} {s : State} (ha : atOnce m s) (hl : listens s) (hm : isFab m = true) :
    execRtCoordWrite m v s = .next (s.after (coordWrite v s.dev)) := by
  rw [execRtCoordWrite, fabRow_atOnce ha, lift_of_listens hl, if_pos hm]

/-! ### The whole -/

/-- Settles O44: each command's own conditions of R259, R257, R260, R271 and R240. -/
theorem epochAndTableCommandsComplete : Obligations.EpochAndTableCommandsComplete := by
  refine ⟨?_, ?_, ?_, ?_, ?_, ?_, ?_, ?_, ?_, ?_, ?_, ?_, ?_, ?_, ?_, ?_, ?_, ?_, ?_, ?_, ?_, ?_, ?_, ?_, ?_, ?_, ?_, ?_, ?_, ?_, ?_,
    ?_, ?_, ?_⟩
  · intro m v s d ha hl hw he ⟨hb, hc⟩
    change execArmA m v s = _
    exact arm_done (bank := false) ha hl hw he (fun _ => rfl) hb hc
  · intro m v s d ha hl hw he hb
    change execArmA m v s = _
    exact arm_barred (bank := false) ha hl hw he (fun _ => rfl) hb
  · intro m v s d ha hl hw he ⟨hb, hc⟩
    change execArmA m v s = _
    exact arm_unchecked (bank := false) ha hl hw he (fun _ => rfl) hb hc
  · intro m v s d ha hl hw he ⟨hb, hc⟩
    change execArmB m v s = _
    exact arm_done (bank := true) ha hl hw he (fun _ => rfl) hb hc
  · intro m v s d ha hl hw he hb
    change execArmB m v s = _
    exact arm_barred (bank := true) ha hl hw he (fun _ => rfl) hb
  · intro m v s d ha hl hw he ⟨hb, hc⟩
    change execArmB m v s = _
    exact arm_unchecked (bank := true) ha hl hw he (fun _ => rfl) hb hc
  · intro m v s d ha hl hw he ⟨hb, hst⟩ hd
    change execRetireA m v s = _
    exact retire_done (bank := false) ha hl hw he (fun _ => rfl) hb (by rw [hst]; decide) hd
  · intro m v s d ha hl hw he hb
    change execRetireA m v s = _
    exact retire_barred (bank := false) ha hl hw he (fun _ => rfl) hb
  · intro m v t s d ha hl hw he ⟨hb, hst⟩ ⟨ht, hd⟩
    change execRetireA m v s = _
    exact retire_draining (bank := false) ha hl hw he (fun _ => rfl) hb (by rw [hst]; decide) ht hd
  · intro m v s d ha hl hw he ⟨hb, hst⟩ hd
    change execRetireB m v s = _
    exact retire_done (bank := true) ha hl hw he (fun _ => rfl) hb (by rw [hst]; decide) hd
  · intro m v s d ha hl hw he hb
    change execRetireB m v s = _
    exact retire_barred (bank := true) ha hl hw he (fun _ => rfl) hb
  · intro m v t s d ha hl hw he ⟨hb, hst⟩ ⟨ht, hd⟩
    change execRetireB m v s = _
    exact retire_draining (bank := true) ha hl hw he (fun _ => rfl) hb (by rw [hst]; decide) ht hd
  · intro m v s d e x ha hl hw ⟨he, hb⟩
    change execStampWrite m v s = _
    refine epochRow_leaves ha hl hw ((stampTo_moved (d := epochWritten v s.dev) (by rwa [epochWritten_rt])
      (by rwa [bankState_epochWritten])).trans ?_)
    rw [epochWritten_rt, epochWritten_clk]
    rfl
  · intro m v s d e ha hl hw ⟨he, hb⟩
    change execStampWrite m v s = _
    exact epochRow_leaves ha hl hw (stampTo_refused (d := epochWritten v s.dev) (by rwa [epochWritten_rt]) (by rwa [bankState_epochWritten]))
  · intro m v s d ha hl hw he
    change execStampWrite m v s = _
    exact epochRow_unstamped ha hl hw he rfl rfl
  · intro m v s a d ha hl ⟨hm, hw, hr, hf⟩ ⟨ht, hi, hr'⟩
    change execTableRead m v s = _
    refine tblRow_leaves ha hl hm hw (by simp [hr]) ((tblAccess_read hf (lt_tblSize_of_eq ht hi) hr').trans ?_)
    rw [show fld (mergeWr _ _ v) 16 3 = 0 from ht]
    rfl
  · intro m v s a d ha hl ⟨hm, hw, hr, hf⟩ ⟨ht, hr'⟩
    change execTableRead m v s = _
    refine tblRow_leaves ha hl hm hw (by simp [hr]) ((tblAccess_read hf (lt_tblSize_exception _ ht) hr').trans ?_)
    rw [show fld (mergeWr _ _ v) 16 3 = 1 from ht]
    rfl
  · intro m v s a d t ha hl ⟨hm, hw, hr, hf⟩ ⟨ht, hi, hr'⟩
    change execTableRead m v s = _
    refine tblRow_leaves ha hl hm hw (by simp [hr]) ((tblAccess_read hf (lt_tblSize_of_eq ht hi) hr').trans ?_)
    rw [show fld (mergeWr _ _ v) 16 3 = 2 from ht]
    rfl
  · intro m v s a d ha hl ⟨hm, hw, hr, hf⟩ ⟨ht, hi, hr'⟩
    change execTableRead m v s = _
    refine tblRow_leaves ha hl hm hw (by simp [hr]) ((tblAccess_read hf (lt_tblSize_of_eq ht hi) hr').trans ?_)
    rw [show fld (mergeWr _ _ v) 16 3 = 3 from ht]
    rfl
  · intro m v s a d ha hl ⟨hm, hw, hr, hf⟩ ⟨hi, _⟩
    change execTableRead m v s = _
    exact tblRow_leaves ha hl hm hw (by simp [hr]) (tblAccess_beyond hf hi)
  · intro m v s a d ha hl ⟨hm, hw, hwr, hfo, hf⟩ ⟨hi, _⟩
    change execTableWrite m v s = _
    exact tblRow_leaves ha hl hm hw (by simp [hwr, hfo]) (tblAccess_beyond hf hi)
  · intro m v s a d ha hl ⟨hm, hw, hwr, hfo, hf⟩ ⟨ht, hi, hw'⟩
    change execTableWrite m v s = _
    exact tblRow_leaves ha hl hm hw (by simp [hwr, hfo]) ((tblAccess_write hf (lt_tblSize_of_eq ht hi) hw').trans (tblWrite_reach ht))
  · intro m v s a d ha hl ⟨hm, hw, hwr, hfo, hf⟩ ⟨ht, hi, hw', hs, hok⟩
    change execTableWrite m v s = _
    exact tblRow_leaves ha hl hm hw (by simp [hwr, hfo]) ((tblAccess_write hf (lt_tblSize_of_eq ht hi) hw').trans (tblWrite_portMap (.inl hs) ht hok))
  · intro m v s a d ha hl ⟨hm, hw, hwr, hfo, hf⟩ ⟨ht, hi, hw', hs, hok⟩
    change execTableWrite m v s = _
    exact tblRow_leaves ha hl hm hw (by simp [hwr, hfo]) ((tblAccess_write hf (lt_tblSize_of_eq ht hi) hw').trans (tblWrite_portMap_bad (.inl hs) ht hok))
  · intro m v s a d ha hl ⟨hm, hw, hwr, hfo, hf⟩ ⟨ht, hw', hs, hok⟩
    change execTableWrite m v s = _
    exact tblRow_leaves ha hl hm hw (by simp [hwr, hfo])
      ((tblAccess_write hf (lt_tblSize_exception _ ht) hw').trans (tblWrite_exception (.inl hs) ht hok))
  · intro m v s a d ha hl ⟨hm, hw, hwr, hfo, hf⟩ ⟨ht, hw', hs, hok⟩
    change execTableWrite m v s = _
    exact tblRow_leaves ha hl hm hw (by simp [hwr, hfo])
      ((tblAccess_write hf (lt_tblSize_exception _ ht) hw').trans (tblWrite_exception_bad (.inl hs) ht hok))
  · intro m v s a d t ha hl ⟨hm, hw, hwr, hfo, hf⟩ ⟨ht, hi, hw'⟩ ⟨hs, hok, hb⟩
    change execTableWrite m v s = _
    refine tblRow_leaves ha hl hm hw (by simp [hwr, hfo])
      ((tblAccess_write hf (lt_tblSize_of_eq ht hi) hw').trans ((tblWrite_tree (.inl hs) ht rfl hok fun h => absurd (hb.symm.trans h) nofun).trans ?_))
    rw [if_neg (Bool.eq_false_iff.mp hb)]
  · intro m v s a d ha hl ⟨hm, hw, hwr, hfo, hf⟩ ⟨ht, hi, hw', hfo', hs⟩
    change execTableWrite m v s = _
    exact tblRow_leaves ha hl hm hw (by simp [hwr, hfo]) ((tblAccess_write hf (lt_tblSize_of_lt_two ht hi) hw').trans
      (tblWrite_barred ht ((retiring_or_armed hs).imp_right fun h => ⟨h, hfo'⟩)))
  · intro m v s a d ha hl ⟨hm, hw, hwr, hfo, hf⟩ ⟨ht, hi, hw', hfo', hs, hok⟩
    change execForcedWrite m v s = _
    exact tblRow_leaves ha hl hm hw (by simp [hwr, hfo]) ((tblAccess_write hf (lt_tblSize_of_eq ht hi) hw').trans
      (tblWrite_portMap ((idle_or_armed hs).imp_right fun h => ⟨h, hfo'⟩) ht hok))
  · intro m v s a d t x ha hl ⟨hm, hw, hwr, hfo, hf⟩ ⟨ht, hi, hw', hfo'⟩ ⟨hs, hok⟩
    change execForcedWrite m v s = _
    exact tblRow_leaves ha hl hm hw (by simp [hwr, hfo])
      ((tblAccess_write hf (lt_tblSize_of_eq ht hi) hw').trans (tblWrite_tree (.inr ⟨hs, hfo'⟩) ht rfl hok fun _ => hs))
  · intro m v s a d ha hl ⟨hm, hw, hwr, hfo, hf⟩ ⟨ht, hi, hw', hfo', hs⟩
    change execForcedWrite m v s = _
    exact tblRow_leaves ha hl hm hw (by simp [hwr, hfo])
      ((tblAccess_write hf (lt_tblSize_of_lt_two ht hi) hw').trans (tblWrite_barred ht (.inl hs)))
  · intro m v s c d ha hl hm hb hc
    change execRtCoordWrite m v s = _
    rw [execRtCoordWrite_leaves ha hl hm, coordWrite_changed hb hc]
  · intro m v s c d ha hl hm hb hc
    change execRtCoordWrite m v s = _
    rw [execRtCoordWrite_leaves ha hl hm, coordWrite_same hb hc]
  · intro m v s ha hl hm hb
    change execRtCoordWrite m v s = _
    rw [execRtCoordWrite_leaves ha hl hm, coordWrite_barred hb]

end Sys2Proof.Machine
end

section
/-!
PROOFS. Link training, link-local messages and the port commands (R280 to R323).
-/
namespace Sys2Proof.Machine

open Sys2Proof

/-! ### Training and lane health -/

theorem changing_cases {st : PortSt} (h : changing st = true) : st = .nibOnly ∨ st = .up := by
  cases st with
  | nibOnly => exact .inl rfl
  | up => exact .inr rfl
  | disabled => exact absurd h nofun
  | down => exact absurd h nofun
  | training => exact absurd h nofun
  | retraining => exact absurd h nofun

section

variable {p j : Nat} {two sw inv : Bool} {d : Dev}

theorem frameLockGained_training (h : (getPort d p).st = .training) (hp : portLaneEn d p j = true) :
    frameLockGained p j two sw inv d = trained p (trainLane p j 1 sw inv d) := by
  simp only [frameLockGained, h]
  exact if_pos hp

theorem frameLockGained_retraining (h : (getPort d p).st = .retraining) (hj : j = (getPort d p).lane) :
    frameLockGained p j two sw inv d =
      finish p (resume p (updPort p (fun y => { y with rung := trainRung (getPort d p), outage := false })
        (trainLane p j (trainRung (getPort d p)) sw inv d))) := by
  simp only [frameLockGained, h]
  exact if_pos hj

/-- A port that carries traffic takes the lane in training first, and a lost frame lock again else. -/
theorem frameLockGained_changing (h : changing (getPort d p).st = true) :
    frameLockGained p j two sw inv d =
      if trainee (getPort d p) = some j then
        afterDone p (sendLink p (chgMsg 0x06 ((getPort d p).prog.getD {}))
          (updPort p (fun y => { y with doneOwn := true }) (trainLane p j (trainRung (getPort d p)) sw inv d)))
      else if !(getPort d p).frameLock && (two || !((getPort d p).lanes j).soak) then
        let y := (getPort d p).updLane j fun l => { l with framed := true, swapped := sw, inverted := inv }
        if two && !(y.l0.framed && y.l1.framed) then setPort p y d
        else rxFormat p (if two then 2 else 1) (if two then 0 else j) (setPort p { y with frameLock := true } d)
      else d := by
  rcases changing_cases h with h | h <;> simp only [frameLockGained, h]

end

/-- The marks found name a lane and a polarity: the lane locks. -/
theorem frameLock_leaves {p : Fin 64} {j : Fin 2} {before : List Mark} {last : Mark} {lane : Option Nat} {inv : Bool} {s : State} {d : Dev}
    (hl : listens s) (hm : lockOf (before ++ [last]) = some (lane, inv))
    (hd : frameLockGained p.val (lane.getD (if ((getPort s.dev p.val).lanes j.val).swapped then 1 - j.val else j.val)) lane.isSome
      (decide (lane.getD (if ((getPort s.dev p.val).lanes j.val).swapped then 1 - j.val else j.val) ≠ j.val)) inv s.dev = d) :
    exec (.frameLockGained p j before last) s = .next (s.after d) := by
  change execFrameLockGained p j before last s = _
  refine lift_leaves hl ?_
  simp only [hm]
  exact hd

theorem updPort_eq (p : Nat) (f : Port → Port) (d : Dev) : updPort p f d = setPort p (f (getPort d p)) d := rfl

/-- Settles O45: each event finds the port in the state it acts in. -/
theorem linkTrainingComplete : Obligations.LinkTrainingComplete := by
  refine ⟨?_, ?_, ?_, ?_, ?_, ?_, ?_, ?_, ?_, ?_, ?_, ?_, ?_, ?_⟩
  · intro p j before last lane inv s k sw ⟨hl, hm⟩ ⟨hst, hen⟩
    exact frameLock_leaves hl hm (frameLockGained_training hst hen)
  · intro p j before last lane inv s k sw x d ⟨hl, hm⟩ ⟨hst, hk⟩
    exact frameLock_leaves hl hm (frameLockGained_retraining hst hk)
  · intro p j before last lane inv s k sw x d ⟨hl, hm⟩ ⟨hst, hk⟩
    exact frameLock_leaves hl hm ((frameLockGained_changing hst).trans (if_pos hk))
  · intro p j before last lane inv s k sw x y ⟨hl, hm⟩ ⟨hst, hk, hlock, hlane⟩
    refine frameLock_leaves hl hm ((frameLockGained_changing hst).trans ((if_neg hk).trans (if_pos ?_)))
    rw [show (getPort s.dev p.val).frameLock = false from hlock]
    simpa using hlane
  · intro p seen s x keep hl ⟨hst, hgone⟩
    change execFrameLockLost { p := p, seen := seen } s = _
    refine lift0_leaves hl ((updPort_eq ..).trans ?_)
    dsimp only
    rw [if_pos (by simpa using ⟨hst, hgone⟩)]
  · intro p s hl ⟨hst, hlock⟩
    change execFrameLockTimeout p s = _
    exact lift_leaves hl (if_pos (by simp [hst, hlock]))
  · intro p j s x d hl ⟨hst, hlock⟩
    change execTrainLockTimeout p j s = _
    exact lift_leaves hl (if_pos (by simpa using ⟨hst, hlock⟩))
  · intro p s hl _
    change execRateLockTimeout p s = _
    exact lift_leaves hl rfl
  · intro p s hl ⟨hst, hre⟩
    change execPortDownDwellEnd p s = _
    exact lift_leaves hl (if_pos (by simpa using ⟨hst, hre⟩))
  · intro p j lol s x d hl hst
    change execLaneSignalLoss p j lol s = _
    exact lift_leaves hl (if_pos hst)
  · intro p j sym unc bip s l0 failing d x hl
    change execLaneHealthWindow p j sym unc bip s = _
    exact lift_leaves hl rfl
  · intro p j s x hl ⟨hst, hf, hso⟩ ⟨hen, hw, hln⟩
    change execLaneRestoreTimer p j s = _
    refine lift_leaves hl (if_pos ?_)
    simpa [and_assoc] using ⟨hst, hf, hso, hen, hw, hln⟩
  · intro p j s l hl ⟨hso, hf⟩
    change execLaneSoakEnd p j s = _
    refine lift_leaves hl ((if_neg ?_).trans (if_pos hso))
    rcases hf with h | h | h
    · simp [show ((getPort s.dev p.val).lanes j.val).fail = false from h]
    · simp [h]
    · simp [h]
  · intro p j s hl ⟨hso, hf, h0, h1⟩
    change execLaneSoakEnd p j s = _
    exact lift_leaves hl (if_pos (by simp [hso, hf, h0, h1]))

/-! ### Link-local messages -/

/-- A message that arrives whole on a port that carries them is taken and acted on. -/
theorem onLink_taken {p : Nat} {nt : Byte} {m : LinkMsg} {g : Dev → Dev} {d : Dev}
    (h : m.ntype = nt ∧ carriesLocal (getPort d p).st = true ∧ m.crc = linkCrc m) : onLink p nt m g d = g (takeLink p m d) := by
  obtain ⟨ht, hc, hcrc⟩ := h
  rw [onLink, if_pos (by simp [ht, hc])]
  exact if_pos hcrc

section

variable {p : Nat} {nt : Byte} {m : LinkMsg} {g : Dev → Dev} {s : State} {d : Dev} (hl : listens s)
  (h : m.ntype = nt ∧ carriesLocal (getPort s.dev p).st = true ∧ m.crc = linkCrc m) (hd : g (takeLink p m s.dev) = d)

include hl h hd

theorem onLink_leaves : lift (onLink p nt m g) s = .next (s.after d) := lift_leaves hl ((onLink_taken h).trans hd)

theorem onLink0_leaves : lift0 (onLink p nt m g) s = .next (s.now d) := lift0_leaves hl ((onLink_taken h).trans hd)

end

section

variable {p : Nat} {m : LinkMsg} {d : Dev}

theorem linkHello_stored (h : (getPort d p).st ≠ .up ∨ m.unitId = (getPort d p).unitId) :
    linkHello p m d =
      let e := setPort p { getPort d p with unitId := m.unitId, info := helloInfo m.value } d
      if bit (getPort d p).info 20 then wantRate p e else proceedUp p e := by
  rw [linkHello]
  dsimp only
  rw [if_neg (by rcases h with h | h <;> simp [h])]
  cases bit (getPort d p).info 20 <;> rfl

theorem linkHello_other (h : (getPort d p).st = .up ∧ m.unitId ≠ (getPort d p).unitId) : linkHello p m d = goDown p 7 d :=
  if_pos (by simpa using h)

section

variable (h : changing (getPort d p).st = true)

include h

theorem changeReq_busy (hp : (getPort d p).prog.isSome = true) : changeReq p m d = sendLink p { ntype := 0x05, token := m.token } d := by
  rw [changeReq, if_neg (by simp [h]), if_pos hp]

variable (hp : (getPort d p).prog = none)

include hp

theorem changeReq_first (ho : (getPort d p).own = none) : changeReq p m d = acceptChg p (msgChg m) false m.token d := by
  simp only [changeReq, h, hp, ho]
  rfl

theorem changeReq_same {o : Chg} (ho : (getPort d p).own = some o) (hs : sameChg (msgChg m) o = true) :
    changeReq p m d = acceptChg p o true m.token d := by
  simp only [changeReq, h, hp, ho, hs]
  rfl

/-- Of two requests that differ, the one of the end with the lower UNIT_ID goes first (R313). -/
theorem changeReq_other {o : Chg} (ho : (getPort d p).own = some o) (hs : sameChg (msgChg m) o = false) :
    changeReq p m d =
      if m.unitId.toNat < d.fuse.unitId.toNat then
        acceptChg p (msgChg m) false m.token (setPort p { getPort d p with own := none, plan := o :: (getPort d p).plan } d)
      else d := by
  simp only [changeReq, h, ho]
  rw [if_neg nofun, if_neg (by simp [hp]), if_neg (by simp [hs])]

end

theorem changeAck_own {o : Chg} (ho : (getPort d p).own = some o) (ht : o.token = m.token) :
    changeAck p m d =
      trySwitch p (sendLink p (chgMsg 0x04 o) (setPort p { getPort d p with
        own := none, prog := some o, mine := true, merged := false, applied := false, peerSwitch := some m.switch } d)) := by
  simp only [changeAck, ho]
  exact if_pos ht

theorem changeAck_merged {o : Chg} (ho : (getPort d p).own = none) (hm : (getPort d p).merged = true) (ha : (getPort d p).applied = false)
    (hp : (getPort d p).prog = some o) (ht : o.token = m.token) :
    changeAck p m d = trySwitch p (setPort p { getPort d p with peerSwitch := some m.switch } d) := by
  simp only [changeAck, ho]
  exact if_pos (by simp [hm, ha, hp, ht])

end

/-- Settles O46: each message arrives whole, and each timer finds what it waits for. -/
theorem linkMessagesComplete : Obligations.LinkMessagesComplete := by
  refine ⟨?_, ?_, ?_, ?_, ?_, ?_, ?_, ?_, ?_, ?_, ?_, ?_, ?_, ?_, ?_, ?_⟩
  · intro p m s d x e hl hm hu
    change execLinkHello p m s = _
    exact onLink_leaves hl hm (linkHello_stored hu)
  · intro p m s d x hl hm hu
    change execLinkHello p m s = _
    exact onLink_leaves hl hm (linkHello_other hu)
  · intro p s hl hst
    change execLinkHelloTimer p s = _
    exact lift0_leaves hl (if_pos hst)
  · intro p m s d x hl hm ⟨hst, hp, ho⟩
    change execChangeReq p m s = _
    exact onLink_leaves hl hm (changeReq_first hst hp ho)
  · intro p m s d x hl hm ⟨hst, hp⟩
    change execChangeReq p m s = _
    exact onLink_leaves hl hm (changeReq_busy hst hp)
  · intro p m o s d x hl hm ⟨hst, hp, ho, hsame⟩
    change execChangeReq p m s = _
    exact onLink_leaves hl hm (changeReq_same hst hp ho hsame)
  · intro p m o s d x hl hm ⟨hst, hp, ho, hsame⟩
    change execChangeReq p m s = _
    exact onLink_leaves hl hm (changeReq_other hst hp ho hsame)
  · intro p m o s d x hl hm ⟨ho, ht⟩
    change execChangeAck p m s = _
    exact onLink_leaves hl hm (changeAck_own ho ht)
  · intro p m o s d x hl hm ⟨ho, hme, ha, hp, ht⟩
    change execChangeAck p m s = _
    exact onLink_leaves hl hm (changeAck_merged ho hme ha hp ht)
  · intro p m o s d x hl hm ⟨hmi, hme, ha, hp, ht⟩
    change execChangeGo p m s = _
    refine onLink_leaves hl hm (if_pos ?_)
    change (!x.mine && !x.merged && !x.applied && x.prog.any fun c => c.token = m.token) = true
    simp [hmi, hme, ha, hp, ht]
  · intro p m o s d x hl hm ⟨ho, ht⟩
    change execChangeBusy p m s = _
    refine onLink0_leaves hl hm ?_
    simp only [show (getPort (takeLink p.val m s.dev) p.val).own = some o from ho]
    exact if_pos ht
  · intro p s hl hb
    change execChangeBusyWaitEnd p s = _
    exact lift_leaves hl (if_pos hb)
  · intro p m o s d x hl hm ⟨ha, hp, hk⟩
    change execChangeDone p m s = _
    refine onLink_leaves hl hm (if_pos ?_)
    change (x.applied && x.prog.any fun c => c.kind = 3 || c.kind = 4) = true
    simpa [ha, hp] using hk
  · intro p o s hl ⟨ho, ht⟩
    change execChangeReqTimeout p s = _
    refine lift_leaves hl ?_
    simp only [ho]
    exact if_pos ht
  · intro p o s hl ⟨ho, ht⟩
    change execChangeReqTimeout p s = _
    refine lift_leaves hl ?_
    simp only [ho]
    exact if_neg (by omega)
  · intro p m s d x e hl hm
    change execLinkMode p m s = _
    exact onLink_leaves hl hm rfl

/-! ### Port commands and flits -/

/-- Settles O47: the fabric manager's commands, and flits on a port that takes them. -/
theorem portCommandsComplete : Obligations.PortCommandsComplete := by
  refine ⟨?_, ?_, ?_, ?_, ?_, ?_, ?_, ?_, ?_, ?_, ?_, ?_, ?_, ?_⟩
  · intro m p s ha hl hm
    change execPortEnable m p s = _
    exact fabRow_lift_leaves hl (if_pos hm) ha
  · intro m p s ha hl hm
    change execPortDisable m p s = _
    exact fabRow_lift_leaves hl (if_pos hm) ha
  · intro m p s x ha hl hm
    change execNarrowLane0 m p s = _
    exact fabRow_lift_leaves hl (if_pos hm) ha
  · intro m p s x ha hl hm
    change execNarrowLane1 m p s = _
    exact fabRow_lift_leaves hl (if_pos hm) ha
  · intro m p s x ha hl hm
    change execWiden m p s = _
    exact fabRow_lift_leaves hl (if_pos hm) ha
  · intro m p s x ha hl hm
    change execRetrainLane0 m p s = _
    exact fabRow_lift_leaves hl (if_pos hm) ha
  · intro m p s x ha hl hm
    change execRetrainLane1 m p s = _
    exact fabRow_lift_leaves hl (if_pos hm) ha
  · intro m p s ha hl hm
    change execPortRestart m p s = _
    exact fabRow_lift_leaves hl (if_pos hm) ha
  · rintro p a slots f s hl ⟨hup, rfl⟩
    change execFlitReceive p (.flit f none) slots s = _
    exact lift_leaves hl (if_neg (by simp [hup]))
  · rintro p a slots f t s hl ⟨hup, rfl⟩
    change execFlitReceive p (.flit f (some t)) slots s = _
    exact lift_leaves hl (if_neg (by simp [hup]))
  · rintro p a slots l0 l1 s hl ⟨hup, rfl⟩
    change execFlitReceive p (.frame l0 l1) slots s = _
    exact lift_leaves hl (if_neg (by simp [hup]))
  · intro p s hl hst
    change execReplayTimeout p s = _
    exact lift_leaves hl (if_pos hst)
  · intro p s d hl hst
    change execFlitSend p s = _
    refine lift_leaves hl ?_
    rw [flitSlot]
    cases h : (getPort s.dev p.val).st with
    | training => rfl
    | nibOnly => rfl
    | up => rfl
    | disabled => rw [h] at hst; exact absurd hst nofun
    | down => rw [h] at hst; exact absurd hst nofun
    | retraining => rw [h] at hst; exact absurd hst nofun
  · intro p s hl hst
    change execFlitSend p s = _
    refine lift_leaves hl ?_
    simp only [flitSlot, hst]

end Sys2Proof.Machine
end

section
/-!
PROOFS. Fabric time (R368, R369), traffic control (R331, R340 to R345), the governor and its AVSBus (R37, R38), temperatures (R457,
R514 to R516) and hold-offs (R39).
-/
namespace Sys2Proof.Machine

open Sys2Proof

/-! ### Refill -/

theorem drainClass_empty {f : FnId} {cls : Nat} {d : Dev} (h : tget (getFn d f).admPt cls = none) (n : Nat) : drainClass f cls n d = d := by
  cases n with
  | zero => rfl
  | succ n => rw [drainClass, h]

/-- Steps each of which leaves the device as it is leave it so. -/
theorem foldl_unchanged {α : Type} {g : Dev → α → Dev} {d : Dev} (h : ∀ x, g d x = d) (l : List α) : l.foldl g d = d := by
  induction l with
  | nil => rfl
  | cons x xs ih => rw [List.foldl_cons, h, ih]

/-- Where nothing waits a refill adds to the buckets alone. -/
theorem refillFn_idle {f : FnId} {d : Dev} (h : (getFn d f).admPt = []) :
    refillFn f d = updFn f (fun x => { x with
      shapers := x.shapers.map fun e => (e.1, refill e.2), polOut := x.polOut.map refill, polIn := x.polIn.map refill }) d := by
  refine foldl_unchanged (fun c => drainClass_empty ?_ _) _
  rw [getFn_updFn]
  change tget (getFn d f).admPt c = none
  rw [h]
  rfl

/-! ### Gates -/

section

variable {p : Fin 64} {starts : Bool} {l : GateList} {s : State} (hl : listens s)

include hl

theorem gateEntryChange_pending (hp : (getGate s.dev p.val).pend = some l) (hs : l.start ≤ s.dev.clk.tsc.toNat)
    (he : starts = (entAt l.ents (phaseOf l s.dev.clk.tsc.toNat / 4) == 0)) :
    execGateEntryChange p starts s = .next (s.now (setGate p.val
      { run := some l, pend := none, entry := entAt l.ents (phaseOf l s.dev.clk.tsc.toNat / 4) } s.dev)) := by
  refine lift0_leaves hl ?_
  simp only [hp, if_pos hs]
  exact if_pos he

theorem gateEntryChange_running (hp : ∀ n, (getGate s.dev p.val).pend = some n → s.dev.clk.tsc.toNat < n.start)
    (hr : (getGate s.dev p.val).run = some l) (he : starts = (entAt l.ents (phaseOf l s.dev.clk.tsc.toNat / 4) == 0)) :
    execGateEntryChange p starts s = .next (s.now (setGate p.val
      { getGate s.dev p.val with entry := entAt l.ents (phaseOf l s.dev.clk.tsc.toNat / 4) } s.dev)) := by
  refine lift0_leaves hl ?_
  cases hn : (getGate s.dev p.val).pend with
  | none =>
    simp only [hn, hr]
    exact if_pos he
  | some n =>
    have hlt := hp n hn
    simp only [hn, if_neg (Nat.not_le.mpr hlt), hr]
    exact if_pos he

end

/-! ### The gate-list window -/

section

variable {v : Wr} {d : Dev}

theorem gclAddrWrite_beyond (h : 64 ≤ fld (mergeWr (regInForce d 0x30010 0) 0x1FFFF v) 8 8) :
    gclAddrWrite v d = putReg 0x30010 0 (mergeWr (regInForce d 0x30010 0) 0x1FFFF v) d :=
  if_pos (Bool.or_eq_true_iff.mpr (.inr (decide_eq_true h)))

variable (hw : bit (wrBits v).2 0 = true) (hp : fld (mergeWr (regInForce d 0x30010 0) 0x1FFFF v) 8 8 < 64)

include hw hp

theorem gclAddrWrite_write (hb : bit (mergeWr (regInForce d 0x30010 0) 0x1FFFF v) 16 = true) :
    gclAddrWrite v d =
      let a := mergeWr (regInForce d 0x30010 0) 0x1FFFF v
      let d1 := putReg 0x30010 0 a d
      let g := regInForce d 0x30018 0
      let e : GateEnt := { gates := fld g 32 8, dur := fld g 0 28 }
      { d1 with tc := { d1.tc with gclStg := tput d1.tc.gclStg (fld a 8 8 * 256 + fld a 0 8) e } } := by
  rw [gclAddrWrite]
  dsimp only
  rw [if_neg (by rw [hw, decide_eq_false (Nat.not_le.mpr hp)]; exact nofun), if_pos hb]

theorem gclAddrWrite_read (hb : bit (mergeWr (regInForce d 0x30010 0) 0x1FFFF v) 16 = false) :
    gclAddrWrite v d =
      let a := mergeWr (regInForce d 0x30010 0) 0x1FFFF v
      let d1 := putReg 0x30010 0 a d
      let g := (tget d.tc.gclStg (fld a 8 8 * 256 + fld a 0 8)).getD {}
      { d1 with regs := tput d1.regs 0x30018 (ins 32 g.gates ||| ins 0 g.dur) } := by
  rw [gclAddrWrite]
  dsimp only
  rw [if_neg (by rw [hw, decide_eq_false (Nat.not_le.mpr hp)]; exact nofun), if_neg (Bool.eq_false_iff.mp hb)]

end

theorem gclRow_leaves {wr : Bool} {m : Master} {i : Instr} {v : Wr} {s : State} {d : Dev} (ha : atOnce m s) (hl : listens s)
    (hm : isFab m = true ∧ bit (wrBits v).2 0 = true ∧ bit (wrBits v).1 16 = wr) (hd : gclAddrWrite v s.dev = d) :
    fabRow m i s (gclRow wr m v s) = .next (s.now d) :=
  fabRow_lift0_leaves hl ((if_pos (by simp [hm])).trans hd) ha

/-! ### Fabric time -/

/-- R368's sums for the exchange a TIME_RESP ends; the rate estimate is a free value. -/
theorem timeResp_eq (m : LinkMsg) (t1 t4 : Word64) (d : Dev) :
    timeResp m t1 t4 d =
      let r := timeOffset t1 m.value t4 m.info.toNat
      let u : Ft := { d.ft with
        offset := r.2, delay := r.1.toNat % 65536, req := none, asked := false, missed := 0, holdover := false
        rate := ((Config.freeWord d.free).setWidth 32).toInt, set := true }
      correctTime r.2 { d with free := d.free + 1, ft := relock r.2 u } := rfl

/-- A TIME_RESP that is awaited on the parent port is used. -/
theorem execTimeResp_used {p : Fin 64} {m : LinkMsg} {t1 : Word64} {s : State} (hl : listens s)
    (hm : m.ntype = 0x11 ∧ carriesLocal (getPort s.dev p.val).st = true ∧ m.crc = linkCrc m) (hr : s.dev.ft.req = some t1)
    (he : ftEn s.dev = true ∧ ftRoot s.dev = false ∧ ftParent s.dev = p.val) :
    execTimeResp p m s = .next (s.after (timeResp m t1 (arrivedAt s.dev p.val m) (takeLink p.val m s.dev))) := by
  refine lift_leaves hl ((onLink_taken hm).trans ?_)
  simp only [show (takeLink p.val m s.dev).ft.req = some t1 from hr]
  refine if_pos ?_
  change (ftEn s.dev && !ftRoot s.dev && decide (ftParent s.dev = p.val)) = true
  simp [he]

theorem execTimeResp_idle {p : Fin 64} {m : LinkMsg} {s : State} (hl : listens s)
    (hm : m.ntype = 0x11 ∧ carriesLocal (getPort s.dev p.val).st = true ∧ m.crc = linkCrc m) (hr : s.dev.ft.req = none) :
    execTimeResp p m s = .next (s.after (takeLink p.val m s.dev)) := by
  refine lift_leaves hl ((onLink_taken hm).trans ?_)
  simp only [show (takeLink p.val m s.dev).ft.req = none from hr]

/-- Settles O48: the message or the timer is awaited, the list is due, or the address names a port. -/
theorem timeAndTrafficControlComplete : Obligations.TimeAndTrafficControlComplete := by
  refine ⟨?_, ?_, ?_, ?_, ?_, ?_, ?_, ?_, ?_, ?_, ?_, ?_, ?_, ?_⟩
  · intro p m s hl hm
    change execTimeReq p m s = _
    exact lift_leaves hl (onLink_taken hm)
  · intro p m t1 s d r u hl hm ⟨hr, he⟩
    change execTimeResp p m s = _
    rw [execTimeResp_used hl hm hr he, timeResp_eq]
    rfl
  · intro p m s hl ⟨ht, hst, hcrc, hr⟩
    change execTimeResp p m s = _
    exact execTimeResp_idle hl ⟨ht, hst, hcrc⟩ hr
  · intro s k d hl he
    change execTimeExchangeTimer s = _
    exact lift0_leaves hl (if_neg (by simp [he]))
  · intro s d hl
    change execPpsInEdge s = _
    exact lift0_leaves hl rfl
  · rintro m v k s ha hl ⟨hm, rfl, hr⟩
    change execFtSet m (.full k) s = _
    exact fabRow_lift0_leaves hl ((if_pos hm).trans (if_pos hr)) ha
  · intro s hl
    change execShaperRefill s = _
    exact lift_leaves hl rfl
  · intro f s hl ⟨hf, hn⟩
    change execShaperRefill s = _
    refine lift_leaves hl ?_
    rw [hf, List.foldl_cons, List.foldl_nil, refillFn_idle hn]
  · intro p starts l s t hl ⟨hp, hs⟩ he
    change execGateEntryChange p starts s = _
    exact gateEntryChange_pending hl hp hs he
  · intro p starts l s g t hl hp ⟨hr, he⟩
    change execGateEntryChange p starts s = _
    exact gateEntryChange_running hl hp hr he
  · intro m v s a d g ha hl hm ⟨hp, hb⟩
    change execGclRead m v s = _
    exact gclRow_leaves ha hl hm (gclAddrWrite_read hm.2.1 hp hb)
  · intro m v s a ha hl hm hp
    change execGclRead m v s = _
    exact gclRow_leaves ha hl hm (gclAddrWrite_beyond hp)
  · intro m v s a d g ha hl hm ⟨hp, hb⟩
    change execGclWrite m v s = _
    exact gclRow_leaves ha hl hm (gclAddrWrite_write hm.2.1 hp hb)
  · intro m v s a ha hl hm hp
    change execGclWrite m v s = _
    exact gclRow_leaves ha hl hm (gclAddrWrite_beyond hp)

/-! ### Pace and temperatures -/

theorem getHbm_setHbm (n : Fin 2) (h : HbmT) (d : Dev) : getHbm (setHbm n h d) n = h := by
  match n with
  | 0 => rfl
  | 1 => rfl

theorem setHbm_setHbm (n : Fin 2) (h k : HbmT) (d : Dev) : setHbm n h (setHbm n k d) = setHbm n h d := by
  match n with
  | 0 => rfl
  | 1 => rfl

section

variable {n : Fin 2} {d : Dev}

theorem postHbm_throttle (h : (getHbm d n).throttled = true ∧ ((getHbm d n).lastOn = false ∨ (getHbm d n).cap ≠ (getHbm d n).lastCap)) :
    postHbm n (setHbm n { getHbm d n with holdT := false } d) =
      postSubscribed .hbmThrottle (BitVec.ofNat 32 n.val) (hbmInfo (getHbm d n).temp (getHbm d n).cap) 0
        (setHbm n { getHbm d n with lastOn := true, lastCap := (getHbm d n).cap, holdT := true } d) := by
  rw [postHbm, getHbm_setHbm, setHbm_setHbm]
  exact if_pos (by simpa using h)

theorem postHbm_throttleEnd (h : (getHbm d n).throttled = false ∧ (getHbm d n).lastOn = true) :
    postHbm n (setHbm n { getHbm d n with holdE := false } d) =
      postSubscribed .hbmThrottleEnd (BitVec.ofNat 32 n.val) (hbmInfo (getHbm d n).temp 100) 0
        (setHbm n { getHbm d n with lastOn := false, lastCap := 100, holdE := true } d) := by
  rw [postHbm, getHbm_setHbm]
  dsimp only
  rw [if_neg (by simp [h]), if_pos (by simp [h]), setHbm_setHbm]

end

theorem govern_barred {d : Dev} (h : d.pace.avsOut = true ∨ d.pace.avsHold = true ∨ fencedBlk d 0 = true) : govern d = d :=
  if_pos (by simpa [or_assoc] using h)

theorem govern_free {d : Dev} (h : d.pace.avsOut = false ∧ d.pace.avsHold = false ∧ fencedBlk d 0 = false) :
    govern d = if govVolts d = d.pace.vdd then d else askVolts (govVolts d) d := if_neg (by simp [h])

/-- A stack at 110 degrees or more is shut (R516). -/
theorem hbmSample_shut {n : Fin 2} {t : Int} {d : Dev} (h : (getHbm d n).shut = false) (ht : 220 ≤ t) :
    hbmSample n t d = report (srcHbm n.val) .fatal caThermal 0 0 1
      (setHbm n { getHbm d n with temp := t, fast := true, shut := true, failed := true } d) := by
  rw [hbmSample]
  dsimp only
  rw [if_neg (by simp [h]), if_pos ht]

/-- Settles O49: each event finds the state it acts in. -/
theorem paceAndThermalComplete : Obligations.PaceAndThermalComplete := by
  refine ⟨?_, ?_, ?_, ?_, ?_, ?_, ?_, ?_, ?_, ?_, ?_, ?_, ?_, ?_, ?_, ?_, ?_, ?_, ?_⟩
  · rintro k n s hl rfl
    change execPaceEventHoldoffEnd (.throttle n) s = _
    exact lift0_leaves hl rfl
  · rintro k n s hl rfl
    change execPaceEventHoldoffEnd (.throttleEnd n) s = _
    exact lift0_leaves hl rfl
  · rintro k s hl rfl
    change execPaceEventHoldoffEnd .paceLow s = _
    exact lift0_leaves hl rfl
  · rintro k s hl rfl
    change execPaceEventHoldoffEnd .paceRestored s = _
    exact lift0_leaves hl rfl
  · intro s hl h
    change execPaceEventHoldoffEnd .paceLow s = _
    exact lift0_leaves hl (if_pos (by simpa using h))
  · intro s hl h
    change execPaceEventHoldoffEnd .paceRestored s = _
    exact lift0_leaves hl ((if_neg (by simp [h])).trans (if_pos (by simpa using h)))
  · intro s hl h
    change execPaceEventHoldoffEnd .paceLow s = _
    refine lift0_leaves hl ((if_neg ?_).trans (if_neg ?_)) <;> simp [h]
  · intro n s x hl h
    change execPaceEventHoldoffEnd (.throttle n) s = _
    exact lift0_leaves hl (postHbm_throttle h)
  · intro n s x hl h
    change execPaceEventHoldoffEnd (.throttleEnd n) s = _
    exact lift0_leaves hl (postHbm_throttleEnd h)
  · intro s hl h
    change execGovernorEvaluation s = _
    exact lift0_leaves hl (govern_barred h)
  · intro s hl h
    change execGovernorEvaluation s = _
    exact lift0_leaves hl (govern_free h)
  · intro s hl
    change execAvsRequestComplete s = _
    exact lift0_leaves hl rfl
  · intro status s hl h
    change execAvsTimeout status s = _
    exact lift0_leaves hl (if_pos h)
  · intro status s hl
    change execAvsFault status s = _
    exact lift0_leaves hl rfl
  · intro s d hl h
    change execAvsRetry s = _
    exact lift0_leaves hl (if_neg (by simp [h]))
  · intro raw a c s hl
    change execThermalSample raw a c s = _
    exact lift_leaves hl rfl
  · intro raw a c s d hl ⟨hs, ha⟩
    change execThermalSample raw a c s = _
    exact lift_leaves hl (congrArg (hbmSample 1 c) (hbmSample_shut hs ha))
  · intro s hl
    change execThermtrip s = _
    exact lift_leaves hl rfl
  · intro q s lose hl
    change execRefclkFabLoss q s = _
    exact lift_leaves hl rfl

end Sys2Proof.Machine
end

section
/-!
PROOFS. The frames of the service network: how one that arrives whole is stored and where it is routed (O50).
-/
namespace Sys2Proof.Machine

open Sys2Proof

/-! ### The arrival of a frame -/

/-- A LINK_ACK only acknowledges (R354). -/
theorem svcArrive_linkAck {handle : Nat → Dev → Dev} {n : Nat} {f : Frame} {d : Dev} (hx : (getSvc d n).link = 2)
    (h0 : f.ftype = 0) (hg : frameGood f = true) : svcArrive 0 n f handle d = svcRun (takeFrameAck n f d) := by
  rw [svcArrive]
  dsimp only
  rw [if_neg (by simp [hx, h0]), if_neg (by simp [hg]), if_pos h0]

/-- A frame that is not link-local is routed once it is stored (R356). -/
theorem frame_leaves {code : BitVec 4} {n : Fin 4} {f : Frame} {s : State} {consume : Frame → Dev → Dev} {d : Dev}
    (hr : frameReaches code n f s) (h0 : code ≠ 0) (h9 : code.toNat ≤ 9)
    (h : routeFrame f (some (n.val, frameBuf n.val s.dev)) mgrTake consume (frameStored n.val f s.dev) = d) :
    lift0 (svcFrame code n.val f consume) s = .next (s.now (svcRun d)) := by
  rw [svcFrame_reaches consume hr h0 h9, h]

/-- A COMMAND is routed once it is stored, and what can be carried out is. -/
theorem command_leaves {n : Fin 4} {f : Frame} {s : State} {d : Dev} (hr : frameReaches 5 n f s)
    (h : routeFrame f (some (n.val, frameBuf n.val s.dev)) mgrTake (cmdIn (some n.val)) (frameStored n.val f s.dev) = d) :
    exec (.command n f) s = .next (s.after (pumpCmds s.mir (svcRun d))) := by
  change execCommand n f s = _
  refine lift_leaves hr.1 ?_
  rw [svcFrame, svcArrive_stored _ hr (by decide) (by decide), h]

/-! ### Where a frame goes (R356) -/

section
variable {f : Frame} {a : Option (Nat × Nat)} {up consume : Frame → Dev → Dev} {d : Dev}

theorem mgrTake_held (h : d.svc.rx.length < 64) : mgrTake f d = { d with svc := { d.svc with rx := d.svc.rx ++ [f] } } :=
  if_pos h

theorem mgrTake_full (h : 64 ≤ d.svc.rx.length) :
    mgrTake f d = { d with svc := { d.svc with rxDrops := d.svc.rxDrops.add 1 } } :=
  if_neg (Nat.not_lt.mpr h)

/-- An UP frame at the active manager is the manager's. -/
theorem routeFrame_manager (hu : f.up = true) (hr : d.svc.role = 2) : routeFrame f a up consume d = up f d := by
  rw [routeFrame, if_pos hu, if_pos hr]

theorem forwardOn_link {p : Nat} (h : (getSvc d p).link = 2) : forwardOn p f a d = svcQueue p f a d :=
  if_pos (by simp [h])

/-- An UP frame elsewhere goes on by the upstream. -/
theorem routeFrame_upstream {u : Nat} (hu : f.up = true) (hr : d.svc.role ≠ 2) (hc : f.coord ≠ 0) (hs : d.svc.upstream = some u)
    (hl : (getSvc d u).link = 2) : routeFrame f a up consume d = svcQueue u { f with coord := f.coord - 1 } a d := by
  rw [routeFrame, if_pos hu, if_neg hr, if_neg hc, forwardUp, hs]
  exact forwardOn_link hl

section
variable (hu : f.up = false) (hf : f.flood = false) (hv : f.via = false)
include hu hf hv

theorem routeFrame_path : routeFrame f a up consume d = followPath f a consume d := by
  rw [routeFrame, if_neg (by simp [hu]), if_neg (by simp [hf]), if_neg (by simp [hv])]

/-- A frame whose PATH ends here is this device's. -/
theorem routeFrame_here (hp : f.pathLen = 0) : routeFrame f a up consume d = consume f d := by
  rw [routeFrame_path hu hf hv, followPath, if_pos hp]

/-- A frame whose PATH goes on is sent by its next port. -/
theorem routeFrame_onward (hp : f.pathLen ≠ 0) (hl : (getSvc d (f.path.toNat % 4)).link = 2) :
    routeFrame f a up consume d =
      svcQueue (f.path.toNat % 4) { f with path := f.path >>> 2, pathLen := f.pathLen - 1 } a d := by
  rw [routeFrame_path hu hf hv, followPath, if_neg hp]
  exact forwardOn_link hl

end
end

/-! ### What the routing of an arrived frame leaves -/

section
variable {code : BitVec 4} {n : Fin 4} {f : Frame} {s : State} {consume : Frame → Dev → Dev} (hr : frameReaches code n f s)
  (h0 : code ≠ 0) (h9 : code.toNat ≤ 9)
include hr h0 h9

theorem frame_held (h : f.up = true ∧ (frameStored n.val f s.dev).svc.role = 2 ∧ (frameStored n.val f s.dev).svc.rx.length < 64) :
    lift0 (svcFrame code n.val f consume) s = .next (s.now (svcRun { frameStored n.val f s.dev with
      svc := { (frameStored n.val f s.dev).svc with rx := (frameStored n.val f s.dev).svc.rx ++ [f] } })) :=
  frame_leaves hr h0 h9 ((routeFrame_manager h.1 h.2.1).trans (mgrTake_held h.2.2))

theorem frame_full (h : f.up = true ∧ (frameStored n.val f s.dev).svc.role = 2 ∧ 64 ≤ (frameStored n.val f s.dev).svc.rx.length) :
    lift0 (svcFrame code n.val f consume) s = .next (s.now (svcRun { frameStored n.val f s.dev with
      svc := { (frameStored n.val f s.dev).svc with rxDrops := (frameStored n.val f s.dev).svc.rxDrops.add 1 } })) :=
  frame_leaves hr h0 h9 ((routeFrame_manager h.1 h.2.1).trans (mgrTake_full h.2.2))

theorem frame_up {u : Nat}
    (h : f.up = true ∧ (frameStored n.val f s.dev).svc.role ≠ 2 ∧ f.coord ≠ 0 ∧ (frameStored n.val f s.dev).svc.upstream = some u)
    (hl : (getSvc (frameStored n.val f s.dev) u).link = 2) :
    lift0 (svcFrame code n.val f consume) s = .next (s.now (svcRun
      (svcQueue u { f with coord := f.coord - 1 } (some (n.val, frameBuf n.val s.dev)) (frameStored n.val f s.dev)))) := by
  obtain ⟨hu, hm, hc, hs⟩ := h
  exact frame_leaves hr h0 h9 (routeFrame_upstream hu hm hc hs hl)

theorem frame_here (h : f.up = false ∧ f.flood = false ∧ f.via = false ∧ f.pathLen = 0) :
    lift0 (svcFrame code n.val f consume) s = .next (s.now (svcRun (consume f (frameStored n.val f s.dev)))) := by
  obtain ⟨hu, hf, hv, hp⟩ := h
  exact frame_leaves hr h0 h9 (routeFrame_here hu hf hv hp)

theorem frame_onward (h : f.up = false ∧ f.flood = false ∧ f.via = false ∧ f.pathLen ≠ 0)
    (hl : (getSvc (frameStored n.val f s.dev) (f.path.toNat % 4)).link = 2) :
    lift0 (svcFrame code n.val f consume) s = .next (s.now (svcRun (svcQueue (f.path.toNat % 4)
      { f with path := f.path >>> 2, pathLen := f.pathLen - 1 } (some (n.val, frameBuf n.val s.dev)) (frameStored n.val f s.dev)))) := by
  obtain ⟨hu, hf, hv, hp⟩ := h
  exact frame_leaves hr h0 h9 (routeFrame_onward hu hf hv hp hl)

end

/-! ### The service frames -/

/-- Settles O50: a frame that arrives whole and in sequence is stored; then its code says what handles it, or its address
where it goes. -/
theorem serviceFramesComplete : Obligations.ServiceFramesComplete := by
  unfold Obligations.ServiceFramesComplete
  refine ⟨?_, ?_, ?_, ?_, ?_, ?_, ?_, ?_, ?_, ?_, ?_, ?_, ?_, ?_, ?_, ?_, ?_, ?_, ?_, ?_, ?_, ?_, ?_, ?_, ?_, ?_, ?_, ?_, ?_, ?_⟩
  · intro n f s hl ⟨hx, h0, hg⟩
    change execSvcLinkAck n f s = _
    exact lift0_leaves hl (svcArrive_linkAck hx h0 hg)
  · intro n f s d w y z hr
    change execSvcHello n f s = _
    exact svcArrive_reaches _ hr (by decide) (by decide)
  · intro n f v s d hr
    change execSpeed n f v s = _
    exact svcArrive_reaches _ hr (by decide) (by decide)
  · intro n f s d term y z hr
    change execHeartbeat n f s = _
    exact svcArrive_reaches _ hr (by decide) (by decide)
  · intro n f s t d hr
    change execDiscover n f s = _
    exact svcFrame_reaches _ hr (by decide) (by decide)
  · intro n f s t d hr
    change execUpFrame 4 n f s = _
    exact svcFrame_reaches _ hr (by decide) (by decide)
  · intro n f s t d hr
    change execUpFrame 6 n f s = _
    exact svcFrame_reaches _ hr (by decide) (by decide)
  · intro n f s t d hr
    change execUpFrame 8 n f s = _
    exact svcFrame_reaches _ hr (by decide) (by decide)
  · intro n f s t d hr
    exact command_leaves hr rfl
  · intro n f s d hr h
    change execDiscover n f s = _
    exact frame_held hr (by decide) (by decide) h
  · intro n f s d hr h
    change execDiscover n f s = _
    exact frame_full hr (by decide) (by decide) h
  · intro n f u s t d hr h hl
    change execDiscover n f s = _
    exact frame_up hr (by decide) (by decide) h hl
  · intro n f s d hr h
    change execDiscover n f s = _
    exact frame_here hr (by decide) (by decide) h
  · intro n f s t d hr h hl
    change execDiscover n f s = _
    exact frame_onward hr (by decide) (by decide) h hl
  · intro n f s d hr h
    change execUpFrame 4 n f s = _
    exact frame_held hr (by decide) (by decide) h
  · intro n f s d hr h
    change execUpFrame 4 n f s = _
    exact frame_full hr (by decide) (by decide) h
  · intro n f u s t d hr h hl
    change execUpFrame 4 n f s = _
    exact frame_up hr (by decide) (by decide) h hl
  · intro n f s d hr h
    change execUpFrame 4 n f s = _
    exact frame_here hr (by decide) (by decide) h
  · intro n f s t d hr h hl
    change execUpFrame 4 n f s = _
    exact frame_onward hr (by decide) (by decide) h hl
  · intro n f s d hr h
    change execUpFrame 6 n f s = _
    exact frame_held hr (by decide) (by decide) h
  · intro n f s d hr h
    change execUpFrame 6 n f s = _
    exact frame_full hr (by decide) (by decide) h
  · intro n f u s t d hr h hl
    change execUpFrame 6 n f s = _
    exact frame_up hr (by decide) (by decide) h hl
  · intro n f s d hr h
    change execUpFrame 6 n f s = _
    exact frame_here hr (by decide) (by decide) h
  · intro n f s t d hr h hl
    change execUpFrame 6 n f s = _
    exact frame_onward hr (by decide) (by decide) h hl
  · intro n f s d hr h
    change execUpFrame 8 n f s = _
    exact frame_held hr (by decide) (by decide) h
  · intro n f s d hr h
    change execUpFrame 8 n f s = _
    exact frame_full hr (by decide) (by decide) h
  · intro n f u s t d hr h hl
    change execUpFrame 8 n f s = _
    exact frame_up hr (by decide) (by decide) h hl
  · intro n f s d hr h
    change execUpFrame 8 n f s = _
    exact frame_here hr (by decide) (by decide) h
  · intro n f s t d hr h hl
    change execUpFrame 8 n f s = _
    exact frame_onward hr (by decide) (by decide) h hl
  · intro n f s d hr ⟨hu, hf, hv, hp, hb⟩
    exact command_leaves hr ((routeFrame_here hu hf hv hp).trans (if_pos hb))

end Sys2Proof.Machine
end

section
/-!
PROOFS. The service links, their timers, the service route table and the manager role (O51).
-/
namespace Sys2Proof.Machine

open Sys2Proof

/-! ### The service links -/

/-- A link makes the change to its target once no SPEED frame is owed (R350). -/
theorem execSpeedSwitch_leaves {n : Fin 4} {v : Nat} {s : State} (hl : listens s) (ht : (getSvc s.dev n.val).target = some v)
    (hx : (getSvc s.dev n.val).link = 2) (hu : ((getSvc s.dev n.val).unacked.any fun f => decide (f.ftype = 0x2)) = false)
    (hw : ((getSvc s.dev n.val).waitQ.any fun w => decide (w.1.ftype = 0x2)) = false) :
    execSpeedSwitch n s = .next (s.now (emit (.svcSpeed n.val v)
      (setSvc n.val { getSvc s.dev n.val with speed := v, switching := true, link := 1 } s.dev))) := by
  refine lift0_leaves hl ?_
  dsimp only
  split
  · next t h =>
    obtain rfl : v = t := Option.some.inj (ht.symm.trans h)
    rw [if_neg (by rw [hu, hw]; simp [hx])]
  · next h => exact absurd (ht.symm.trans h) nofun

/-- A change of speed that finds no lock goes back to the lowest (R350). -/
theorem execSpeedLockTimeout_leaves {n : Fin 4} {v : Nat} {s : State} (hl : listens s)
    (ht : (getSvc s.dev n.val).target = some v) (hx : (getSvc s.dev n.val).switching = true) :
    execSpeedLockTimeout n s = .next (s.now (emit (.svcSpeed n.val 0) (setSvc n.val
      { getSvc s.dev n.val with speed := 0, target := none, failedSpeeds := (getSvc s.dev n.val).failedSpeeds ++ [v] } s.dev))) := by
  refine lift0_leaves hl ?_
  dsimp only
  split
  · next t h =>
    obtain rfl : v = t := Option.some.inj (ht.symm.trans h)
    rw [if_neg (by simp [hx])]
  · next h => exact absurd (ht.symm.trans h) nofun

theorem restart_taken {m : Master} {n : Nat} {w : Wr} {d : Dev} (hf : isFab m = true) (hb : bit (wrBits w).1 59 = true)
    (hv : bit (wrBits w).2 59 = true) :
    (if isFab m && bit (wrBits w).1 59 && bit (wrBits w).2 59 then halfwise (svcCtlWrite n) w d else d) =
      halfwise (svcCtlWrite n) w d :=
  if_pos (by rw [hf, hb, hv]; rfl)

/-- Settles O51: each event acts only where its link, role or master lets it, and then by the operation its rule names. -/
theorem serviceLinksComplete : Obligations.ServiceLinksComplete := by
  unfold Obligations.ServiceLinksComplete
  refine ⟨?_, ?_, ?_, ?_, ?_, ?_, ?_, ?_, ?_, ?_, ?_, ?_, ?_, ?_, ?_, ?_, ?_, ?_, ?_⟩
  · intro n s hl
    change execSvcHelloTimer n s = _
    exact lift0_leaves hl rfl
  · intro n s x hl ⟨he, hx⟩
    change execSvcLockGained n s = _
    exact lift0_leaves hl (if_neg (by simp [he]; exact hx))
  · intro n errs s hl ⟨hx, he⟩
    change execSvcLockLost { n := n, errs := errs } s = _
    exact lift0_leaves hl ((if_neg (by simp [hx])).trans (if_pos he))
  · intro n errs s hl ⟨hx, he⟩
    change execSvcLockLost { n := n, errs := errs } s = _
    exact lift0_leaves hl ((if_neg (by simp [hx])).trans (if_neg (by simp [he])))
  · intro n s x hl ⟨hx, hu, hr⟩
    change execSvcAckTimeout n s = _
    exact lift0_leaves hl ((if_neg (by simpa [x] using ⟨hx, hu⟩)).trans (if_pos hr))
  · intro n s x again hl ⟨hx, hu, hr⟩
    change execSvcAckTimeout n s = _
    exact lift0_leaves hl ((if_neg (by simpa [x] using ⟨hx, hu⟩)).trans (if_neg (Nat.not_le.mpr hr)))
  · intro n s x hl ⟨hx, ha⟩
    change execSvcLinkAckTimer n s = _
    exact lift0_leaves hl (if_pos (by simpa [x] using ⟨hx, ha⟩))
  · intro n v s x hl ⟨ht, hx⟩ ⟨hu, hw⟩
    change execSpeedSwitch n s = _
    exact execSpeedSwitch_leaves hl ht hx hu hw
  · intro n v s x hl ⟨ht, hx⟩
    change execSpeedLockTimeout n s = _
    exact execSpeedLockTimeout_leaves hl ht hx
  · intro m n v s ha hl ⟨hf, hb, hv⟩
    change execSvcRestart m n v s = _
    exact (fabRow_atOnce ha).trans (lift0_leaves hl (restart_taken hf hb hv))
  · intro m v s ha hl ⟨hf, hb, hw⟩
    change execSvcRtRead m v s = _
    exact fabRow_lift0_leaves hl (if_pos (by rw [hf, hb, hw]; rfl)) ha
  · intro m v s ha hl ⟨hf, hb, hw⟩
    change execSvcRtWrite m v s = _
    exact fabRow_lift0_leaves hl (if_pos (by rw [hf, hb, hw]; rfl)) ha
  · intro s hl
    change execUpstreamTimeout s = _
    exact lift0_leaves hl rfl
  · intro s hl hr
    change execHeartbeatTimer s = _
    exact lift0_leaves hl (if_pos hr)
  · intro s hl hn
    change execManagerListenEnd s = _
    exact lift0_leaves hl (if_neg (by simp [hn]))
  · intro s hl hr
    change execTakeover s = _
    exact lift0_leaves hl (if_pos hr)
  · intro s hl
    change execLeaseTimeout s = _
    exact lift0_leaves hl rfl
  · intro m v s ha hl ⟨hf, hb⟩
    change execModeCtlReq m v s = _
    exact fabRow_lift0_leaves hl (if_pos (by simp [hf, hb])) ha
  · intro m v s ha hl ⟨hf, hb⟩
    change execModeCtlDeviceReset m v s = _
    refine fabRow_lift0_leaves hl ((if_pos (by simp [hf, hb])).trans ?_) ha
    simp [modeCtlWrite, hb]

end Sys2Proof.Machine
end

section
/-!
PROOFS. The metering island: its events (O52) and the writes of its register block with the reads of its windows (O53).
-/
namespace Sys2Proof.Machine

open Sys2Proof

/-! ### Commands of the island -/

/-- On a device with metering a command of the island leaves what its operation leaves, told where it changed (R401). -/
theorem island_leaves {g : Dev → Dev} {s : State} {d : Dev} (hf : s.dev.fuse.meter = true) (h : g s.dev = d) :
    island g s = .next (s.now (meterNotify d)) := by
  rw [island_metered hf, h]

/-- A write of the register block by a master that may write there, while the island has power, changes the island (R383). -/
theorem mtrWrite_leaves {m : Master} {g : Isl → Isl} {s : State} (h : s.dev.fuse.meter = true ∧ s.dev.isl.powered = true)
    (hw : mayWrite s.dev m = true) : mtrWrite m g s = .next (s.now (meterNotify (updIsl g s.dev))) :=
  island_leaves h.1 (if_pos (by rw [hw, h.2]; rfl))

theorem sealed_open {g : Isl → Isl} {d : Dev} (h : d.isl.sealOpen = true) : updIsl (sealed g) d = updIsl g d := by
  rw [updIsl_eq, sealed, if_pos h, updIsl_eq]

/-- With the seal open the write that needs it is made (R383). -/
theorem mtrWrite_open {m : Master} {g : Isl → Isl} {s : State} (h : s.dev.fuse.meter = true ∧ s.dev.isl.powered = true)
    (hw : mayWrite s.dev m = true ∧ s.dev.isl.sealOpen = true) :
    mtrWrite m (sealed g) s = .next (s.now (meterNotify (updIsl g s.dev))) := by
  rw [mtrWrite_leaves h hw.1, sealed_open hw.2]

theorem fwCtlRow_named {cmd : Nat} {m : Master} {w : Wr} {s : State} (h : bit (wrBits w).2 60 = true ∧ fld (wrBits w).1 60 4 = cmd) :
    fwCtlRow cmd m w s = mtrWrite m (sealed (fwCtlWrite w)) s :=
  if_pos (by rw [h.1, h.2]; simp)

/-! ### The island's events -/

/-- Settles O52: with metering and power each event acts as its rule says, and what changed of the hold is told. -/
theorem meterEventsComplete : Obligations.MeterEventsComplete := by
  unfold Obligations.MeterEventsComplete
  refine ⟨?_, ?_, ?_, ?_, ?_, ?_, ?_, ?_, ?_, ?_, ?_, ?_⟩
  · intro tap s ⟨hf, hp⟩
    change execTallyTapDelivery tap s = _
    exact island_leaves hf (if_pos hp)
  · intro tap s d ⟨hf, hp⟩ hs ha
    change execTapSilence tap s = _
    exact island_leaves hf ((if_neg (by rw [hp, hs]; exact nofun)).trans (if_neg (by rw [ha]; exact nofun)))
  · intro s i k t moved slew ⟨hf, hp⟩ ht
    change execMeterSample s = _
    exact island_leaves hf (if_neg (by rw [hp, ht]; exact nofun))
  · intro s ⟨hf, hp⟩ _
    change execMinuteBoundary s = _
    exact island_leaves hf (if_pos hp)
  · intro b s e ⟨hf, hp⟩ hb
    change execBlockSigned s = _
    refine island_leaves hf ?_
    simp only [hb]
    exact if_pos hp
  · rintro ok b s ⟨hf, hp⟩ ⟨hb, rfl⟩
    change execFlashWriteDone true s = _
    refine island_leaves hf ?_
    simp only [hb]
    exact if_neg (by rw [hp]; exact nofun)
  · rintro ok b s ⟨hf, hp⟩ ⟨hb, rfl⟩
    change execFlashWriteDone false s = _
    refine island_leaves hf ?_
    simp only [hb]
    exact if_neg (by rw [hp]; exact nofun)
  · intro opened s n mark ⟨hf, hp⟩ ho
    change execSealSample opened s = _
    exact island_leaves hf (if_neg (by simp [hp, ho]))
  · intro v s ⟨hf, hp⟩
    change execIslandPowerUp v s = _
    exact island_leaves hf (if_neg (by rw [hp]; exact nofun))
  · intro s hf
    change execVddMtrLoss s = _
    exact island_leaves hf rfl
  · intro s d ⟨hf, hp⟩
    change execMeterXoLoss s = _
    exact island_leaves hf (if_neg (by rw [hp]; exact nofun))
  · intro g v s ⟨hf, hp⟩ hs
    change execMtrFwVerifyDone g v s = _
    exact island_leaves hf (if_neg (by simp [hp, hs]))

/-! ### Writes of the register block and reads of its windows -/

/-- Settles O53: a permitted write reaches the island, where the seal must be open past the seal; a window read answers as the
device and its reader stand. -/
theorem meterWritesComplete : Obligations.MeterWritesComplete := by
  unfold Obligations.MeterWritesComplete
  refine ⟨?_, ?_, ?_, ?_, ?_, ?_, ?_, ?_, ?_, ?_, ?_, ?_⟩
  · intro m v s ha h hw
    change execMtrTimeSet m v s = _
    exact (fabRow_atOnce ha).trans (mtrWrite_leaves h hw)
  · intro m v s ha h hw
    change execMtrTimeAdj m v s = _
    exact (fabRow_atOnce ha).trans (mtrWrite_leaves h hw)
  · intro m v s ha ⟨hf, hp⟩ hw
    exact exec_mtrAck_metered hf hp hw ha
  · intro k m v s ha h hw
    change execMtrRdSel k m v s = _
    exact (fabRow_atOnce ha).trans (mtrWrite_leaves h hw)
  · intro m v s ha h hw
    change execTrimSet m v s = _
    exact (fabRow_atOnce ha).trans (mtrWrite_open h hw)
  · intro m v s ha h hw
    change execOperatorSet m v s = _
    exact (fabRow_atOnce ha).trans (mtrWrite_open h hw)
  · intro m v s ha h hw
    change execMtrFwData m v s = _
    exact (fabRow_atOnce ha).trans (mtrWrite_open h hw)
  · intro m v s ha h hw hc
    change execMtrFwBegin m v s = _
    exact (fabRow_atOnce ha).trans ((fwCtlRow_named hc).trans (mtrWrite_open h hw))
  · intro m v s ha h hw hc
    change execMtrFwActivate m v s = _
    exact (fabRow_atOnce ha).trans ((fwCtlRow_named hc).trans (mtrWrite_open h hw))
  · intro k m n lo hi s ha hl ⟨hw, hf⟩
    change execMtrWindowRead k m n lo hi s = _
    refine fabRow_lift0_leaves hl ?_ ha
    exact (if_neg (by rw [hw]; exact nofun)).trans (if_pos (by rw [hf]; rfl))
  · intro k m n lo hi s ha hl ⟨hw, hf, hr⟩
    change execMtrWindowRead k m n lo hi s = _
    refine fabRow_lift0_leaves hl ?_ ha
    exact (if_neg (by rw [hw]; exact nofun)).trans ((if_neg (by rw [hf]; exact nofun)).trans
      (if_pos (by simpa using hr)))
  · intro k m n lo hi s v ha hl ⟨hw, hf, hp, hr⟩
    change execMtrWindowRead k m n lo hi s = _
    refine fabRow_lift0_leaves hl ?_ ha
    exact (if_neg (by rw [hw]; exact nofun)).trans ((if_neg (by rw [hf]; exact nofun)).trans
      (if_neg (by rw [hp, hr]; exact nofun)))

end Sys2Proof.Machine
end

section
/-!
PROOFS. Resets, the boot, images over the service network, ACTIVATE and COMMIT (O54).
-/
namespace Sys2Proof.Machine

open Sys2Proof

/-! ### The boot -/

section
variable {d : Dev} {slot : Bool}

/-- A slot that verifies is recorded as running and its firmware started (R443). -/
theorem slotVerified_good {more : List Bool} (hp : d.boot.phase = .verify slot more) (hv : verifyImage d (slotBytes d slot) = 0) :
    slotVerified d = startFirmware (slotBytes d slot)
      { bootRecord (slotPref d) (bootFails d + 1) d with
        boot := { (bootRecord (slotPref d) (bootFails d + 1) d).boot with slotRun := slot } } := by
  simp only [slotVerified, hp]
  exact if_pos hv

/-- A slot that does not verify is followed by the next one to try. -/
theorem slotVerified_next {next : Bool} {more : List Bool} (hp : d.boot.phase = .verify slot (next :: more))
    (hv : verifyImage d (slotBytes d slot) ≠ 0) :
    slotVerified d = { d with boot := { d.boot with phase := .verify next more } } := by
  simp only [slotVerified, hp]
  exact if_neg hv

/-- Where no slot verifies a device reset follows. -/
theorem slotVerified_last (hp : d.boot.phase = .verify slot []) (hv : verifyImage d (slotBytes d slot) ≠ 0) :
    slotVerified d = ownReset (bootRecord (slotPref d) (bootFails d + 1) d) := by
  simp only [slotVerified, hp]
  exact if_neg hv

theorem noSlotLeft_last (hp : d.boot.phase = .verify slot []) : noSlotLeft d = (verifyImage d (slotBytes d slot) != 0) := by
  simp only [noSlotLeft, hp]

theorem noSlotLeft_more {next : Bool} {more : List Bool} (hp : d.boot.phase = .verify slot (next :: more)) : noSlotLeft d = false := by
  simp only [noSlotLeft, hp]

theorem noSlotLeft_good {more : List Bool} (hp : d.boot.phase = .verify slot more) (hv : verifyImage d (slotBytes d slot) = 0) :
    noSlotLeft d = false := by
  cases more with
  | nil => rw [noSlotLeft_last hp, hv]; rfl
  | cons next more => exact noSlotLeft_more hp

end

/-- SLOT_VERIFY_DONE where a slot verifies or one is left to try. -/
theorem execSlotVerifyDone_leaves {s : State} {d : Dev} (hl : listens s) (hn : noSlotLeft s.dev = false) (h : slotVerified s.dev = d) :
    execSlotVerifyDone s = .next (s.now d) :=
  (if_neg (by rw [hn]; exact nofun)).trans (lift0_leaves hl h)

theorem bootDone_starting {d : Dev} (hp : d.boot.phase = .starting) {e : Dev}
    (he : e = if (loadBoard d).boot.service then loadBoard d else bootRecord (slotPref (loadBoard d)) 0 (loadBoard d)) {k : Dev}
    (hk : k = allPorts.foldl (fun d p => startTraining p d)
      { e with mode := if e.mode = .quarantine then .quarantine else .configure, boot := { e.boot with phase := .running } }) :
    bootDone d = if roleManager k && k.mode = .configure then changeMode .manager 0 k else k := by
  subst hk he
  exact if_neg (by simp [hp])

/-! ### The watchdog -/

/-- The running firmware's watchdog is a fatal fault, and the firmware is started again (R444). -/
theorem faultReport_quill {d : Dev} (hm : (getRec d srcQuill).masked = false) :
    faultReport { src := Fin.ofNat 512 srcQuill, cause := BitVec.ofNat 8 caWatchdog } d =
      report srcQuill .fatal caWatchdog 0 0 1 (emit .quillRestart d) := by
  rw [faultReport_driven (k := .fatal) rfl ⟨rfl, hm⟩, tellHost_of_ne (by decide)]
  rfl

/-! ### ACTIVATE and COMMIT (R452) -/

/-- A write of FW_CTL by the fabric manager with one CMD stores the word and does that CMD. -/
theorem fwRow_leaves {c : Nat} {m : Master} {w : Wr} {s : State} (hl : listens s)
    (h : isFab m = true ∧ bit (wrBits w).2 60 = true ∧ fld (wrBits w).1 60 4 = c) :
    fwRow c m w s = .next (s.now (fwCmd c (putReg 0x40 1 (mergeWr (fwCtl s.dev) 0x0000FFFF00000001 w) s.dev))) := by
  obtain ⟨hm, hb, hc⟩ := h
  refine lift0_leaves hl ((if_pos (by rw [hm, hb, hc]; simp)).trans ?_)
  rw [fwCtlReg, hc]
  exact if_pos hb

/-! ### Resets and firmware -/

/-- Settles O54: the resets are the model's own; the boot, the watchdog and FW_CTL by the case each is in. -/
theorem resetAndFirmwareComplete : Obligations.ResetAndFirmwareComplete := by
  unfold Obligations.ResetAndFirmwareComplete
  refine ⟨?_, ?_, ?_, ?_, ?_, ?_, ?_, ?_, ?_, ?_, ?_, ?_, ?_, ?_⟩
  · intro role bs rec' s
    exact exec_powerOnReset role bs rec' s
  · intro r s hl
    exact exec_deviceReset hl
  · intro s
    rfl
  · intro s
    rfl
  · intro role bs rec' s ha
    exact exec_internalResetRelease ha role bs rec'
  · intro slot more s d hl hp hv
    change execSlotVerifyDone s = _
    by_cases h0 : verifyImage s.dev (slotBytes s.dev slot) = 0
    · rw [if_pos h0]
      exact execSlotVerifyDone_leaves hl (noSlotLeft_good hp h0) (slotVerified_good hp h0)
    · rw [if_neg h0]
      obtain ⟨next, more, rfl⟩ := List.exists_cons_of_ne_nil (hv.resolve_left h0)
      exact execSlotVerifyDone_leaves hl (noSlotLeft_more hp) (slotVerified_next hp h0)
  · intro slot s d hp hv
    change execSlotVerifyDone s = _
    rw [execSlotVerifyDone, if_pos (by rw [noSlotLeft_last hp]; simpa using hv), resetTo, slotVerified_last hp hv]
  · intro s d e k hl hp
    change execBootComplete s = _
    exact lift_leaves hl (bootDone_starting hp rfl rfl)
  · intro s hp
    change execQuillWatchdog s = _
    exact if_pos hp
  · intro s hl hp hm
    change execQuillWatchdog s = _
    exact (if_neg hp).trans (lift_leaves hl (faultReport_quill hm))
  · intro n f s hr
    change execImage n f s = _
    exact svcFrame_reaches _ hr (by decide) (by decide)
  · intro m v s d ha hl h
    change execFwActivate m v s = _
    exact (fabRow_atOnce ha).trans (fwRow_leaves hl h)
  · intro m v s d ha hl h
    change execFwCommit m v s = _
    exact (fabRow_atOnce ha).trans (fwRow_leaves hl h)
  · intro s img d e hl hb
    change execFwActivateDone s = _
    exact lift0_leaves hl (if_neg (by rw [hb]; exact nofun))

end Sys2Proof.Machine
end

section
/-!
PROOFS. The SPDM responder, the test port, the SMBus target and the tick (O55), and the performance monitor (O56).
-/
namespace Sys2Proof.Machine

open Sys2Proof

/-! ### The SPDM responder -/

section
variable {p : Fin 4} {s : State} (hl : listens s) (hp : (getHp s.dev p).linkUp = true)
include hl hp

/-- A request on a port whose link is up is answered, and the free values it may use are spent (R455). -/
theorem spdm_answers {q : SpdmReq} {body : Dev → List Byte} {bytes : List Byte} (h : body s.dev = bytes) :
    spdm p q body s = .next (s.now { emit (.spdm p q bytes) s.dev with free := s.dev.free + 4 }) := by
  subst h
  exact lift0_leaves hl (if_pos hp)

/-- GET_CERTIFICATE answers with what it is asked for of slot 0's chain. -/
theorem execGetCertificate_answers (slot : Fin 8) (off len : Word16) :
    execGetCertificate p slot off len s = .next (s.now { emit (.spdm p .getCertificate
      (if slot ≠ 0 || (s.dev.boot.certChain.drop off.toNat).isEmpty then spdmInvalid
      else spdmHead 0x02 0 0 ++ leBytes 2 ((s.dev.boot.certChain.drop off.toNat).take len.toNat).length
        ++ leBytes 2 ((s.dev.boot.certChain.drop off.toNat).length - ((s.dev.boot.certChain.drop off.toNat).take len.toNat).length)
        ++ (s.dev.boot.certChain.drop off.toNat).take len.toNat)) s.dev with free := s.dev.free + 4 }) :=
  spdm_answers hl hp rfl

end

/-! ### The responder, the pins and the tick -/

/-- Settles O55: a request is answered by its own body; a test instruction is taken as it stands; a read of the target answers
from the mirrors; the tick's close is also the next sample. -/
theorem spdmAndPinInterfacesComplete : Obligations.SpdmAndPinInterfacesComplete := by
  unfold Obligations.SpdmAndPinInterfacesComplete
  refine ⟨?_, ?_, ?_, ?_, ?_, ?_, ?_, ?_, ?_, ?_, ?_, ?_, ?_, ?_, ?_, ?_, ?_, ?_, ?_, ?_, ?_, ?_, ?_, ?_, ?_⟩
  · intro p s hl hp
    change execGetVersion p s = _
    exact spdm_answers hl hp rfl
  · intro p s hl hp
    change execGetCapabilities p s = _
    exact spdm_answers hl hp rfl
  · intro p s hl hp
    change execNegotiateAlgorithms p s = _
    exact spdm_answers hl hp rfl
  · intro p s hl hp
    change execGetDigests p s = _
    exact spdm_answers hl hp rfl
  · intro p slot off len s tail part hl hp
    exact execGetCertificate_answers hl hp slot off len
  · intro p req s all sum hl hp hr
    change execChallenge p req s = _
    exact spdm_answers hl hp (if_neg (by simp [hr]))
  · intro p req s op ms blocks body hl hp hm
    change execGetMeasurements p req s = _
    refine spdm_answers hl hp (if_neg ?_)
    rw [Bool.and_eq_true, List.isEmpty_iff, decide_eq_true_eq]
    exact fun ⟨ho, he⟩ => hm.elim ho fun h => h he
  · intro p s hl hp
    change execSpdmUnsupportedRequest p s = _
    exact spdm_answers hl hp rfl
  · intro s
    rfl
  · intro s
    rfl
  · intro s
    rfl
  · intro r s
    rfl
  · intro r s
    rfl
  · intro r s
    rfl
  · intro r s
    rfl
  · intro r s
    rfl
  · intro s v hl
    change execSmbReadTjMax s = _
    exact lift0_leaves hl rfl
  · intro s v hl
    change execSmbReadHbm0Temp s = _
    exact lift0_leaves hl rfl
  · intro s v hl
    change execSmbReadHbm1Temp s = _
    exact lift0_leaves hl rfl
  · intro s v hl
    change execSmbReadStatus s = _
    exact lift0_leaves hl rfl
  · intro s v hl
    change execSmbReadVddReq s = _
    exact lift0_leaves hl rfl
  · intro s v hl
    change execSmbReadPace s = _
    exact lift0_leaves hl rfl
  · intro s v hl
    change execSmbReadUnitId s = _
    exact lift0_leaves hl rfl
  · intro s hl
    change execSmbWrite s = _
    exact lift0_leaves hl rfl
  · intro counts slots s hl
    change execPaceMeasurement counts slots s = _
    exact if_neg (by rw [hl]; exact nofun)

/-! ### The performance monitor -/

/-- CLEAR stores the register and asks for the counters to be cleared (R461). -/
theorem pmuCtlWrite_clear {w : Wr} {d : Dev} (hv : bit (wrBits w).1 0 = true) (hm : bit (wrBits w).2 0 = true) :
    pmuCtlWrite w d =
      { putReg 0x40000 0 (mergeWr (regInForce d 0x40000 0) 0x2 w) d with
        pmu := { (putReg 0x40000 0 (mergeWr (regInForce d 0x40000 0) 0x2 w) d).pmu with clear := true } } :=
  if_pos (by rw [hv, hm]; rfl)

/-- A boundary of a running dump counts a block missed or writes one (R467). -/
theorem dumpBoundary_running {old d : Dev} (hr : d.pmu.dump.running = true) :
    dumpBoundary old d =
      if fencedBlk d 7 || decide (2 ^ d.pmu.dump.log2 ≤ (d.pmu.dump.written - (regInForce d 0x40020 0).setWidth 32).toNat) then
        { d with pmu := { d.pmu with dumpSeq := d.pmu.dumpSeq + 1, dump := { d.pmu.dump with missed := d.pmu.dump.missed + 1 } } }
      else writeDump old { d with pmu := { d.pmu with dumpSeq := d.pmu.dumpSeq + 1 } } :=
  if_neg (by rw [hr]; exact nofun)

/-- Settles O56: each write counts from a master that may write, and each boundary as the counters and the dump stand. -/
theorem monitorCommandsComplete : Obligations.MonitorCommandsComplete := by
  unfold Obligations.MonitorCommandsComplete
  refine ⟨?_, ?_, ?_, ?_, ?_⟩
  · intro m k v s d ha hl hm
    change execPmuSelWrite m k v s = _
    exact fabRow_lift0_leaves hl (if_pos hm) ha
  · intro m v s d ha hl ⟨hm, hv, hb⟩
    change execPmuClear m v s = _
    exact fabRow_lift0_leaves hl ((if_pos (by rw [hm, hv, hb]; rfl)).trans (pmuCtlWrite_clear hv hb)) ha
  · intro s latch hl
    change execBwWindowEnd s = _
    exact lift0_leaves hl rfl
  · intro m v s ha hl ⟨hm, hb⟩
    change execDumpEnable m v s = _
    exact fabRow_lift0_leaves hl (if_pos (by rw [hm, hb]; rfl)) ha
  · intro s r d hl hr
    change execDumpBoundary s = _
    exact lift0_leaves hl (dumpBoundary_running hr)

end Sys2Proof.Machine
end

section
/-!
PROOFS. Inkwell: the checks of its commands in their order (O60), and the course of a recording (O57).
-/
namespace Sys2Proof.Machine

open Sys2Proof

/-! ### What the checks of a command come to -/

section
variable {d : Dev}

theorem recordsIn_iff {m : Mode} : recordsIn m = true ↔ m = .worker ∨ m = .manager ∨ m = .transit ∨ m = .drain := by
  simp [recordsIn, or_assoc]

theorem poolHas_iff {n : Nat} : poolHas d n = true ↔ (1 ≤ n ∧ n ≤ 64) ∧ poolBase d + n * gib ≤ poolOf (hbmPart d) := by
  simp [poolHas]

/-- A unit works where it is an engine or a tree unit that has not failed (R481). -/
theorem unitOk_iff {n : Nat} : unitOk d n = true ↔
    (n < 34 ∧ d.eng.failed.testBit n = false) ∨ (0x40 ≤ n ∧ n < 0x48 ∧ d.tre.failed.testBit (n - 0x40) = false) := by
  rw [unitOk]
  split
  · next h => simp [h]; omega
  · next h =>
    split
    · next h' => simp [h, h']
    · next h' => simp [h]; omega

/-- The segments are looked at from the oldest on, each of the eight once (R479). -/
theorem oldestGood_isSome : (oldestGood d).isSome = true ↔
    ∃ k, (tget d.ink.segs k).any (fun s => s.used && !s.damaged) = true ∧ k < 8 := by
  rw [oldestGood, List.find?_isSome]
  constructor
  · rintro ⟨k, hk, hg⟩
    obtain ⟨i, -, rfl⟩ := List.mem_map.mp hk
    refine ⟨(d.ink.oldest + i) % 8, ?_, Nat.mod_lt _ (by omega)⟩
    cases h : tget d.ink.segs ((d.ink.oldest + i) % 8) <;> simp_all
  · rintro ⟨k, hg, hk⟩
    refine ⟨k, List.mem_map.mpr ⟨(k + 8 - d.ink.oldest % 8) % 8, by simp; omega, by omega⟩, ?_⟩
    cases h : tget d.ink.segs k <;> simp_all

theorem headsMatch_iff {u : Nat} :
    headsMatch d u = true ↔ ∀ s ∈ d.ink.segs, s.2.used = true → (s.2.head.drop 0x20).take 16 = segStamp d u := by
  rw [headsMatch, List.all_eq_true]
  refine forall₂_congr fun s _ => ?_
  rw [Bool.or_eq_true, Bool.not_eq_true', beq_iff_eq]
  cases s.2.used <;> simp

theorem isEngine_ne {u v : Nat} : (isEngine u != isEngine v) = false ↔ (u < 34 ↔ v < 34) := by
  simp [isEngine]

/-! ### START -/

theorem inkStart_busy (h : ¬ (d.ink.st = 0 ∨ d.ink.st = 3)) : inkStart d = inkErr 1 d := if_pos (not_or.mp h)

section
variable (hi : d.ink.st = 0 ∨ d.ink.st = 3)
include hi

theorem inkStart_idle : inkStart d = if !recordsIn d.mode then inkErr 2 d
    else if !poolHas d (fld (inkCtl d) 40 7) then inkErr 3 d
    else if !unitOk d (fld (inkCtl d) 48 8) then inkErr 4 d
    else { d with ink := {
      st := 1, gib := fld (inkCtl d) 40 7, unit := fld (inkCtl d) 48 8, wrap := bit (inkCtl d) 59, pressure := bit (inkCtl d) 58 } } :=
  if_neg fun ⟨h0, h3⟩ => hi.elim h0 h3

theorem inkStart_mode (hm : recordsIn d.mode = false) : inkStart d = inkErr 2 d :=
  (inkStart_idle hi).trans (if_pos (by rw [hm]; rfl))

variable (hm : recordsIn d.mode = true)
include hm

theorem inkStart_room (hr : poolHas d (fld (inkCtl d) 40 7) = false) : inkStart d = inkErr 3 d :=
  (inkStart_idle hi).trans ((if_neg (by rw [hm]; exact nofun)).trans (if_pos (by rw [hr]; rfl)))

variable (hr : poolHas d (fld (inkCtl d) 40 7) = true)
include hr

theorem inkStart_unit (hu : unitOk d (fld (inkCtl d) 48 8) = false) : inkStart d = inkErr 4 d :=
  (inkStart_idle hi).trans ((if_neg (by rw [hm]; exact nofun)).trans ((if_neg (by rw [hr]; exact nofun)).trans (if_pos (by rw [hu]; rfl))))

theorem inkStart_starts (hu : unitOk d (fld (inkCtl d) 48 8) = true) : inkStart d =
    { d with ink := {
      st := 1, gib := fld (inkCtl d) 40 7, unit := fld (inkCtl d) 48 8, wrap := bit (inkCtl d) 59, pressure := bit (inkCtl d) 58 } } :=
  (inkStart_idle hi).trans ((if_neg (by rw [hm]; exact nofun)).trans ((if_neg (by rw [hr]; exact nofun)).trans (if_neg (by rw [hu]; exact nofun))))

end

/-! ### TRANSFER -/

/-- A recording, a transfer or a replay runs, a transfer to the host has no recording, or no function owns the device (R478). -/
def xferBusy (d : Dev) : Prop :=
  d.ink.st = 1 ∨ d.ink.st = 2 ∨ d.ink.st = 4 ∨ d.ink.st = 5 ∨ (bit (xferCtl d) 63 = false ∧ d.ink.st ≠ 3) ∨ hasOwner d = false

/-- The mode bars a transfer, or this import (R478). -/
def xferBarred (d : Dev) : Prop := d.mode = .quarantine ∨ (bit (xferCtl d) 63 = true ∧ d.mode ≠ .configure ∧ d.mode ≠ .replay)

theorem xferBusy_iff : xferBusy d ↔ (d.ink.st = 1 || d.ink.st = 2 || d.ink.st = 4 || d.ink.st = 5
    || (!bit (xferCtl d) 63 && d.ink.st != 3) || !hasOwner d) = true := by
  simp [xferBusy, or_assoc]

theorem xferBarred_iff : xferBarred d ↔ (d.mode = .quarantine
    || (bit (xferCtl d) 63 && d.mode != .configure && d.mode != .replay)) = true := by
  simp [xferBarred, and_assoc]

theorem inkTransfer_busy (h : xferBusy d) : inkTransfer d = inkErr 1 d := if_pos (xferBusy_iff.mp h)

section
variable (hb : ¬ xferBusy d)
include hb

theorem inkTransfer_barred (h : xferBarred d) : inkTransfer d = inkErr 2 d :=
  (if_neg fun h => hb (xferBusy_iff.mpr h)).trans (if_pos (xferBarred_iff.mp h))

variable (hm : ¬ xferBarred d)
include hm

theorem inkTransfer_room (hi : bit (xferCtl d) 63 = true) (hr : poolHas d (fld (inkCtl d) 40 7) = false) :
    inkTransfer d = inkErr 3 d :=
  (if_neg fun h => hb (xferBusy_iff.mpr h)).trans ((if_neg fun h => hm (xferBarred_iff.mpr h)).trans
    (if_pos (by rw [hi, hr]; rfl)))

theorem inkTransfer_import (hi : bit (xferCtl d) 63 = true) (hr : poolHas d (fld (inkCtl d) 40 7) = true) :
    inkTransfer d =
      emit (.inkCopy (ownerPort d) true (fld (xferCtl d) 0 24) (regInForce d 0x50018 0).toNat (fld (xferCtl d) 32 24 * 4096) [])
        { d with ink := { gib := fld (inkCtl d) 40 7, st := 4, imp := true } } := by
  refine (if_neg fun h => hb (xferBusy_iff.mpr h)).trans ((if_neg fun h => hm (xferBarred_iff.mpr h)).trans
    ((if_neg (by rw [hr]; simp)).trans ?_))
  rw [hi]; rfl

theorem inkTransfer_outward (hi : bit (xferCtl d) 63 = false) :
    inkTransfer d =
      emit (.inkCopy (ownerPort d) false (fld (xferCtl d) 0 24) (regInForce d 0x50018 0).toNat (fld (xferCtl d) 32 24 * 4096)
          (recordedIn d (fld (xferCtl d) 0 24 * 4096) (fld (xferCtl d) 32 24 * 4096)))
        { d with ink := { d.ink with st := 4, err := 0, imp := false } } := by
  refine (if_neg fun h => hb (xferBusy_iff.mpr h)).trans ((if_neg fun h => hm (xferBarred_iff.mpr h)).trans
    ((if_neg (by rw [hi]; exact nofun)).trans ?_))
  rw [hi]; rfl

end

/-! ### REPLAY -/

/-- The unit a replay names (R481). -/
def replayUnit (d : Dev) : Nat := fld (regInForce d 0x50028 0) 48 8

theorem inkReplay_none (h : ¬ (d.ink.st = 3 ∧ (oldestGood d).isSome = true)) : inkReplay d = inkErr 1 d := by
  refine if_pos (Bool.or_eq_true_iff.mpr ?_)
  by_cases h3 : d.ink.st = 3
  · have hn : oldestGood d = none := Option.not_isSome_iff_eq_none.mp fun hs => h ⟨h3, hs⟩
    exact .inr (congrArg Option.isNone hn)
  · exact .inl (decide_eq_true h3)

section
variable (hh : d.ink.st = 3 ∧ (oldestGood d).isSome = true)
include hh

theorem inkReplay_held : inkReplay d = if d.mode ≠ .replay then inkErr 2 d
    else if !unitOk d (replayUnit d) || isEngine (replayUnit d) != isEngine d.ink.unit then inkErr 4 d
    else if !headsMatch d (replayUnit d) then inkErr 5 d
    else { d with ink := { d.ink with
      st := 5, err := 0, result := 1, cmpOps := 0, divIndex := 0, divField := 0, divReplay := 0, divPos := 0 } } :=
  if_neg (by simp [hh.1, Option.ne_none_iff_isSome, hh.2])

theorem inkReplay_mode (hm : d.mode ≠ .replay) : inkReplay d = inkErr 2 d := (inkReplay_held hh).trans (if_pos hm)

variable (hm : d.mode = .replay)
include hm

theorem inkReplay_unit (hu : ¬ (unitOk d (replayUnit d) = true ∧ (replayUnit d < 34 ↔ d.ink.unit < 34))) :
    inkReplay d = inkErr 4 d := by
  refine (inkReplay_held hh).trans ((if_neg (not_not_intro hm)).trans (if_pos (Bool.or_eq_true_iff.mpr ?_)))
  by_cases hw : unitOk d (replayUnit d) = true
  · exact .inr (eq_true_of_ne_false fun hk => hu ⟨hw, isEngine_ne.mp hk⟩)
  · exact .inl (congrArg (!·) (Bool.eq_false_iff.mpr hw))

variable (hu : unitOk d (replayUnit d) = true ∧ (replayUnit d < 34 ↔ d.ink.unit < 34))
include hu

theorem inkReplay_heads : inkReplay d = if !headsMatch d (replayUnit d) then inkErr 5 d
    else { d with ink := { d.ink with
      st := 5, err := 0, result := 1, cmpOps := 0, divIndex := 0, divField := 0, divReplay := 0, divPos := 0 } } :=
  (inkReplay_held hh).trans ((if_neg (not_not_intro hm)).trans (if_neg (by rw [hu.1, isEngine_ne.mpr hu.2]; exact nofun)))

theorem inkReplay_foreign (hs : headsMatch d (replayUnit d) = false) : inkReplay d = inkErr 5 d :=
  (inkReplay_heads hh hm hu).trans (if_pos (by rw [hs]; rfl))

theorem inkReplay_starts (hs : headsMatch d (replayUnit d) = true) : inkReplay d = { d with ink := { d.ink with
    st := 5, err := 0, result := 1, cmpOps := 0, divIndex := 0, divField := 0, divReplay := 0, divPos := 0 } } :=
  (inkReplay_heads hh hm hu).trans (if_neg (by rw [hs]; exact nofun))

end
end

/-! ### The commands' checks -/

/-- Settles O60: each command's checks are those the model makes, in their order. -/
theorem inkwellControlChecksInOrder : Obligations.InkwellControlChecksInOrder := by
  intro d refused c x u room works idle records
  refine ⟨inkStart_busy, fun hi hm => ?_, fun hi hm hr => ?_, fun hi hm hr hu => ?_, fun hi hm hr hu => ?_, ?_, ?_⟩
  · exact inkStart_mode hi (Bool.eq_false_iff.mpr (mt recordsIn_iff.mp hm))
  · exact inkStart_room hi (recordsIn_iff.mpr hm) (Bool.eq_false_iff.mpr (mt poolHas_iff.mp hr))
  · exact inkStart_unit hi (recordsIn_iff.mpr hm) (poolHas_iff.mpr hr) (Bool.eq_false_iff.mpr (mt unitOk_iff.mp hu))
  · exact inkStart_starts hi (recordsIn_iff.mpr hm) (poolHas_iff.mpr hr) (unitOk_iff.mpr hu)
  · intro busy barred
    refine ⟨inkTransfer_busy, inkTransfer_barred, fun hb hm hi hr => ?_, fun hb hm hi hr => ?_, fun hb hm hi => ?_⟩
    · exact inkTransfer_room hb hm hi (Bool.eq_false_iff.mpr (mt poolHas_iff.mp hr))
    · exact inkTransfer_import hb hm hi (poolHas_iff.mpr hr)
    · exact ⟨_, inkTransfer_outward hb hm hi⟩
  · intro held kind mine
    have good : held ↔ d.ink.st = 3 ∧ (oldestGood d).isSome = true := and_congr_right fun _ => oldestGood_isSome.symm
    have same : kind ↔ unitOk d u = true ∧ (u < 34 ↔ d.ink.unit < 34) := and_congr_left fun _ => unitOk_iff.symm
    refine ⟨fun hh => ?_, fun hh hm => ?_, fun hh hm hk => ?_, fun hh hm hk hs => ?_, fun hh hm hk hs => ?_⟩
    · exact inkReplay_none (mt good.mpr hh)
    · exact inkReplay_mode (good.mp hh) hm
    · exact inkReplay_unit (good.mp hh) hm (mt same.mpr hk)
    · exact inkReplay_foreign (good.mp hh) hm (same.mp hk) (Bool.eq_false_iff.mpr (mt headsMatch_iff.mp hs))
    · exact inkReplay_starts (good.mp hh) hm (same.mp hk) (headsMatch_iff.mpr hs)

end Sys2Proof.Machine
end

section
/-!
PROOFS. Inkwell's commands and the course of a recording, a transfer and a replay (O57).
-/
namespace Sys2Proof.Machine

open Sys2Proof

/-! ### Commands -/

/-- A write of INK_CTL with one CMD by a master that may write stores the word and does that CMD (R481). -/
theorem inkRow_leaves {c : Nat} {m : Master} {w : Wr} {s : State} (hl : listens s)
    (h : mayWrite s.dev m = true ∧ bit (wrBits w).2 60 = true ∧ fld (wrBits w).1 60 4 = c) {d : Dev}
    (hd : inkCmd c (putReg 0x50000 0x0400010000000000 (mergeWr (inkCtl s.dev) 0x0CFF7F0000000000 w) s.dev) = d) :
    inkRow c m w s = .next (s.now d) := by
  obtain ⟨hm, hb, hc⟩ := h
  refine lift0_leaves hl ((if_pos (by rw [hm, hb, hc]; simp)).trans ?_)
  rw [inkCtlWrite, hc]
  exact (if_pos hb).trans hd

/-! ### Checkpoints and segments -/

/-- The device once the operations in progress have retired and an engine's on-die cache is written back (R475). -/
def inkSettled (d : Dev) : Dev :=
  if isEngine (inkRetire (fun _ => true) d).ink.unit then
    { inkRetire (fun _ => true) d with xpt := { (inkRetire (fun _ => true) d).xpt with
      onDie := (inkRetire (fun _ => true) d).xpt.onDie.filter fun n =>
        servedSlot (inkRetire (fun _ => true) d) (inkRetire (fun _ => true) d).ink.unit != some (connSlot n) } }
  else inkRetire (fun _ => true) d

theorem inkSettled_st (d : Dev) : (inkSettled d).ink.st = d.ink.st := by
  rw [inkSettled]
  split
  · exact inkRetire_st _ d
  · exact inkRetire_st _ d

/-- The first checkpoint starts the recording (R475). -/
theorem inkCheckpoint_first {d : Dev} (h : d.ink.st = 1) :
    inkCheckpoint d = { inkSettled d with ink := { (inkSettled d).ink with
      st := 2, ckpt := false
      segs := tput (inkSettled d).ink.segs (inkSettled d).ink.current { head := segHead (inkSettled d), used := true } } } := by
  have hs : (inkSettled d).ink.st = 1 := (inkSettled_st d).trans h
  change (fun e : Dev => { e with ink := { e.ink with
    st := 2, ckpt := false, segs := tput e.ink.segs e.ink.current { head := segHead e, used := true } } })
      (if (inkSettled d).ink.st = 1 then inkSettled d else _) = _
  rw [if_pos hs]

/-- The segment after the one in progress, overwritten where it is the oldest (R476). -/
def inkAdvanced (d : Dev) : Dev :=
  { d with ink := { d.ink with
    current := (d.ink.current + 1) % 8, segNo := d.ink.segNo + 1
    oldest := if thas d.ink.segs ((d.ink.current + 1) % 8) then ((d.ink.current + 1) % 8 + 1) % 8 else d.ink.oldest } }

/-- A later checkpoint begins the next segment. -/
theorem inkCheckpoint_later {d : Dev} (h : d.ink.st = 2) :
    inkCheckpoint d = { inkAdvanced (inkSettled d) with ink := { (inkAdvanced (inkSettled d)).ink with
      ckpt := false
      segs := tput (inkAdvanced (inkSettled d)).ink.segs (inkAdvanced (inkSettled d)).ink.current
        { head := segHead (inkAdvanced (inkSettled d)), used := true } } } := by
  have hs : (inkSettled d).ink.st = 2 := (inkSettled_st d).trans h
  change (fun e : Dev => { e with ink := { e.ink with
    st := 2, ckpt := false, segs := tput e.ink.segs e.ink.current { head := segHead e, used := true } } })
      (if (inkSettled d).ink.st = 1 then inkSettled d else inkAdvanced (inkSettled d)) = _
  rw [if_neg (by simp [hs])]
  simp [inkAdvanced, hs]

section
variable {s : State} (hl : listens s)
include hl

/-- The last segment of a recording without WRAP is full: the recording stops (R476). -/
theorem execInkSegmentFull_last (h : (s.dev.ink.st = 2 ∧ s.dev.ink.ckpt = false) ∨
      (s.dev.ink.st = 3 ∧ s.dev.ink.stop = 2 ∧ s.dev.ink.stopAt = s.dev.clk.ticks))
    (hw : s.dev.ink.wrap = false ∧ s.dev.ink.current = 7) :
    execInkSegmentFull { lag := false } s = .next (s.now (inkStop 3 (segFull s.dev))) := by
  have hlast : lastSegment s.dev = true := by simp [lastSegment, hw]
  obtain ⟨h2, hc⟩ | ⟨h3, hs, ht⟩ := h
  · exact lift0_leaves hl ((if_neg (by simp [h2])).trans ((if_neg (by simp [h2, hc])).trans
      ((if_neg nofun).trans (if_pos hlast))))
  · exact lift0_leaves hl (if_pos (by simp [h3, hs, ht, hlast]))

variable (h : s.dev.ink.st = 2 ∧ s.dev.ink.ckpt = false)
include h

/-- Any other segment that is full asks for the next one's checkpoint. -/
theorem execInkSegmentFull_next (hw : s.dev.ink.wrap = true ∨ s.dev.ink.current ≠ 7) :
    execInkSegmentFull { lag := false } s =
      .next (s.now { segFull s.dev with ink := { (segFull s.dev).ink with ckpt := true } }) := by
  have hlast : ¬ lastSegment s.dev = true := by
    rw [lastSegment, Bool.and_eq_true, Bool.not_eq_true', beq_iff_eq]
    exact fun ⟨hn, h7⟩ => hw.elim (fun hy => absurd (hn.symm.trans hy) nofun) fun hne => hne h7
  exact lift0_leaves hl ((if_neg (by simp [h])).trans ((if_neg (by simp [h])).trans ((if_neg nofun).trans (if_neg hlast))))

/-- A recording that lags is told so (R477). -/
theorem execInkSegmentFull_lag : execInkSegmentFull { lag := true } s = .next (s.now (inkLag s.dev)) :=
  lift0_leaves hl ((if_neg (by simp [h])).trans ((if_neg (by simp [h])).trans (if_pos rfl)))

end

/-! ### Replay (R479) -/

section
variable {b : Bool} {q : Nat} {x : InkRec} {rest : List (Nat × InkRec)} {made : List Word64} {d : Dev}

theorem replayRun_same_hash (hk : x.kind = 4) (h : made.head?.getD (word x.data 8) = word x.data 8) :
    replayRun b ((q, x) :: rest) made d =
      replayRun b rest made.tail { d with ink := { d.ink with cmpOps := d.ink.cmpOps + 1 } } := by
  rw [replayRun, if_neg (by simp [hk]), if_pos hk]
  exact if_pos h

theorem replayRun_other_hash {a : Word64} (hk : x.kind = 4) (hm : made.head? = some a) (h : a ≠ word x.data 8) :
    replayRun b ((q, x) :: rest) made d =
      { d with ink := { d.ink with
        cmpOps := d.ink.cmpOps + 1, st := 3, result := 3, divIndex := (word x.data 0).toNat, divField := word x.data 8
        divReplay := a, divPos := q } } := by
  rw [replayRun, if_neg (by simp [hk]), if_pos hk, hm]
  exact if_neg h

theorem replayRun_other_address {a : Word64} (hk : x.kind = 2) (hm : made.head? = some a) (h : a ≠ word x.data 0) :
    replayRun b ((q, x) :: rest) made d =
      diverged ((takeFree d).1.toNat % 2 ^ 48) 0 (takeFree (takeFree d).2).1 q (takeFree (takeFree d).2).2 := by
  rw [replayRun, if_pos hk, hm]
  exact if_neg h

theorem replayRun_skips (h2 : x.kind ≠ 2) (h4 : x.kind ≠ 4) : replayRun b ((q, x) :: rest) made d = replayRun b rest made d := by
  rw [replayRun, if_neg h2, if_neg h4]

/-- A replay goes through what there is to replay. -/
theorem execInkReplayDone_leaves {r : InkEnd} {s : State} {l : List (Nat × InkRec)} (hl : listens s)
    (h : s.dev.ink.st = 5 ∧ replayRecs s.dev = (l, b)) {e : Dev} (he : replayRun b l r.made s.dev = e) :
    execInkReplayDone r s = .next (s.now e) := by
  refine lift0_leaves hl ((if_neg (by simp [h.1])).trans ?_)
  rw [h.2]
  exact he

end

/-! ### Inkwell -/

/-- Settles O57: a CMD is carried out unless block 8 is fenced; what happens to a recording acts in its state alone. -/
theorem inkwellCommandsComplete : Obligations.InkwellCommandsComplete := by
  unfold Obligations.InkwellCommandsComplete
  refine ⟨?_, ?_, ?_, ?_, ?_, ?_, ?_, ?_, ?_, ?_, ?_, ?_, ?_, ?_, ?_, ?_, ?_, ?_, ?_⟩
  · intro m v s d ha hl h hf
    change execInkStart m v s = _
    exact (fabRow_atOnce ha).trans (inkRow_leaves hl h ((if_neg (by decide)).trans (if_neg (by rw [hf]; exact nofun))))
  · intro m v s d ha hl h hf
    change execInkStop m v s = _
    exact (fabRow_atOnce ha).trans (inkRow_leaves hl h ((if_neg (by decide)).trans (if_neg (by rw [hf]; exact nofun))))
  · intro m v s d ha hl h hf
    change execInkDiscard m v s = _
    exact (fabRow_atOnce ha).trans (inkRow_leaves hl h ((if_neg (by decide)).trans (if_neg (by rw [hf]; exact nofun))))
  · intro m v s d ha hl h hf
    change execInkTransfer m v s = _
    exact (fabRow_atOnce ha).trans (inkRow_leaves hl h ((if_neg (by decide)).trans (if_neg (by rw [hf]; exact nofun))))
  · intro m v s d ha hl h hf
    change execInkReplay m v s = _
    exact (fabRow_atOnce ha).trans (inkRow_leaves hl h ((if_neg (by decide)).trans (if_neg (by rw [hf]; exact nofun))))
  · intro s d0 d hl h
    change execInkCheckpointDone s = _
    exact lift0_leaves hl ((if_pos (by simp [h])).trans (inkCheckpoint_first h))
  · intro s d0 d n e hl ⟨h, hc⟩
    change execInkCheckpointDone s = _
    exact lift0_leaves hl ((if_pos (by simp [h, hc])).trans (inkCheckpoint_later h))
  · intro s hl h hw
    exact execInkSegmentFull_last hl h hw
  · intro s d hl h hw
    exact execInkSegmentFull_next hl h hw
  · intro s hl h hp
    exact (execInkSegmentFull_lag hl h).trans (by rw [inkLag, if_neg (by rw [hp]; exact nofun)])
  · intro s hl h hp
    exact (execInkSegmentFull_lag hl h).trans (by rw [inkLag, if_pos hp]; rfl)
  · intro s hl h
    change execInkPostTriggerEnd s = _
    exact lift0_leaves hl (if_pos (by simp [h]))
  · intro heads s hl ⟨h, hi⟩
    change execInkTransferDone heads s = _
    exact lift0_leaves hl ((if_neg (by simp [h])).trans (if_neg (by rw [hi]; exact nofun)))
  · intro heads s g hl ⟨h, hi⟩
    change execInkTransferDone heads s = _
    exact lift0_leaves hl ((if_neg (by simp [h])).trans (if_pos hi))
  · intro r b s hl h
    exact execInkReplayDone_leaves hl h rfl
  · intro r b q x rest s d hl h ⟨hk, hm⟩
    exact execInkReplayDone_leaves hl h (replayRun_same_hash hk hm)
  · intro r a b q x rest s k hl h ⟨hk, hm, ha⟩
    exact execInkReplayDone_leaves hl h (replayRun_other_hash hk hm ha)
  · intro r a b q x rest s i v hl h ⟨hk, hm, ha⟩
    exact execInkReplayDone_leaves hl h (replayRun_other_address hk hm ha)
  · intro r b q x rest s hl h ⟨h2, h4⟩
    exact execInkReplayDone_leaves hl h (replayRun_skips h2 h4)

end Sys2Proof.Machine
end

section
/-!
PROOFS. Configuration: register accesses through the BARs, commits, the running checksum, the lock and parity mismatches (O58).
-/
namespace Sys2Proof.Machine

open Sys2Proof

/-! ### Writes through a BAR (R13, R53, R54) -/

/-- A permitted write of the register window reaches the register its offset names. -/
theorem windowWrite_permitted {m : Master} {off k : Nat} {w : Wr} {d : Dev} (hk : baseOf off = some k)
    (hm : mayWriteReg d m k = true) : windowWrite m off w d = writeReg (windowOf d m) k w d := by
  simp only [windowWrite, hk]
  exact if_pos hm

section
variable {f : FnId} {off : Fin 0x200000} {v : Wr} {s : State}

/-- A function's write of its window, but for the doorbells, is a window write. -/
theorem execRegisterWrite_fn {k : Nat} (ha : atOnce (.fn f) s) (hb : badAccess s.dev (.fn f) off.val false = false)
    (hk : baseOf off.val = some k) (hq : k ≠ 0x1020) (hc : k ≠ 0x1028) (hv : f.num.val = 0 ∨ off.val < 0x4000) :
    execRegisterWrite (.fn f) .bar0 off (some v) s = lift (windowWrite (.fn f) off.val v) s := by
  refine (fabRow_atOnce ha).trans ((if_neg (Bool.eq_false_iff.mp hb)).trans ?_)
  refine (if_neg ?_).trans ((if_neg ?_).trans (if_neg ?_))
  · exact fun ⟨hn, ho⟩ => hv.elim hn (Nat.not_lt.mpr ho)
  · rw [hk]
    exact fun h => hq (Option.some.inj h)
  · rw [hk]
    exact fun h => hc (Option.some.inj h)

/-- The fabric manager's write of a register is a window write. -/
theorem execRegisterWrite_fab (ha : atOnce .fabricManager s) (h8 : off.val % 8 = 0) :
    execRegisterWrite .fabricManager .bar0 off (some v) s = lift (windowWrite .fabricManager off.val v) s := by
  refine (fabRow_atOnce ha).trans ((if_neg nofun).trans ?_)
  exact if_neg (not_not_intro h8)

/-- An access of another width or alignment ends as an Unsupported Request (R13). -/
theorem execRegisterWrite_bad {m : Master} {b : Bar} {w : Option Wr} (ha : atOnce m s) (hl : listens s)
    (hb : badAccess s.dev m off.val w.isNone = true) :
    execRegisterWrite m b off w s = .next (s.now (emit (.unsupported (portOf s.dev m)) s.dev)) :=
  (fabRow_atOnce ha).trans ((if_pos hb).trans (lift0_leaves hl rfl))

section
variable (ha : atOnce (.fn f) s) (hb : badAccess s.dev (.fn f) off.val false = false)
include ha hb

theorem execRegisterWrite_sq (hi : off.val / 8 < 0x10000) :
    execRegisterWrite (.fn f) .bar2 off (some v) s = execSqDoorbell f (Fin.ofNat 65536 (off.val / 8)) v s := by
  refine (fabRow_atOnce ha).trans ((if_neg (Bool.eq_false_iff.mp hb)).trans ?_)
  exact if_pos hi

theorem execRegisterWrite_cq (h0 : 0x10000 ≤ off.val / 8) (hi : off.val / 8 < 0x20000) :
    execRegisterWrite (.fn f) .bar2 off (some v) s = execCqDoorbell f (Fin.ofNat 65536 (off.val / 8 - 0x10000)) v s := by
  refine (fabRow_atOnce ha).trans ((if_neg (Bool.eq_false_iff.mp hb)).trans ?_)
  exact (if_neg (Nat.not_lt.mpr h0)).trans (if_pos hi)

theorem execRegisterWrite_eq (h0 : 0x20000 ≤ off.val / 8) (hi : off.val / 8 < 0x21000) :
    execRegisterWrite (.fn f) .bar2 off (some v) s = execEqDoorbell f (Fin.ofNat 4096 (off.val / 8 - 0x20000)) v s := by
  refine (fabRow_atOnce ha).trans ((if_neg (Bool.eq_false_iff.mp hb)).trans ?_)
  exact (if_neg (by omega)).trans ((if_neg (Nat.not_lt.mpr h0)).trans (if_pos hi))

theorem execRegisterWrite_msix (hl : listens s) (hi : off.val / 8 < 4096) (he : fnExists s.dev f = true) :
    execRegisterWrite (.fn f) .bar4 off (some v) s = .next (s.after (firePending f (updFn f (fun x => { x with
      msix := tput x.msix (off.val / 8) (mergeWr (msixWord x (off.val / 8)) 0xFFFFFFFFFFFFFFFF v) }) s.dev))) := by
  refine (fabRow_atOnce ha).trans ((if_neg (Bool.eq_false_iff.mp hb)).trans ?_)
  exact lift_leaves hl (if_pos (by rw [he, Bool.and_true]; exact decide_eq_true hi))

end
end

/-! ### Reads through a BAR (R13, R53, R488) -/

/-- A read of the register window a master may reach is an access to that register. -/
theorem windowReadOf_fn {mir d : Dev} {f : FnId} {off k : Nat} {a : Part} (hk : baseOf off = some k)
    (hm : mayReach d (.fn f) k = true) (hv : f.num.val = 0 ∨ off < 0x4000) :
    windowReadOf mir (.fn f) off a d = readAccess mir (windowOf d (.fn f)) k (partLo a) (partHi a) d := by
  simp only [windowReadOf, hk, hm]
  refine if_neg ?_
  rcases hv with h | h <;> simp [h]

theorem windowReadOf_fab {mir d : Dev} {off k : Nat} {a : Part} (hk : baseOf off = some k) :
    windowReadOf mir .fabricManager off a d = readAccess mir (windowOf d .fabricManager) k (partLo a) (partHi a) d := by
  simp only [windowReadOf, hk]
  exact if_neg nofun

theorem windowReadOf_none {mir d : Dev} {m : Master} {off : Nat} {a : Part} (hk : baseOf off = none) :
    windowReadOf mir m off a d = (0, d) := by
  simp only [windowReadOf, hk]

section
variable {off : Fin 0x200000} {a : Part} {s : State} (hl : listens s)
include hl

/-- A good read through BAR0 answers what the window gives. -/
theorem execClearOnRead_window {m : Master} {r : Word64 × Dev} (ha : atOnce m s) (hb : badAccess s.dev m off.val false = false)
    (h : windowReadOf s.mir m off.val a s.dev = r) :
    execClearOnRead m .bar0 off (some a) s = .next (s.now (emit (.readData r.1) r.2)) := by
  refine fabRow_lift0_leaves hl ?_ ha
  subst h
  exact if_neg (Bool.eq_false_iff.mp hb)

theorem execClearOnRead_doorbell {f : FnId} (ha : atOnce (.fn f) s) (hb : badAccess s.dev (.fn f) off.val false = false) :
    execClearOnRead (.fn f) .bar2 off (some a) s = .next (s.now (emit (.readData 0) s.dev)) := by
  refine fabRow_lift0_leaves hl ?_ ha
  exact if_neg (Bool.eq_false_iff.mp hb)

theorem execClearOnRead_msix {f : FnId} (ha : atOnce (.fn f) s) (hb : badAccess s.dev (.fn f) off.val false = false) :
    execClearOnRead (.fn f) .bar4 off (some a) s =
      .next (s.now (emit (.readData (partOf a (msixRead s.dev f off.val))) s.dev)) := by
  refine fabRow_lift0_leaves hl ?_ ha
  exact if_neg (Bool.eq_false_iff.mp hb)

theorem execClearOnRead_bad {m : Master} {b : Bar} {p : Option Part} (ha : atOnce m s)
    (hb : badAccess s.dev m off.val p.isNone = true) :
    execClearOnRead m b off p s = .next (s.now (emit (.unsupported (portOf s.dev m)) s.dev)) := by
  refine fabRow_lift0_leaves hl ?_ ha
  exact if_pos hb

end

/-! ### Commits, the checksum and the lock -/

section
variable {w : Wr} {d : Dev}

/-- A commit that names blocks while none is pending takes the staged values of the moment (R498). -/
theorem commitWrite_taken (hn : fld ((wrBits w).1 &&& (wrBits w).2) 0 11 ≠ 0) (hb : d.cfg.busy = false) :
    commitWrite w d = { d with cfg := { d.cfg with
      commit := some (fld ((wrBits w).1 &&& (wrBits w).2) 0 11), busy := true, snap := d.stg, snapGcl := d.tc.gclStg } } := by
  rw [commitWrite]
  dsimp only
  rw [if_neg (by simp [hn, hb])]

theorem commitWrite_ignored (h : fld ((wrBits w).1 &&& (wrBits w).2) 0 11 = 0 ∨ d.cfg.busy = true) : commitWrite w d = d := by
  rw [commitWrite]
  dsimp only
  rw [if_pos (by simpa using h)]

theorem evalCommit_passes {n : Nat} (hc : d.cfg.commit = some n) (hf : commitFails d n = none) :
    evalCommit d = { commitAll n d with cfg := { (commitAll n d).cfg with
      commit := none, busy := false, snap := [], snapGcl := [], err := none } } := by
  simp only [evalCommit, hc, hf]
  rfl

theorem crcCtlWrite_capture (hb : bit ((wrBits w).1 &&& (wrBits w).2) 62 = true) :
    crcCtlWrite w d = { (if d.cfg.lock then d else storeReg 0x70008 w d) with
      cfg := { (if d.cfg.lock then d else storeReg 0x70008 w d).cfg with capture := true } } :=
  if_pos hb

theorem cfgRegWrite_lock (hb : bit ((wrBits w).1 &&& (wrBits w).2) 0 = true) :
    cfgRegWrite 0x70030 w d = { d with cfg := { d.cfg with lock := true } } :=
  if_pos hb

end

/-! ### Parity -/

theorem stagedParity_leaves {off : Fin 0x80000} {a r : Word64} {e : Nat} {s : State} (hl : listens s)
    (hr : regT off.val = some (a, r, e)) (h0 : r ≠ 0) :
    execStagedParityMismatch off s = .next (s.after (parityRecord off.val
      { s.dev with cfg := { s.dev.cfg with stagedBad := s.dev.cfg.stagedBad ++ [(blockOf off.val, off.val)] } })) := by
  refine lift_leaves hl ?_
  simp only [hr]
  exact if_neg h0

/-! ### Configuration -/

/-- Settles O58: an access by the BAR and register it names, a commit by its checks, a mismatch by its copy. -/
theorem configurationCommandsComplete : Obligations.ConfigurationCommandsComplete := by
  unfold Obligations.ConfigurationCommandsComplete
  refine ⟨?_, ?_, ?_, ?_, ?_, ?_, ?_, ?_, ?_, ?_, ?_, ?_, ?_, ?_, ?_, ?_, ?_, ?_, ?_, ?_, ?_⟩
  · intro m off v k s ha hl ⟨hb, h8⟩ ⟨hk, hq, hc, hm⟩ hv
    change execRegisterWrite m .bar0 off (some v) s = _
    cases m with
    | fn f => exact (execRegisterWrite_fn ha hb hk hq hc hv).trans (lift_leaves hl (windowWrite_permitted hk hm))
    | fabricManager => exact (execRegisterWrite_fab ha h8).trans (lift_leaves hl (windowWrite_permitted hk hm))
  · intro m k off v s ha hl hb
    exact execRegisterWrite_bad ha hl hb
  · intro f off v s ha ⟨hb, _, hi⟩
    exact execRegisterWrite_sq ha hb hi
  · intro f off v s ha ⟨hb, h0, hi⟩
    exact execRegisterWrite_cq ha hb h0 hi
  · intro f off v s ha ⟨hb, h0, hi⟩
    exact execRegisterWrite_eq ha hb h0 hi
  · intro f off v s ha hl ⟨hb, hi, he⟩
    exact execRegisterWrite_msix ha hb hl hi he
  · intro m off a k s r ha hl ⟨hb, hk, hm⟩ hv
    change execClearOnRead m .bar0 off (some a) s = _
    cases m with
    | fn f => exact execClearOnRead_window hl ha hb (windowReadOf_fn hk hm hv)
    | fabricManager => exact execClearOnRead_window hl ha hb (windowReadOf_fab hk)
  · intro m off a s ha hl ⟨hb, hk⟩
    exact execClearOnRead_window hl ha hb (windowReadOf_none hk)
  · intro f off a s ha hl hb
    exact execClearOnRead_doorbell hl ha hb
  · intro f off a s ha hl hb
    exact execClearOnRead_msix hl ha hb
  · intro m k off a s ha hl hb
    exact execClearOnRead_bad hl ha hb
  · intro m v s n ha hl ⟨hm, hn, hb⟩
    change execCfgCommit m v s = _
    exact fabRow_lift0_leaves hl ((if_pos hm).trans (commitWrite_taken hn hb)) ha
  · intro m v s ha hl ⟨hm, h⟩
    change execCfgCommit m v s = _
    exact fabRow_lift0_leaves hl ((if_pos hm).trans (commitWrite_ignored h)) ha
  · intro n s d hl ⟨hc, hf⟩
    exact (exec_commitEvaluation hl).trans (by rw [evalCommit_passes hc hf])
  · intro n e s hl ⟨hc, hf⟩
    exact (exec_commitEvaluation hl).trans (by rw [evalCommit_refused hc hf])
  · intro s d hl hd
    change execCrcSweepComplete s = _
    exact lift_leaves hl (if_neg (by rw [hd]; exact nofun))
  · intro m v s d ha hl ⟨hm, hb⟩
    change execCrcCapture m v s = _
    exact fabRow_lift0_leaves hl ((if_pos (by rw [hm, hb]; rfl)).trans (crcCtlWrite_capture hb)) ha
  · intro m v s ha hl ⟨hm, hb⟩
    change execCfgLock m v s = _
    exact fabRow_lift0_leaves hl ((if_pos hm).trans (cfgRegWrite_lock hb)) ha
  · intro f off s b hl ⟨h1, hp⟩
    change execRegParityMismatch f off s = _
    exact lift_leaves hl ((if_neg h1).trans (if_pos hp))
  · intro f off s place hl ⟨h1, hp, he⟩
    change execRegParityMismatch f off s = _
    exact lift_leaves hl ((if_pos h1).trans (if_pos (by rw [hp, he]; rfl)))
  · intro off a r e s hl ⟨hr, h0⟩
    exact stagedParity_leaves hl hr h0

end Sys2Proof.Machine
end

section
/-!
PROOFS. What the writes of the meter's registers and a minute change on the island, and that they keep the rest (O59).
-/
namespace Sys2Proof.Machine

open Sys2Proof

/-! ### The audit log -/

/-- The log once an event of a register write is due: one entry more while fewer than 32,512 stand (R403). -/
def withEntry (kind : Nat) (a b : Word64) (time : Nat) (i : Isl) : List Audit :=
  if i.audit.length < 32512 then
    i.audit ++ [{ seq := i.audit.length + 1, time := time, kind := kind, a := a, b := b, sealNo := i.sealCount, prev := auditDigest i }]
  else i.audit

/-- An event logs, and changes nothing else. -/
theorem audit_frame (kind : Nat) (a b : Word64) (i : Isl) : audit kind a b i = { i with audit := (audit kind a b i).audit } := by
  rw [audit]
  split
  · rfl
  · rfl

/-- An event of any kind but 1 to 3 is logged while fewer than 32,512 entries stand. -/
theorem audit_entry {kind : Nat} {a b : Word64} {i : Isl} (hk : 3 < kind) :
    (audit kind a b i).audit = withEntry kind a b i.time i := by
  rw [audit, withEntry]
  by_cases h : i.audit.length < 32512
  · rw [if_pos (by simp [h]), if_pos h]
  · rw [if_neg (by simp [h]; omega), if_neg h]

/-! ### Island time -/

theorem timeSet_part {w : Wr} {i : Isl} (h : ∀ v, w ≠ .full v) : timeSet w i = ignoreWr i := by
  cases w with
  | full v => exact absurd rfl (h v)
  | low v => rfl
  | high v => rfl

theorem timeSet_ignored {v : Word64} {i : Isl} (h : i.timeUnset = false ∨ v.toNat < i.lastEnd) :
    timeSet (.full v) i = ignoreWr i := by
  refine if_neg ?_
  rw [Bool.and_eq_true, decide_eq_true_eq]
  exact fun ⟨hu, hv⟩ => h.elim (fun hn => absurd (hn.symm.trans hu) nofun) (Nat.not_lt.mpr hv)

/-- The island with its time set (R385). -/
def timed (v : Word64) (i : Isl) : Isl :=
  { i with time := v.toNat, frac := 0, timeUnset := false, ms := v.toNat / 1000, min := v.toNat / 60000000 }

/-- What a block left open had recorded goes on in the block that opens (R385). -/
def carriedOn (o : Option MBlock) (i : Isl) : Isl :=
  match o with
  | some b => { i with opened := i.opened.map fun n => { n with recs := b.recs, gapTaps := b.gapTaps ++ n.gapTaps } }
  | none => i

theorem carriedOn_openBlock (o : Option MBlock) (i : Isl) :
    ∃ b, carriedOn o (openBlock true i) = { i with opened := some b, fwChanged := false } := by
  cases o with
  | none => exact ⟨_, rfl⟩
  | some b => exact ⟨_, rfl⟩

section
variable {v : Word64} {i : Isl} (hu : i.timeUnset = true) (hv : i.lastEnd ≤ v.toNat)
include hu hv

theorem timeSet_opens :
    timeSet (.full v) i = carriedOn i.opened (openBlock true (audit 4 v (BitVec.ofNat 64 i.time) (timed v i))) := by
  refine (if_pos (by rw [hu, decide_eq_true hv]; rfl)).trans ?_
  rfl

/-- A time that is taken is set and logged, and a block is open (R385). -/
theorem timeSet_taken : ∃ b, timeSet (.full v) i =
    { timed v i with audit := withEntry 4 v (BitVec.ofNat 64 i.time) v.toNat i, opened := some b, fwChanged := false } := by
  obtain ⟨b, hb⟩ := carriedOn_openBlock i.opened (audit 4 v (BitVec.ofNat 64 i.time) (timed v i))
  refine ⟨b, (timeSet_opens hu hv).trans (hb.trans ?_)⟩
  rw [audit_frame, audit_entry (by decide)]
  rfl

end

/-! ### The adjustment of time (R386) -/

/-- The microseconds a write of MTR_TIME_ADJ asks for. -/
def adjAsked (w : Wr) : Int := ((wrBits w).1.setWidth 32).toInt

/-- What bars an adjustment: the time unset, more than 1 s, or more than 1 s in a day. -/
def adjBarred (w : Wr) (i : Isl) : Prop :=
  i.timeUnset = true ∨ 1000000 < (adjAsked w).natAbs ∨ 1000000 < adjUsed i + (adjAsked w).natAbs

section
variable {w : Wr} {i : Isl} (hb : bit (wrBits w).2 0 = true)
include hb

theorem timeAdj_eq : timeAdj w i =
    if i.timeUnset then ignoreWr (audit 6 (BitVec.ofInt 64 (adjAsked w)) 0 { i with adjResult := 3 })
    else if 1000000 < (adjAsked w).natAbs then ignoreWr (audit 6 (BitVec.ofInt 64 (adjAsked w)) 0 { i with adjResult := 4 })
    else if 1000000 < adjUsed i + (adjAsked w).natAbs then
      ignoreWr (audit 6 (BitVec.ofInt 64 (adjAsked w)) 0 { i with adjResult := 2 })
    else audit 5 (BitVec.ofInt 64 (adjAsked w)) 0 { i with
      adjResult := 1, slew := i.slew + adjAsked w * 100000000000
      adjs := (i.adjs.filter fun a => decide (i.time < a.1 + 86400000000)) ++ [(i.time, (adjAsked w).natAbs)] } :=
  if_neg (by rw [hb]; exact nofun)

/-- A refused adjustment is logged and counted as ignored, with its result. -/
theorem timeAdj_refused (h : adjBarred w i) : timeAdj w i = { i with
    adjResult := if i.timeUnset then 3 else if 1000000 < (adjAsked w).natAbs then 4 else 2
    wrIgnored := i.wrIgnored.add 1, audit := withEntry 6 (BitVec.ofInt 64 (adjAsked w)) 0 i.time i } := by
  have hlog : ∀ r, ignoreWr (audit 6 (BitVec.ofInt 64 (adjAsked w)) 0 { i with adjResult := r }) =
      { i with adjResult := r, wrIgnored := i.wrIgnored.add 1, audit := withEntry 6 (BitVec.ofInt 64 (adjAsked w)) 0 i.time i } := by
    intro r
    rw [audit_frame, audit_entry (by decide)]
    rfl
  rw [timeAdj_eq hb]
  split
  · exact hlog 3
  · next hu =>
    split
    · exact hlog 4
    · next ha => exact (if_pos ((h.resolve_left hu).resolve_left ha)).trans (hlog 2)

/-- A permitted adjustment is taken up, logged and remembered. -/
theorem timeAdj_taken (h : ¬ adjBarred w i) : timeAdj w i = { i with
    adjResult := 1, slew := i.slew + adjAsked w * 100000000000
    adjs := (i.adjs.filter fun a => decide (i.time < a.1 + 86400000000)) ++ [(i.time, (adjAsked w).natAbs)]
    audit := withEntry 5 (BitVec.ofInt 64 (adjAsked w)) 0 i.time i } := by
  obtain ⟨hu, ha, hs⟩ := not_or.mp h |>.imp id not_or.mp
  rw [timeAdj_eq hb, if_neg hu, if_neg ha, if_neg hs, audit_frame, audit_entry (by decide)]
  rfl

end

/-- An adjustment remembered counts toward the day's. -/
theorem adjUsed_taken {i t : Isl} {n : Nat} (ht : t.time = i.time)
    (ha : t.adjs = (i.adjs.filter fun a => decide (i.time < a.1 + 86400000000)) ++ [(i.time, n)]) :
    adjUsed t = adjUsed i + n := by
  simp [adjUsed, ht, ha, List.filter_filter]

/-! ### Registers and firmware -/

/-- Each bit of a merged word is the write's where the write reaches a writable bit. -/
theorem mergeWr_getLsbD (old rw' : Word64) (w : Wr) (k : Nat) : (mergeWr old rw' w).getLsbD k =
    if (rw'.getLsbD k && (wrBits w).2.getLsbD k) = true then (wrBits w).1.getLsbD k else old.getLsbD k := by
  by_cases hk : k < 64
  · simp only [mergeWr, BitVec.getLsbD_or, BitVec.getLsbD_and, BitVec.getLsbD_not, hk]
    cases rw'.getLsbD k <;> cases (wrBits w).2.getLsbD k <;> simp
  · simp [BitVec.getLsbD_of_ge _ _ (Nat.not_lt.mp hk)]

theorem getLsbD_full {k : Nat} (hk : k < 64) : (0xFFFFFFFFFFFFFFFF : Word64).getLsbD k = true :=
  BitVec.getLsbD_allOnes.trans (decide_eq_true hk)

/-- A word all of whose bits can be written takes the bits the write reaches. -/
theorem mergeWr_all (old : Word64) (w : Wr) :
    mergeWr old 0xFFFFFFFFFFFFFFFF w = (old &&& ~~~ (wrBits w).2) ||| ((wrBits w).1 &&& (wrBits w).2) := by
  refine BitVec.eq_of_getLsbD_eq fun k hk => ?_
  rw [mergeWr_getLsbD, getLsbD_full hk, BitVec.getLsbD_or, BitVec.getLsbD_and, BitVec.getLsbD_and, BitVec.getLsbD_not]
  cases (wrBits w).2.getLsbD k <;> simp [hk]

/-- A whole write replaces every writable bit. -/
theorem mergeWr_full_and (old rw' v : Word64) : mergeWr old rw' (.full v) &&& rw' = v &&& rw' := by
  refine BitVec.eq_of_getLsbD_eq fun k hk => ?_
  rw [BitVec.getLsbD_and, BitVec.getLsbD_and, mergeWr_getLsbD]
  simp only [wrBits, getLsbD_full hk, Bool.and_true]
  cases rw'.getLsbD k <;> simp

/-- A write that reaches the low half of the trim's register sets the trim. -/
theorem mergeWr_trim {old : Word64} {w : Wr} (hb : bit (wrBits w).2 0 = true) :
    (mergeWr old 0xFFFF w).setWidth 16 = (wrBits w).1.setWidth 16 := by
  have hmask : ∀ k < 16, (0xFFFF : Word64).getLsbD k = true ∧ (wrBits w).2.getLsbD k = true := by
    cases w with
    | full v =>
      change ∀ k < 16, (0xFFFF : Word64).getLsbD k = true ∧ (0xFFFFFFFFFFFFFFFF : Word64).getLsbD k = true
      decide
    | low v =>
      change ∀ k < 16, (0xFFFF : Word64).getLsbD k = true ∧ (0xFFFFFFFF : Word64).getLsbD k = true
      decide
    | high v =>
      change bit 0xFFFFFFFF00000000 0 = true at hb
      exact absurd hb (by decide)
  refine BitVec.eq_of_getLsbD_eq fun k hk => ?_
  obtain ⟨h1, h2⟩ := hmask k hk
  rw [BitVec.getLsbD_setWidth, BitVec.getLsbD_setWidth, mergeWr_getLsbD, h1, h2]
  rfl

/-- A whole write of MTR_FW_CTL sets OFFSET to its multiple of 8 (R405). -/
theorem fwOffset_full (old v : Word64) : fld (mergeWr old 0xFFFFFFF8 (.full v)) 0 32 / 8 = v.toNat % 2 ^ 32 / 8 := by
  have hmask : ∀ j < 29, (0xFFFFFFF8 : Word64).getLsbD (j + 3) = true ∧ (0xFFFFFFFFFFFFFFFF : Word64).getLsbD (j + 3) = true := by
    decide
  refine Nat.eq_of_testBit_eq fun j => ?_
  change Nat.testBit (((mergeWr old 0xFFFFFFF8 (.full v)).toNat >>> 0) % 2 ^ 32 / 2 ^ 3) j = Nat.testBit (v.toNat % 2 ^ 32 / 2 ^ 3) j
  rw [Nat.testBit_div_two_pow, Nat.testBit_div_two_pow, Nat.testBit_mod_two_pow, Nat.testBit_mod_two_pow, Nat.shiftRight_zero]
  by_cases hj : j < 29
  · obtain ⟨h1, h2⟩ := hmask j hj
    rw [BitVec.testBit_toNat, BitVec.testBit_toNat, mergeWr_getLsbD]
    simp only [wrBits, h1, h2]
    rfl
  · rw [decide_eq_false (by omega)]
    rfl

section
variable {w : Wr} {i : Isl}

theorem trimWrite_eq (hb : bit (wrBits w).2 0 = true) : trimWrite w i = { i with
    trimUsr := (wrBits w).1.setWidth 16
    audit := withEntry 7 (((wrBits w).1.setWidth 16).signExtend 64) (i.trimUsr.signExtend 64) i.time i } := by
  refine (if_neg (by rw [hb]; exact nofun)).trans ?_
  rw [mergeWr_trim hb, audit_frame, audit_entry (by decide)]
  rfl

theorem operatorWrite_eq : operatorWrite w i = { i with
    operator := (i.operator &&& ~~~ (wrBits w).2) ||| ((wrBits w).1 &&& (wrBits w).2)
    audit := withEntry 8 ((i.operator &&& ~~~ (wrBits w).2) ||| ((wrBits w).1 &&& (wrBits w).2)) i.operator i.time i } := by
  rw [operatorWrite, mergeWr_all, audit_frame, audit_entry (by decide)]
  rfl

theorem fwDataWrite_ignored (h : i.fwStatus ≠ 1) : fwDataWrite w i = ignoreWr i := if_pos h

theorem fwDataWrite_stored (h : i.fwStatus = 1) : fwDataWrite w i = { i with
    fwStage := tput i.fwStage i.fwOffset
      (((tget i.fwStage i.fwOffset).getD 0 &&& ~~~ (wrBits w).2) ||| ((wrBits w).1 &&& (wrBits w).2))
    fwOffset := (i.fwOffset + 8) % 2 ^ 32 } := by
  rw [← mergeWr_all]
  exact if_neg (not_not_intro h)

end

/-- The offset a write of MTR_FW_CTL leaves. -/
def fwOffsetOf (w : Wr) (i : Isl) : Nat := fld (mergeWr (BitVec.ofNat 64 i.fwOffset) 0xFFFFFFF8 w) 0 32

/-- A whole write of MTR_FW_CTL: OFFSET, and its CMD. -/
theorem fwCtlWrite_full (v : Word64) (i : Isl) : fwCtlWrite (.full v) i =
    if fld v 60 4 = 1 then { i with fwOffset := fwOffsetOf (.full v) i, fwStage := [], fwStatus := 1, fwNew := none }
    else if fld v 60 4 = 2 then { i with fwOffset := fwOffsetOf (.full v) i, fwStatus := 2, fwNew := none }
    else { i with fwOffset := fwOffsetOf (.full v) i } := by
  have hbit : bit (wrBits (.full v)).2 60 = true := getLsbD_full (by decide)
  simp only [fwCtlWrite, hbit, if_true]
  rfl

theorem fwCtlWrite_offset (v : Word64) (i : Isl) : (fwCtlWrite (.full v) i).fwOffset = fwOffsetOf (.full v) i := by
  rw [fwCtlWrite_full]
  split
  · rfl
  · split
    · rfl
    · rfl

/-! ### Readers -/

section
variable (k : Fin 2) (r : Reader) (i : Isl)

theorem getReader_setReader_same : getReader (setReader k r i) k = r := by
  by_cases h : k = 0 <;> simp [getReader, setReader, h]

theorem getReader_setReader_other {j : Fin 2} (h : j ≠ k) : getReader (setReader k r i) j = getReader i j := by
  by_cases hk : k = 0
  · have hj : j ≠ 0 := hk ▸ h
    simp [getReader, setReader, hk, hj]
  · have hj : j = 0 := by omega
    simp [getReader, setReader, hk, hj]

theorem setReader_frame : setReader k r i = { i with rd0 := (setReader k r i).rd0, rd1 := (setReader k r i).rd1 } := by
  by_cases h : k = 0 <;> simp [setReader, h]

end

/-! ### The minute -/

/-- A staged firmware that runs changes the log and what concerns the firmware alone (R405). -/
theorem activateFw_frame (i : Isl) : activateFw i = { i with
    audit := (activateFw i).audit, fwRun := (activateFw i).fwRun, fwVersion := (activateFw i).fwVersion
    fwNew := (activateFw i).fwNew, fwStatus := (activateFw i).fwStatus, fwChanged := (activateFw i).fwChanged } := by
  cases h : i.fwNew with
  | none => simp only [activateFw, h]; simp [← h]
  | some v => simp only [activateFw, h]; rw [audit_frame]

/-- The number of the minute that begins. -/
def nextMinute (d : Dev) : Nat := max (d.isl.time / 60000000) (d.isl.min + 1)

/-- The device with time at its next minute and the trim in effect (R387). -/
def minuteBegun (d : Dev) : Dev :=
  updIsl (fun i => { timeTo (nextMinute d * 60000000) i with
    min := nextMinute d, ms := max i.ms (max i.time (nextMinute d * 60000000) / 1000 - 1), trimEff := trimSum d }) d

/-- What a minute does with the block that is open, if one is to be closed: without one the staged firmware runs; one that fits
is stored and the next one opens; one that does not fit stays open (R391, R399, R405). -/
def minuteClosed (o : Option MBlock) (d : Dev) : Dev :=
  match o with
  | none => updIsl activateFw d
  | some b =>
    if blockFits d { b with span := b.span + 1 } then
      updIsl (fun i => openBlock false (activateFw { i with full := false })) (storeBlock { b with span := b.span + 1 } d)
    else updIsl (fun i => activateFw { i with opened := some { b with span := b.span + 1 }, full := true }) d

theorem minuteBoundary_eq (d : Dev) :
    minuteBoundary d = minuteClosed (if d.isl.timeUnset then none else d.isl.opened) (minuteBegun d) := rfl

/-- A block with its final fields, as it is stored (R391). -/
def closedBlock (b : MBlock) (d : Dev) : MBlock :=
  { b with
    fin := d.isl.time, span := max 1 b.span, recs := closeRecs b, adjusted := b.adjusted || d.isl.slew != 0
    sealCount := d.isl.sealCount, operator := d.isl.operator, paramCrc := paramCrc d.isl, fwVersion := d.isl.fwVersion
    auditSeq := d.isl.audit.length, prevDigest := d.isl.lastDigest, auditDigest := auditDigest d.isl }

theorem storeBlock_blocks (b : MBlock) (d : Dev) : (storeBlock b d).isl.blocks =
    trimRing d.isl.acked (d.isl.blocks ++ [closedBlock b d]).length (d.isl.blocks ++ [closedBlock b d]) := rfl

theorem insertRec_span (b : MBlock) (n : Nat) (t : Tally) (l : List Tally) :
    insertRec { b with span := n } t l = insertRec b t l := by
  induction l with
  | nil => rfl
  | cons x xs ih =>
    rw [insertRec, insertRec, ih]
    rfl

/-- The length of a block is no part of its records. -/
theorem closeRecs_span (b : MBlock) (n : Nat) : closeRecs { b with span := n } = closeRecs b := by
  simp only [closeRecs, insertRec_span]

theorem blockFits_begun (d : Dev) (b : MBlock) (n : Nat) : blockFits (minuteBegun d) { b with span := n } = blockFits d b := by
  rw [blockFits, blockFits, closeRecs_span]
  rfl

theorem activateFw_keeps (i : Isl) : (activateFw i).time = i.time ∧ (activateFw i).min = i.min ∧ (activateFw i).trimEff = i.trimEff ∧
    (activateFw i).opened = i.opened ∧ (activateFw i).blocks = i.blocks ∧ (activateFw i).full = i.full ∧
    (activateFw i).seqNext = i.seqNext ∧ (activateFw i).lastEnd = i.lastEnd := by
  rw [activateFw_frame]
  exact ⟨rfl, rfl, rfl, rfl, rfl, rfl, rfl, rfl⟩

/-- Whatever becomes of the block, the minute's time and trim stand, and no other part of the device changes. -/
theorem minuteClosed_keeps (o : Option MBlock) (d : Dev) :
    minuteClosed o d = { d with isl := (minuteClosed o d).isl } ∧ (minuteClosed o d).isl.trimEff = d.isl.trimEff ∧
    (minuteClosed o d).isl.min = d.isl.min ∧ (minuteClosed o d).isl.time = d.isl.time := by
  cases o with
  | none =>
    obtain ⟨ht, hm, he, -⟩ := activateFw_keeps d.isl
    exact ⟨rfl, he, hm, ht⟩
  | some b =>
    rw [minuteClosed]
    split
    · obtain ⟨ht, hm, he, -⟩ := activateFw_keeps { (storeBlock { b with span := b.span + 1 } d).isl with full := false }
      exact ⟨rfl, he, hm, ht⟩
    · obtain ⟨ht, hm, he, -⟩ := activateFw_keeps { d.isl with opened := some { b with span := b.span + 1 }, full := true }
      exact ⟨rfl, he, hm, ht⟩

section
variable {d : Dev}

/-- With the time unset no block is closed or opened (R385). -/
theorem minuteBoundary_unset (h : d.isl.timeUnset = true) :
    (minuteBoundary d).isl.opened = d.isl.opened ∧ (minuteBoundary d).isl.blocks = d.isl.blocks ∧
    (minuteBoundary d).isl.full = d.isl.full ∧ (minuteBoundary d).isl.seqNext = d.isl.seqNext := by
  rw [minuteBoundary_eq, if_pos h]
  obtain ⟨-, -, -, ho, hb, hf, hs, -⟩ := activateFw_keeps (minuteBegun d).isl
  exact ⟨ho, hb, hf, hs⟩

variable {b : MBlock} (hu : d.isl.timeUnset = false) (ho : d.isl.opened = some b)
include hu ho

theorem minuteBoundary_open : minuteBoundary d = minuteClosed (some b) (minuteBegun d) := by
  rw [minuteBoundary_eq, if_neg (by rw [hu]; exact nofun), ho]

/-- The open block that fits is closed and stored, and the next one opens (R391). -/
theorem minuteBoundary_stores (hf : blockFits d b = true) :
    ∃ c n, c.seq = b.seq ∧ c.fin = (minuteBoundary d).isl.time ∧ c.span = b.span + 1 ∧ c.recs = closeRecs b ∧
      (minuteBoundary d).isl.blocks = trimRing d.isl.acked (d.isl.blocks ++ [c]).length (d.isl.blocks ++ [c]) ∧
      (minuteBoundary d).isl.opened = some n ∧ (minuteBoundary d).isl.full = false ∧
      (minuteBoundary d).isl.seqNext = d.isl.seqNext + 1 ∧ (minuteBoundary d).isl.lastEnd = (minuteBoundary d).isl.time := by
  rw [minuteBoundary_open hu ho, minuteClosed, if_pos ((blockFits_begun d b _).trans hf)]
  obtain ⟨ht, -, -, -, hb, hl, hs, he⟩ :=
    activateFw_keeps { (storeBlock { b with span := b.span + 1 } (minuteBegun d)).isl with full := false }
  exact ⟨closedBlock { b with span := b.span + 1 } (minuteBegun d), _, rfl, ht.symm, Nat.max_eq_right (Nat.le_add_left 1 b.span),
    closeRecs_span b _, hb.trans (storeBlock_blocks _ _), rfl, hl, hs, he.trans ht.symm⟩

/-- The open block that does not fit stays open, one minute longer (R399). -/
theorem minuteBoundary_extends (hf : blockFits d b = false) :
    (minuteBoundary d).isl.opened = some { b with span := b.span + 1 } ∧ (minuteBoundary d).isl.full = true ∧
    (minuteBoundary d).isl.blocks = d.isl.blocks ∧ (minuteBoundary d).isl.seqNext = d.isl.seqNext := by
  rw [minuteBoundary_open hu ho, minuteClosed, if_neg (by rw [blockFits_begun, hf]; exact nofun)]
  obtain ⟨-, -, -, ho', hb, hl, hs, -⟩ :=
    activateFw_keeps { (minuteBegun d).isl with opened := some { b with span := b.span + 1 }, full := true }
  exact ⟨ho', hl, hb, hs⟩

end

/-! ### The meter's writes -/

/-- Settles O59: each write is what its equation says, and a minute what becomes of the open block. -/
theorem meterWritesDoWhatTheirRulesSay : Obligations.MeterWritesDoWhatTheirRulesSay := by
  unfold Obligations.MeterWritesDoWhatTheirRulesSay
  intro logged
  refine ⟨fun w i h => timeSet_part h, fun v i h => timeSet_ignored h, fun v i hu hv => ?_, fun w i hb => ?_, fun w i hb => ?_,
    fun w i => ?_, fun w i => ⟨fun h => fwDataWrite_ignored h, fun h => ?_⟩, fun v i => ?_, fun k v i => ?_, fun d => ?_⟩
  · obtain ⟨b, hb⟩ := timeSet_taken hu hv
    exact ⟨_, hb, rfl, rfl, rfl⟩
  · intro x t
    by_cases h : adjBarred w i
    · have ht : t = _ := timeAdj_refused hb h
      rw [ht]
      exact ⟨(if_pos h).mpr ⟨rfl, rfl, rfl, rfl, rfl⟩, rfl⟩
    · have ht : t = _ := timeAdj_taken hb h
      rw [ht]
      exact ⟨(if_neg h).mpr ⟨rfl, rfl, List.mem_append_right _ (List.mem_singleton_self _), adjUsed_taken rfl rfl, rfl, rfl⟩, rfl⟩
  · exact ⟨_, trimWrite_eq hb, rfl, rfl, rfl⟩
  · exact ⟨_, operatorWrite_eq, rfl, rfl, rfl⟩
  · exact ⟨_, fwDataWrite_stored h, rfl, fun k hk => tget_tput_other _ _ _ _ hk, tget_tput_same _ _ _, rfl⟩
  · intro t
    refine ⟨?_, fun h => ?_, fun h => ?_, fun h1 h2 => ?_⟩
    · exact (congrArg (· / 8) (fwCtlWrite_offset v i)).trans (fwOffset_full _ v)
    · have ht : t = _ := (fwCtlWrite_full v i).trans (if_pos h)
      rw [ht]
    · have ht : t = _ := (fwCtlWrite_full v i).trans ((if_neg (by omega)).trans (if_pos h))
      rw [ht]
    · have ht : t = _ := (fwCtlWrite_full v i).trans ((if_neg h1).trans (if_neg h2))
      rw [ht]
  · intro t
    have hsame : getReader t k = _ := getReader_setReader_same k _ i
    refine ⟨?_, ?_, fun j hj => getReader_setReader_other k _ i hj, setReader_frame k _ i⟩
    · rw [hsame]
      exact mergeWr_full_and _ _ v
    · rw [hsame]
  · obtain ⟨hd, he, hm, ht⟩ := minuteClosed_keeps (if d.isl.timeUnset then none else d.isl.opened) (minuteBegun d)
    have hmin : d.isl.min < nextMinute d := Nat.lt_of_lt_of_le (Nat.lt_succ_self _) (Nat.le_max_right _ _)
    refine ⟨minuteBoundary d, rfl, hd, he, hm.symm ▸ hmin, ht.symm ▸ Nat.le_max_left _ _, ?_, minuteBoundary_unset,
      fun b hu ho => ⟨minuteBoundary_stores hu ho, minuteBoundary_extends hu ho⟩⟩
    rw [minuteBoundary_eq, hm, ht]
    exact Nat.le_max_right _ _

end Sys2Proof.Machine
end
